-- ==== Sys2Proof/Word.lean ====
section
/-!
DEFINITION. The word types of the Sormin (spec/00_scope.md R4, R5) and their plainest arithmetic: bit ranges, sign
extension, little-endian bytes, and the sorted key-value lists that hold every sparse store of the model.
-/

namespace Sys2Proof

/-- A 64-bit register, slot word or table entry. -/
abbrev Word := BitVec 64
/-- One byte of any store. -/
abbrev Byte := BitVec 8
/-- A 32-bit stamp: CLASS [31:30], TICK [29:0] (spec/02_birth_times.md R39). -/
abbrev Stamp := BitVec 32
/-- A 7-bit register field of an instruction word (spec/05_kelac_encoding.md R144). -/
abbrev RegField := BitVec 7

/-- Bits [hi:lo] of a natural number, as R4 writes ranges. -/
def bits (x hi lo : Nat) : Nat := (x >>> lo) % 2 ^ (hi - lo + 1)

/-- Bit i of a natural number. -/
def bit (x i : Nat) : Bool := (x >>> i) % 2 == 1

/-- The number 1 for true and 0 for false. -/
def b2n (b : Bool) : Nat := if b then 1 else 0

/-- The w-bit number x read as two's complement. -/
def toSigned (w x : Nat) : Int := if x % 2 ^ w < 2 ^ (w - 1) then (x % 2 ^ w : Nat) else (x % 2 ^ w : Nat) - (2 ^ w : Nat)

/-- The integer i modulo 2^w, as a w-bit number. -/
def ofSigned (w : Nat) (i : Int) : Nat := (i % (2 ^ w : Nat)).toNat

/-- The first `n` bytes of a number, least significant first (R5). -/
def toBytes : Nat → Nat → List Byte
  | 0, _ => []
  | n + 1, x => BitVec.ofNat 8 x :: toBytes n (x / 256)

/-- The number that little-endian bytes hold (R5). -/
def ofBytes : List Byte → Nat
  | [] => 0
  | b :: bs => b.toNat + 256 * ofBytes bs

/-- Round x down to a multiple of a. -/
def alignDown (x a : Nat) : Nat := x / a * a
/-- Round x up to a multiple of a. -/
def alignUp (x a : Nat) : Nat := (x + a - 1) / a * a

/-- The integer square root of x below 2^(bitsLeft): the greatest r with r * r ≤ x, found bit by bit from the top. -/
def isqrtFrom (x : Nat) : Nat → Nat → Nat
  | 0, r => r
  | k + 1, r => let r' := r + 2 ^ k; isqrtFrom x k (if r' * r' ≤ x then r' else r)

/-- A list of n copies of f 0, f 1, …, f (n-1). -/
def listOf {α : Type} (n : Nat) (f : Nat → α) : List α := (List.range n).map f

/-- The first element that satisfies p, with the others kept in order. -/
def takeFirst {α : Type} (p : α → Bool) : List α → Option (α × List α)
  | [] => none
  | x :: xs =>
    if p x then some (x, xs)
    else match takeFirst p xs with
      | none => none
      | some (y, ys) => some (y, x :: ys)

/-- Replace the first element that satisfies p. -/
def replaceFirst {α : Type} (p : α → Bool) (y : α) : List α → List α
  | [] => []
  | x :: xs => if p x then y :: xs else x :: replaceFirst p y xs

/-- Apply f to element i of a list. -/
def modifyAt {α : Type} (f : α → α) : Nat → List α → List α
  | _, [] => []
  | 0, x :: xs => f x :: xs
  | n + 1, x :: xs => x :: modifyAt f n xs

/-- Insert x into a list kept in descending order of `le`, after the elements that do not come after it. -/
def insertBy {α : Type} (le : α → α → Bool) (x : α) : List α → List α
  | [] => [x]
  | y :: ys => if le x y then x :: y :: ys else y :: insertBy le x ys

/-- Sort by insertion; stable. -/
def sortBy {α : Type} (le : α → α → Bool) : List α → List α
  | [] => []
  | x :: xs => insertBy le x (sortBy le xs)

/-! ### Sorted key-value lists

Every sparse store is a list of (key, value) pairs in ONE canonical form: keys strictly rising, and no value equal to the
store's default, which is what an unlisted key reads as. -/

namespace AList

/-- The value at key k; an unlisted key reads as the default d. -/
def get {β : Type} (d : β) (k : Nat) : List (Nat × β) → β
  | [] => d
  | (k', v) :: l => if k' < k then get d k l else if k' = k then v else d

/-- Write v at key k, keeping the canonical form: a default value removes the entry. -/
def put {β : Type} [DecidableEq β] (d : β) (k : Nat) (v : β) : List (Nat × β) → List (Nat × β)
  | [] => if v = d then [] else [(k, v)]
  | (k', v') :: l =>
    if k' < k then (k', v') :: put d k v l
    else if k' = k then (if v = d then l else (k, v) :: l)
    else if v = d then (k', v') :: l else (k, v) :: (k', v') :: l

/-- The canonical form: every key is at least lo, keys rise strictly, no value is the default. -/
def wfFrom {β : Type} [DecidableEq β] (d : β) : Nat → List (Nat × β) → Bool
  | _, [] => true
  | lo, (k, v) :: l => decide (lo ≤ k) && decide (v ≠ d) && wfFrom d (k + 1) l

/-- The canonical form of a whole store. -/
def wf {β : Type} [DecidableEq β] (d : β) (l : List (Nat × β)) : Bool := wfFrom d 0 l

end AList

end Sys2Proof
end

