-- ==== Sys2Proof/Syntax.lean ====
section
/-!
DEFINITION. The instructions and events of the Sormin: one constructor of `Instr` for each row of spec/opcode_table.json.
A Kelac row carries the fields of its word (spec/05_kelac_encoding.md R148, R150); a task row carries the operands of its
32-byte slot (spec/03_task_stream.md R69); a row that is an event of the hardware, the host or the fabric carries what tells
that event from another of its kind. Threads, crews, cohorts, tasks and engine threads are named by their record number.
-/

namespace Sys2Proof

/-- The operands of a task slot: flags byte [39:32] of word 0, A, B, C and the predicate cell D (R69). -/
structure TaskSlot where
  flags : BitVec 8
  a : BitVec 32
  b : Word
  c : Word
  d : Word
  deriving DecidableEq, Repr

/-- A unit that stops at its own boundary and acknowledges (spec/16_scheduling_hardware.md R353). -/
inductive StopUnit where
  /-- A SIMT core. -/
  | core (k : Nat)
  /-- The matrix engine of a cluster. -/
  | matrix (cluster : Nat)
  /-- The update unit of a cluster. -/
  | update (cluster : Nat)
  /-- The copy engine that runs an engine thread. -/
  | copy (e : Nat)
  /-- The fabric sender that runs an engine thread. -/
  | sender (e : Nat)
  /-- The task window. -/
  | window
  deriving DecidableEq, Repr

/-- A place that holds a stamp and, but for a register, a poison bit (spec/02_birth_times.md R39, R44, R62). -/
inductive Loc where
  /-- The granule of device memory at a physical address. -/
  | dram (pa : Nat)
  /-- The granule of a host line held in the device's caches. -/
  | hostLine (pa : Nat)
  /-- The granule of a crew's scratchpad at a byte offset. -/
  | scratch (cr off : Nat)
  /-- The granule of a cohort's accumulator allotment at a byte offset. -/
  | acc (h off : Nat)
  /-- A register of a thread. -/
  | reg (cr tid n : Nat)
  /-- The stamp of a crew's active or shadow plane. -/
  | plane (cr : Nat) (shadow : Bool)
  deriving DecidableEq, Repr

/-- The unit that an error record names (spec/15_privileged_state_and_traps.md R345). -/
inductive ErrUnit where
  /-- A core. -/
  | core (k : Nat)
  /-- A memory stack, with the syndrome class its link reported (R425). -/
  | stack (n synd : Nat)
  deriving DecidableEq, Repr

/-- What a flit brings to a receiver (spec/18_optical_fabric.md R395, R397): the plane it came on and its bytes. -/
structure PlaneFlit where
  plane : Nat
  bytes : List Byte
  deriving DecidableEq, Repr

/-- A message of the time exchange (spec/18_optical_fabric.md R403): its start, or the four timestamps as they travel, in nanoseconds. -/
inductive TimeMsg where
  /-- The package asks the master. -/
  | start
  /-- A package asks this one, which is the master: when it asked. -/
  | request (peer t1 : Nat)
  /-- The master answers: when it was asked, by the asker's clock, then when the question came and the answer left, by its own. -/
  | reply (t1 t2 t3 : Nat)
  deriving DecidableEq, Repr

/-- One row of spec/opcode_table.json each. -/
inductive Instr where
  /-- `BRA`: Branches always to the clause header at H + 4 × OFF17 -/
  | bra (o : BitVec 17)
  /-- `BZ`: Branches when all 64 bits of A are zero, otherwise goes to the next clause -/
  | bz (a : BitVec 7) (o : BitVec 17)
  /-- `BNZ`: Branches when any bit of A is one -/
  | bnz (a : BitVec 7) (o : BitVec 17)
  /-- `CALL`: Pushes the next clause header on the scratchpad stack and branches -/
  | call (o : BitVec 17)
  /-- `JMPR`: Jumps to the cursor of a tagged executable code capability -/
  | jmpr (a : BitVec 7)
  /-- `CJOIN`: Enters the thread in a convergence barrier's arrival set and holds it until release -/
  | cjoin (k : BitVec 3)
  /-- `BMASK`: Writes a convergence barrier's member mask from A -/
  | bmask (a : BitVec 7) (k : BitVec 3)
  /-- `CLEAVE`: Removes the thread's lane from a convergence barrier's member mask -/
  | cleave (k : BitVec 3)
  /-- `WINB`: Sets the register window base from the next clause on -/
  | winb (k : BitVec 5)
  /-- `REP`: Makes the next slot issue count times with stepped register fields -/
  | rep (t : BitVec 3) (k : BitVec 7)
  /-- `TRAP`: Raises a software trap carrying K -/
  | trap (k : BitVec 7)
  /-- `BKPT`: Raises a breakpoint trap, or a debug halt when DBG is set -/
  | bkpt (k : BitVec 7)
  /-- `SLEEP`: Puts the thread to sleep for a number of cycles -/
  | sleep (a : BitVec 7)
  /-- `ADD`: Adds elements, wrapping or saturating -/
  | add (t : BitVec 3) (d : BitVec 7) (a : BitVec 7) (b : BitVec 7)
  /-- `ADDI`: Adds a signed immediate to each element -/
  | addi (t : BitVec 3) (d : BitVec 7) (a : BitVec 7) (k : BitVec 7)
  /-- `SUB`: Subtracts elements -/
  | sub (t : BitVec 3) (d : BitVec 7) (a : BitVec 7) (b : BitVec 7)
  /-- `MUL`: Multiplies elements, low half -/
  | mul (t : BitVec 3) (d : BitVec 7) (a : BitVec 7) (b : BitVec 7)
  /-- `MULHS`: Gives the signed high half of element products -/
  | mulhs (t : BitVec 3) (d : BitVec 7) (a : BitVec 7) (b : BitVec 7)
  /-- `MULHN`: Gives the natural high half of element products -/
  | mulhn (t : BitVec 3) (d : BitVec 7) (a : BitVec 7) (b : BitVec 7)
  /-- `MAD`: Multiplies and adds elements with a C word operand -/
  | mad (t : BitVec 3) (d : BitVec 7) (a : BitVec 7) (b : BitVec 7) (c : BitVec 7)
  /-- `MINS`: Signed element minimum -/
  | mins (t : BitVec 3) (d : BitVec 7) (a : BitVec 7) (b : BitVec 7)
  /-- `MINN`: Natural element minimum -/
  | minn (t : BitVec 3) (d : BitVec 7) (a : BitVec 7) (b : BitVec 7)
  /-- `MAXS`: Signed element maximum -/
  | maxs (t : BitVec 3) (d : BitVec 7) (a : BitVec 7) (b : BitVec 7)
  /-- `MAXN`: Natural element maximum -/
  | maxn (t : BitVec 3) (d : BitVec 7) (a : BitVec 7) (b : BitVec 7)
  /-- `ABS`: Absolute value of each element -/
  | abs (t : BitVec 3) (d : BitVec 7) (a : BitVec 7)
  /-- `NEG`: Negates each element -/
  | neg (t : BitVec 3) (d : BitVec 7) (a : BitVec 7)
  /-- `AND`: Bitwise AND of 64 bits -/
  | and (d : BitVec 7) (a : BitVec 7) (b : BitVec 7)
  /-- `OR`: Bitwise OR of 64 bits -/
  | or (d : BitVec 7) (a : BitVec 7) (b : BitVec 7)
  /-- `XOR`: Bitwise XOR of 64 bits -/
  | xor (d : BitVec 7) (a : BitVec 7) (b : BitVec 7)
  /-- `ANDN`: A AND NOT B -/
  | andn (d : BitVec 7) (a : BitVec 7) (b : BitVec 7)
  /-- `NOT`: Bitwise NOT of A -/
  | not (d : BitVec 7) (a : BitVec 7)
  /-- `SHL`: Shifts elements left by a register count -/
  | shl (t : BitVec 3) (d : BitVec 7) (a : BitVec 7) (b : BitVec 7)
  /-- `SHR`: Logical right shift by a register count -/
  | shr (t : BitVec 3) (d : BitVec 7) (a : BitVec 7) (b : BitVec 7)
  /-- `SRA`: Arithmetic right shift by a register count -/
  | sra (t : BitVec 3) (d : BitVec 7) (a : BitVec 7) (b : BitVec 7)
  /-- `SHLI`: Shifts elements left by an immediate -/
  | shli (t : BitVec 3) (d : BitVec 7) (a : BitVec 7) (k : BitVec 6)
  /-- `SHRI`: Logical right shift by an immediate -/
  | shri (t : BitVec 3) (d : BitVec 7) (a : BitVec 7) (k : BitVec 6)
  /-- `SRAI`: Arithmetic right shift by an immediate -/
  | srai (t : BitVec 3) (d : BitVec 7) (a : BitVec 7) (k : BitVec 6)
  /-- `ROTL`: Rotates elements left -/
  | rotl (t : BitVec 3) (d : BitVec 7) (a : BitVec 7) (b : BitVec 7)
  /-- `POPC`: Counts one bits of each element -/
  | popc (t : BitVec 3) (d : BitVec 7) (a : BitVec 7)
  /-- `CLZ`: Counts leading zeros of each element -/
  | clz (t : BitVec 3) (d : BitVec 7) (a : BitVec 7)
  /-- `BREV`: Reverses the bits of each element -/
  | brev (t : BitVec 3) (d : BitVec 7) (a : BitVec 7)
  /-- `BFX`: Extracts a bit field of A -/
  | bfx (d : BitVec 7) (a : BitVec 7) (b : BitVec 7)
  /-- `BFI`: Inserts a bit field into A -/
  | bfi (d : BitVec 7) (a : BitVec 7) (b : BitVec 7) (c : BitVec 7)
  /-- `CMPEQ`: Sets elements to all ones where equal -/
  | cmpeq (t : BitVec 3) (d : BitVec 7) (a : BitVec 7) (b : BitVec 7)
  /-- `CMPLTS`: Signed less-than compare of elements -/
  | cmplts (t : BitVec 3) (d : BitVec 7) (a : BitVec 7) (b : BitVec 7)
  /-- `CMPLTN`: Natural less-than compare of elements -/
  | cmpltn (t : BitVec 3) (d : BitVec 7) (a : BitVec 7) (b : BitVec 7)
  /-- `CMPLES`: Signed less-or-equal compare of elements -/
  | cmples (t : BitVec 3) (d : BitVec 7) (a : BitVec 7) (b : BitVec 7)
  /-- `CMPLEN`: Natural less-or-equal compare of elements -/
  | cmplen (t : BitVec 3) (d : BitVec 7) (a : BitVec 7) (b : BitVec 7)
  /-- `SEL`: Selects elements of B or C by A -/
  | sel (t : BitVec 3) (d : BitVec 7) (a : BitVec 7) (b : BitVec 7) (c : BitVec 7)
  /-- `MOV`: Copies register A to D -/
  | mov (d : BitVec 7) (a : BitVec 7)
  /-- `LI`: Loads a sign-extended 32-bit literal, TIMELESS -/
  | li (d : BitVec 7) (lit : BitVec 32)
  /-- `LIH`: Puts a literal in the high half above A's low half -/
  | lih (d : BitVec 7) (a : BitVec 7) (lit : BitVec 32)
  /-- `LEA`: Moves a pair's cursor as data, giving an untagged pair -/
  | lea (d : BitVec 7) (a : BitVec 7) (b : BitVec 7)
  /-- `FADD`: Floating-point add rounded by RM -/
  | fadd (t : BitVec 3) (d : BitVec 7) (a : BitVec 7) (b : BitVec 7)
  /-- `FSUB`: Floating-point subtract -/
  | fsub (t : BitVec 3) (d : BitVec 7) (a : BitVec 7) (b : BitVec 7)
  /-- `FMUL`: Floating-point multiply -/
  | fmul (t : BitVec 3) (d : BitVec 7) (a : BitVec 7) (b : BitVec 7)
  /-- `FFMA`: Fused multiply-add with one rounding -/
  | ffma (t : BitVec 3) (d : BitVec 7) (a : BitVec 7) (b : BitVec 7) (c : BitVec 7)
  /-- `FMIN`: Floating-point minimum -/
  | fmin (t : BitVec 3) (d : BitVec 7) (a : BitVec 7) (b : BitVec 7)
  /-- `FMAX`: Floating-point maximum -/
  | fmax (t : BitVec 3) (d : BitVec 7) (a : BitVec 7) (b : BitVec 7)
  /-- `FABS`: Clears the sign of each element -/
  | fabs (t : BitVec 3) (d : BitVec 7) (a : BitVec 7)
  /-- `FNEG`: Inverts the sign of each element -/
  | fneg (t : BitVec 3) (d : BitVec 7) (a : BitVec 7)
  /-- `FCMPEQ`: Floating-point equality compare -/
  | fcmpeq (t : BitVec 3) (d : BitVec 7) (a : BitVec 7) (b : BitVec 7)
  /-- `FCMPLT`: Floating-point less-than compare -/
  | fcmplt (t : BitVec 3) (d : BitVec 7) (a : BitVec 7) (b : BitVec 7)
  /-- `FCMPLE`: Floating-point less-or-equal compare -/
  | fcmple (t : BitVec 3) (d : BitVec 7) (a : BitVec 7) (b : BitVec 7)
  /-- `FCMPUN`: True where either operand is a NaN -/
  | fcmpun (t : BitVec 3) (d : BitVec 7) (a : BitVec 7) (b : BitVec 7)
  /-- `FRCP`: Correctly rounded reciprocal, long latency -/
  | frcp (t : BitVec 3) (d : BitVec 7) (a : BitVec 7)
  /-- `FRSQ`: Correctly rounded reciprocal square root -/
  | frsq (t : BitVec 3) (d : BitVec 7) (a : BitVec 7)
  /-- `FSQRT`: Correctly rounded square root -/
  | fsqrt (t : BitVec 3) (d : BitVec 7) (a : BitVec 7)
  /-- `FEXP2`: 2 to the power a, rounded RNE -/
  | fexp2 (t : BitVec 3) (d : BitVec 7) (a : BitVec 7)
  /-- `FLOG2`: Base-2 logarithm, rounded RNE -/
  | flog2 (t : BitVec 3) (d : BitVec 7) (a : BitVec 7)
  /-- `FSIN`: Sine of pi times a -/
  | fsin (t : BitVec 3) (d : BitVec 7) (a : BitVec 7)
  /-- `FCOS`: Cosine of pi times a -/
  | fcos (t : BitVec 3) (d : BitVec 7) (a : BitVec 7)
  /-- `FSCALE`: Multiplies each element by 2 to an integer power -/
  | fscale (t : BitVec 3) (d : BitVec 7) (a : BitVec 7) (b : BitVec 7)
  /-- `FCLASS`: Writes the class code of each element -/
  | fclass (t : BitVec 3) (d : BitVec 7) (a : BitVec 7)
  /-- `FDOT`: Exact dot product of element pairs, rounded once -/
  | fdot (t : BitVec 3) (d : BitVec 7) (a : BitVec 7) (b : BitVec 7)
  /-- `FSUM`: Sums a register's elements in a fixed tree -/
  | fsum (t : BitVec 3) (d : BitVec 7) (a : BitVec 7)
  /-- `FCVT`: Converts between float formats -/
  | fcvt (t : BitVec 3) (d : BitVec 7) (a : BitVec 7) (k : BitVec 3)
  /-- `FCVTAM`: Converts between float formats and updates amax -/
  | fcvtam (t : BitVec 3) (d : BitVec 7) (a : BitVec 7) (k : BitVec 3)
  /-- `F2I`: Converts floats to an integer form -/
  | f2i (t : BitVec 3) (d : BitVec 7) (a : BitVec 7) (k : BitVec 3)
  /-- `I2F`: Converts integers to a float format -/
  | i2f (t : BitVec 3) (d : BitVec 7) (a : BitVec 7) (k : BitVec 3)
  /-- `QPACK`: Encodes elements to QN4 codes with a scale word -/
  | qpack (t : BitVec 3) (d : BitVec 7) (a : BitVec 7) (b : BitVec 7)
  /-- `QPACK_GS`: Computes the group super-scale S from a group maximum -/
  | qpackGs (d : BitVec 7) (a : BitVec 7)
  /-- `QPACK_BS`: Computes a block scale code from a block maximum and S -/
  | qpackBs (d : BitVec 7) (a : BitVec 7) (b : BitVec 7)
  /-- `QUNPK`: Decodes QN4 codes to floats -/
  | qunpk (t : BitVec 3) (d : BitVec 7) (a : BitVec 7) (b : BitVec 7)
  /-- `FPACK`: Narrows two registers into one -/
  | fpack (t : BitVec 3) (d : BitVec 7) (a : BitVec 7) (b : BitVec 7)
  /-- `FUNPK`: Widens the high half of A -/
  | funpk (t : BitVec 3) (d : BitVec 7) (a : BitVec 7)
  /-- `SHFL`: Delivers the value of a register-chosen source lane -/
  | shfl (d : BitVec 7) (a : BitVec 7) (b : BitVec 7)
  /-- `SHFLI_IDX`: Delivers the value of a fixed source lane -/
  | shfliIdx (d : BitVec 7) (a : BitVec 7) (k : BitVec 5)
  /-- `SHFLI_UP`: Delivers the value of lane l minus delta -/
  | shfliUp (d : BitVec 7) (a : BitVec 7) (k : BitVec 5)
  /-- `SHFLI_DOWN`: Delivers the value of lane l plus delta -/
  | shfliDown (d : BitVec 7) (a : BitVec 7) (k : BitVec 5)
  /-- `SHFLI_XOR`: Delivers the value of lane l XOR mask -/
  | shfliXor (d : BitVec 7) (a : BitVec 7) (k : BitVec 5)
  /-- `VOTEALL`: All ones when A is nonzero in every joined lane -/
  | voteall (d : BitVec 7) (a : BitVec 7)
  /-- `VOTEANY`: All ones when A is nonzero in some joined lane -/
  | voteany (d : BitVec 7) (a : BitVec 7)
  /-- `BALLOT`: Mask of joined lanes with nonzero A -/
  | ballot (d : BitVec 7) (a : BitVec 7)
  /-- `MATCH`: Mask of joined lanes whose A equals the own A -/
  | matchA (d : BitVec 7) (a : BitVec 7)
  /-- `SCANADD`: Inclusive integer prefix sum over joined lanes -/
  | scanadd (t : BitVec 3) (d : BitVec 7) (a : BitVec 7)
  /-- `SCANADDX`: Exclusive integer prefix sum over joined lanes -/
  | scanaddx (t : BitVec 3) (d : BitVec 7) (a : BitVec 7)
  /-- `REDADD`: Integer sum over joined lanes -/
  | redadd (t : BitVec 3) (d : BitVec 7) (a : BitVec 7)
  /-- `REDMAXS`: Signed maximum over joined lanes -/
  | redmaxs (t : BitVec 2) (d : BitVec 7) (a : BitVec 7)
  /-- `REDMAXN`: Natural maximum over joined lanes -/
  | redmaxn (t : BitVec 2) (d : BitVec 7) (a : BitVec 7)
  /-- `REDMINS`: Signed minimum over joined lanes -/
  | redmins (t : BitVec 2) (d : BitVec 7) (a : BitVec 7)
  /-- `REDMINN`: Natural minimum over joined lanes -/
  | redminn (t : BitVec 2) (d : BitVec 7) (a : BitVec 7)
  /-- `REDOR`: Bitwise OR over joined lanes -/
  | redor (t : BitVec 3) (d : BitVec 7) (a : BitVec 7)
  /-- `FREDADD`: Floating-point sum over lanes in a fixed tree -/
  | fredadd (t : BitVec 3) (d : BitVec 7) (a : BitVec 7)
  /-- `FSCANADD`: Inclusive floating-point prefix sum over lanes -/
  | fscanadd (t : BitVec 3) (d : BitVec 7) (a : BitVec 7)
  /-- `ELECT`: Writes 1 in the lowest joined lane, 0 elsewhere -/
  | elect (d : BitVec 7)
  /-- `MEMB`: Writes the mask of joined lanes -/
  | memb (d : BitVec 7)
  /-- `LD8`: Loads 1 byte with its granule stamp -/
  | ld8 (s : BitVec 3) (d : BitVec 7) (a : BitVec 7) (o : BitVec 7)
  /-- `LD16`: Loads 2 bytes -/
  | ld16 (s : BitVec 3) (d : BitVec 7) (a : BitVec 7) (o : BitVec 7)
  /-- `LD32`: Loads 4 bytes -/
  | ld32 (s : BitVec 3) (d : BitVec 7) (a : BitVec 7) (o : BitVec 7)
  /-- `LD64`: Loads 8 bytes -/
  | ld64 (s : BitVec 3) (d : BitVec 7) (a : BitVec 7) (o : BitVec 7)
  /-- `LD128`: Loads 16 bytes into a pair -/
  | ld128 (s : BitVec 3) (d : BitVec 7) (a : BitVec 7) (o : BitVec 7)
  /-- `LDX8`: Transposed load of 8 one-byte elements down a column -/
  | ldx8 (s : BitVec 3) (d : BitVec 7) (a : BitVec 7) (o : BitVec 7)
  /-- `LDX16`: Transposed load of 4 two-byte elements -/
  | ldx16 (s : BitVec 3) (d : BitVec 7) (a : BitVec 7) (o : BitVec 7)
  /-- `LDX32`: Transposed load of 2 four-byte elements -/
  | ldx32 (s : BitVec 3) (d : BitVec 7) (a : BitVec 7) (o : BitVec 7)
  /-- `ST8`: Stores 1 byte, combining its stamp into the granule -/
  | st8 (d : BitVec 7) (a : BitVec 7) (o : BitVec 7)
  /-- `ST16`: Stores 2 bytes -/
  | st16 (d : BitVec 7) (a : BitVec 7) (o : BitVec 7)
  /-- `ST32`: Stores 4 bytes -/
  | st32 (d : BitVec 7) (a : BitVec 7) (o : BitVec 7)
  /-- `ST64`: Stores 8 bytes -/
  | st64 (d : BitVec 7) (a : BitVec 7) (o : BitVec 7)
  /-- `ST128`: Stores 16 bytes from a pair -/
  | st128 (d : BitVec 7) (a : BitVec 7) (o : BitVec 7)
  /-- `STG64`: Stores 8 bytes and replaces the granule stamp -/
  | stg64 (d : BitVec 7) (a : BitVec 7) (o : BitVec 7)
  /-- `STG128`: Stores 16 bytes and replaces the granule stamp -/
  | stg128 (d : BitVec 7) (a : BitVec 7) (o : BitVec 7)
  /-- `PREF`: Hints a line into the cluster L1 -/
  | pref (a : BitVec 7) (o : BitVec 7)
  /-- `LDS8`: Scratchpad load of 1 byte -/
  | lds8 (s : BitVec 3) (d : BitVec 7) (a : BitVec 7) (o : BitVec 7)
  /-- `LDS16`: Scratchpad load of 2 bytes -/
  | lds16 (s : BitVec 3) (d : BitVec 7) (a : BitVec 7) (o : BitVec 7)
  /-- `LDS32`: Scratchpad load of 4 bytes -/
  | lds32 (s : BitVec 3) (d : BitVec 7) (a : BitVec 7) (o : BitVec 7)
  /-- `LDS64`: Scratchpad load of 8 bytes -/
  | lds64 (s : BitVec 3) (d : BitVec 7) (a : BitVec 7) (o : BitVec 7)
  /-- `LDS128`: Scratchpad load of 16 bytes with the word's tag -/
  | lds128 (s : BitVec 3) (d : BitVec 7) (a : BitVec 7) (o : BitVec 7)
  /-- `STS8`: Scratchpad store of 1 byte -/
  | sts8 (d : BitVec 7) (a : BitVec 7) (o : BitVec 7)
  /-- `STS16`: Scratchpad store of 2 bytes -/
  | sts16 (d : BitVec 7) (a : BitVec 7) (o : BitVec 7)
  /-- `STS32`: Scratchpad store of 4 bytes -/
  | sts32 (d : BitVec 7) (a : BitVec 7) (o : BitVec 7)
  /-- `STS64`: Scratchpad store of 8 bytes -/
  | sts64 (d : BitVec 7) (a : BitVec 7) (o : BitVec 7)
  /-- `STS128`: Scratchpad store of 16 bytes, setting the tag bit for a tagged pair -/
  | sts128 (d : BitVec 7) (a : BitVec 7) (o : BitVec 7)
  /-- `ATADD32`: Atomic 32-bit add returning the old value -/
  | atadd32 (t : BitVec 2) (d : BitVec 7) (a : BitVec 7) (b : BitVec 7)
  /-- `ATADD64`: Atomic 64-bit add -/
  | atadd64 (t : BitVec 2) (d : BitVec 7) (a : BitVec 7) (b : BitVec 7)
  /-- `ATMAXS32`: Atomic signed 32-bit maximum -/
  | atmaxs32 (t : BitVec 2) (d : BitVec 7) (a : BitVec 7) (b : BitVec 7)
  /-- `ATMAXN32`: Atomic natural 32-bit maximum -/
  | atmaxn32 (t : BitVec 2) (d : BitVec 7) (a : BitVec 7) (b : BitVec 7)
  /-- `ATMINS32`: Atomic signed 32-bit minimum -/
  | atmins32 (t : BitVec 2) (d : BitVec 7) (a : BitVec 7) (b : BitVec 7)
  /-- `ATMINN32`: Atomic natural 32-bit minimum -/
  | atminn32 (t : BitVec 2) (d : BitVec 7) (a : BitVec 7) (b : BitVec 7)
  /-- `ATOR64`: Atomic 64-bit OR -/
  | ator64 (t : BitVec 2) (d : BitVec 7) (a : BitVec 7) (b : BitVec 7)
  /-- `ATAND64`: Atomic 64-bit AND -/
  | atand64 (t : BitVec 2) (d : BitVec 7) (a : BitVec 7) (b : BitVec 7)
  /-- `ATXOR64`: Atomic 64-bit XOR -/
  | atxor64 (t : BitVec 2) (d : BitVec 7) (a : BitVec 7) (b : BitVec 7)
  /-- `ATXCH64`: Atomic 64-bit exchange -/
  | atxch64 (t : BitVec 2) (d : BitVec 7) (a : BitVec 7) (b : BitVec 7)
  /-- `ATCAS64`: Atomic 64-bit compare and swap -/
  | atcas64 (t : BitVec 2) (d : BitVec 7) (a : BitVec 7) (b : BitVec 7)
  /-- `FATADD32`: Atomic F32 add rounded RNE -/
  | fatadd32 (t : BitVec 2) (d : BitVec 7) (a : BitVec 7) (b : BitVec 7)
  /-- `FATMAX32`: Atomic F32 maximum -/
  | fatmax32 (t : BitVec 2) (d : BitVec 7) (a : BitVec 7) (b : BitVec 7)
  /-- `WAITV`: Holds the thread until a memory word satisfies a condition -/
  | waitv (t : BitVec 3) (d : BitVec 7) (a : BitVec 7) (b : BitVec 7)
  /-- `CAPINC`: Moves a capability's cursor, keeping the tag only within range -/
  | capinc (d : BitVec 7) (a : BitVec 7) (b : BitVec 7)
  /-- `CAPNRW`: Narrows a capability's range -/
  | capnrw (d : BitVec 7) (a : BitVec 7) (b : BitVec 7)
  /-- `CAPPERM`: Clears capability permissions -/
  | capperm (d : BitVec 7) (a : BitVec 7) (b : BitVec 7)
  /-- `CAPGET`: Writes the capability of a task region, tagged -/
  | capget (d : BitVec 7) (k : BitVec 4)
  /-- `CAPCHK`: Tests a capability against tag, permission and bounds -/
  | capchk (d : BitVec 7) (a : BitVec 7) (b : BitVec 7)
  /-- `CAPSCR`: Builds a capability over scratchpad or kernel code -/
  | capscr (d : BitVec 7) (a : BitVec 7) (b : BitVec 7)
  /-- `CAPMOV`: Copies a pair with its tag and stamps -/
  | capmov (d : BitVec 7) (a : BitVec 7)
  /-- `BCOPY`: Creates an engine thread copying a shaped block -/
  | bcopy (a : BitVec 7)
  /-- `BFILL`: Creates an engine thread filling a block with a pattern -/
  | bfill (a : BitVec 7)
  /-- `BPUT`: Sends local bytes to peer memory -/
  | bput (a : BitVec 7)
  /-- `BGET`: Reads peer memory into a local destination -/
  | bget (a : BitVec 7)
  /-- `BATOM_ADD`: Remote 64-bit atomic add at the peer -/
  | batomAdd (d : BitVec 7) (a : BitVec 7)
  /-- `BATOM_OR`: Remote 64-bit atomic OR -/
  | batomOr (d : BitVec 7) (a : BitVec 7)
  /-- `BATOM_XCH`: Remote 64-bit atomic exchange -/
  | batomXch (d : BitVec 7) (a : BitVec 7)
  /-- `BATOM_CAS`: Remote 64-bit compare and swap -/
  | batomCas (d : BitVec 7) (a : BitVec 7)
  /-- `BATOM_MAXN`: Remote natural 64-bit maximum -/
  | batomMaxn (d : BitVec 7) (a : BitVec 7)
  /-- `BATOM_FADD`: Remote F32 atomic add -/
  | batomFadd (d : BitVec 7) (a : BitVec 7)
  /-- `ACTR`: Arms an arrival counter by subtracting expected bytes -/
  | actr (d : BitVec 7) (a : BitVec 7) (b : BitVec 7)
  /-- `WAITC`: Holds the thread while an arrival counter is below a target -/
  | waitc (a : BitVec 7) (b : BitVec 7)
  /-- `ACTRD_BIND`: Binds a delivery tag to a scratchpad counter -/
  | actrdBind (a : BitVec 7) (b : BitVec 7)
  /-- `ACTRD_UNBIND`: Unbinds a delivery tag held by the crew -/
  | actrdUnbind (a : BitVec 7) (b : BitVec 7)
  /-- `SEND`: Reads, checks and stages one record for an egress port -/
  | send (d : BitVec 7) (a : BitVec 7) (k : BitVec 6)
  /-- `LEASEQ`: Reads the fabric channel counts to a peer -/
  | leaseq (d : BitVec 7) (k : BitVec 6)
  /-- `MLOAD`: Team-collective load of a weight tile into the shadow plane -/
  | mload (a : BitVec 7)
  /-- `MSTREAM`: Team-collective stream of activation rows through the active plane into a tile -/
  | mstream (a : BitVec 7)
  /-- `MZERO`: Makes a live tile with zero elements -/
  | mzero (a : BitVec 7)
  /-- `MREAD`: Reads accumulator bytes into a register -/
  | mread (t : BitVec 3) (d : BitVec 7) (a : BitVec 7)
  /-- `MSCALE`: Rescales a live tile to a new exponent -/
  | mscale (a : BitVec 7)
  /-- `MNORM`: Adds a tile's squared norms to two cells -/
  | mnorm (a : BitVec 7)
  /-- `MDRAIN`: Applies the optimizer update to weights in memory -/
  | mdrain (a : BitVec 7) (z : BitVec 1)
  /-- `MSTAT`: Reads, and optionally clears, the crew's matrix status -/
  | mstat (c : BitVec 1) (d : BitVec 7)
  /-- `BAR`: Arrives at a crew barrier and holds until release -/
  | bar (k : BitVec 4)
  /-- `SBAR`: Barrier over the launch's crews on a scope group -/
  | sbar (k : BitVec 5)
  /-- `ARRIVE`: Records arrival at a crew barrier and returns the generation -/
  | arrive (d : BitVec 7) (k : BitVec 4)
  /-- `AWAIT`: Holds while a crew barrier's generation equals a token -/
  | await (a : BitVec 7) (k : BitVec 4)
  /-- `MOVS`: Reads a special register, TIMELESS -/
  | movs (d : BitVec 7) (k : BitVec 7)
  /-- `MOVSW`: Writes a special register -/
  | movsw (a : BitVec 7) (k : BitVec 7)
  /-- `STAMPR`: Copies A's stamp into D as data -/
  | stampr (d : BitVec 7) (a : BitVec 7)
  /-- `AGEJOIN`: Gives A's value a stamp no younger than A's or B's tick -/
  | agejoin (d : BitVec 7) (a : BitVec 7) (b : BitVec 7)
  /-- `AGE`: Gives the class and age of A's stamp -/
  | age (d : BitVec 7) (a : BitVec 7)
  /-- `AGECHK`: Checks A's stamp against an age bound -/
  | agechk (s : BitVec 3) (a : BitVec 7)
  /-- `PAGEDONE_RESUME`: Frees a pager record and wakes its joined threads and packets -/
  | pagedoneResume (a : BitVec 7) (b : BitVec 7)
  /-- `PAGEDONE_MAP`: Turns the pager-held leaf into a leaf, frees the record and wakes joiners -/
  | pagedoneMap (a : BitVec 7) (b : BitVec 7)
  /-- `PAGEDONE_FAIL`: Frees the record and makes joined tasks take code 0x22 -/
  | pagedoneFail (a : BitVec 7) (b : BitVec 7)
  /-- `CSRR`: Reads a control and status register -/
  | csrr (t : BitVec 3) (d : BitVec 7) (k : BitVec 7)
  /-- `CSRW`: Writes a control and status register -/
  | csrw (t : BitVec 3) (a : BitVec 7) (k : BitVec 7)
  /-- `STAMPSET_REG`: Sets a register's stamp -/
  | stampsetReg (d : BitVec 7) (a : BitVec 7) (b : BitVec 7)
  /-- `STAMPSET_GRANULE`: Sets a memory granule's stamp -/
  | stampsetGranule (a : BitVec 7) (b : BitVec 7)
  /-- `CMAPW`: Reads and writes a core map entry -/
  | cmapw (d : BitVec 7) (a : BitVec 7) (b : BitVec 7)
  /-- `TLBINV`: Invalidates translations and waits for their accesses -/
  | tlbinv (a : BitVec 7) (b : BitVec 7)
  /-- `HALTC_HALT`: Halts a context: pre-empt, save, admit nothing -/
  | haltcHalt (a : BitVec 7) (b : BitVec 7)
  /-- `HALTC_RESUME`: Resumes a halted or debug-halted context -/
  | haltcResume (a : BitVec 7) (b : BitVec 7)
  /-- `HALTC_DEBUG_HALT`: Stops every thread of a context in place for debug -/
  | haltcDebugHalt (a : BitVec 7) (b : BitVec 7)
  /-- `DBGSTEP`: Steps one bundle seeded by a focus thread in a debug halt -/
  | dbgstep (a : BitVec 7)
  /-- `TBUF`: Defines a logical buffer with a fresh version -/
  | tbuf (sl : TaskSlot)
  /-- `TDROP`: Makes a logical buffer undefined -/
  | tdrop (sl : TaskSlot)
  /-- `TLAUNCH`: Starts one launch of a kernel from a launch packet -/
  | tlaunch (sl : TaskSlot)
  /-- `TCOPY`: Copies bytes between buffers, host memory and ports -/
  | tcopy (sl : TaskSlot)
  /-- `TFILL`: Fills a region with a 32-bit pattern -/
  | tfill (sl : TaskSlot)
  /-- `TSTAMP`: Sets the granules of a region to VACANT -/
  | tstamp (sl : TaskSlot)
  /-- `TBR`: Branches unconditionally in a procedure -/
  | tbr (sl : TaskSlot)
  /-- `TBRC`: Branches in a procedure on a cell condition -/
  | tbrc (sl : TaskSlot)
  /-- `TCALL`: Enters a procedure of slots -/
  | tcall (sl : TaskSlot)
  /-- `TRET_TASK`: Returns from a procedure to the slot after its TCALL -/
  | tretTask (sl : TaskSlot)
  /-- `TWAITV`: Waits until a cell satisfies a condition -/
  | twaitv (sl : TaskSlot)
  /-- `TSIG`: Writes a host-visible signal cell at retirement, optionally with MSI-X -/
  | tsig (sl : TaskSlot)
  /-- `TMARK`: Writes device time at retirement and a tag to a cell -/
  | tmark (sl : TaskSlot)
  /-- `TFENCE`: Completes when all older tasks complete or retire -/
  | tfence (sl : TaskSlot)
  /-- `TLEASE`: Sets the context's lease target towards a peer -/
  | tlease (sl : TaskSlot)
  /-- `TROTATE`: Loads a rotation table for the package -/
  | trotate (sl : TaskSlot)
  /-- `TPORT`: Sets a context port's kind, bound and descriptor -/
  | tport (sl : TaskSlot)
  /-- `TSCOPE`: Writes a scope group from a core bitmap -/
  | tscope (sl : TaskSlot)
  /-- `TSETK`: Sets a stream register from B or a cell -/
  | tsetk (sl : TaskSlot)
  /-- `TADDK`: Adds B to a stream register -/
  | taddk (sl : TaskSlot)
  /-- `TBRK`: Decrements a nonzero stream register and branches -/
  | tbrk (sl : TaskSlot)
  /-- `TPAGER_REGISTER`: Registers a pager of a target context served by another -/
  | tpagerRegister (sl : TaskSlot)
  /-- `TPAGER_UNREGISTER`: Unregisters a pager -/
  | tpagerUnregister (sl : TaskSlot)
  /-- `TCTX_CREATE`: Creates a context from a descriptor -/
  | tctxCreate (sl : TaskSlot)
  /-- `TCTX_DESTROY`: Stops a context and discards its state -/
  | tctxDestroy (sl : TaskSlot)
  /-- `TCTX_HALT`: Halts a context as HALTC halt -/
  | tctxHalt (sl : TaskSlot)
  /-- `TCTX_RESUME`: Resumes a halted or Faulted context at its retired state -/
  | tctxResume (sl : TaskSlot)
  /-- `TCTX_SET_PRIORITY`: Sets a context's priority level -/
  | tctxSetPriority (sl : TaskSlot)
  /-- `TNOP`: Task with no effect -/
  | tnop (sl : TaskSlot)
  /-- `LONG_LATENCY_COMPLETE`: A class-L operation completes for a thread, writes its result and lowers its flag count -/
  | longLatencyComplete (cr tid op : Nat)
  /-- `ENGINE_PACKET`: An engine thread writes one packet and makes its counter add -/
  | enginePacket (e p : Nat)
  /-- `ENGINE_COMPLETE`: An engine thread completes and lowers its issuing instruction's flag -/
  | engineComplete (e : Nat)
  /-- `SLEEP_END`: A sleep's cycle count expires and the thread returns to Waiting or Ready -/
  | sleepEnd (cr tid : Nat)
  /-- `SLOT_ACCEPT`: The sequencer, woken by a write, decodes the expected slot into a window entry -/
  | slotAccept (c : Nat)
  /-- `TASK_ISSUE`: A task whose conditions hold issues -/
  | taskIssue (c t : Nat)
  /-- `TASK_RETIRE`: The oldest complete task retires, releasing staged effects and freeing versions -/
  | taskRetire (c : Nat)
  /-- `COHORT_ADMIT`: The die arbiter admits the first waiting item that fits -/
  | cohortAdmit (die : Nat)
  /-- `COHORT_START`: An admitted cohort's threads become eligible after stagger and island spacing -/
  | cohortStart (h : Nat)
  /-- `CREW_RELEASE`: A crew whose threads exited and operations completed releases its resources -/
  | crewRelease (cr : Nat)
  /-- `RENDEZVOUS_STALL`: The stall timer reaches rzlimit and every joined thread takes a rendezvous-stall trap -/
  | rendezvousStall (cr rid : Nat)
  /-- `WAITV_REREAD`: A write to the watched granule or loss of the line makes a held WAITV read again -/
  | waitvReread (cr tid : Nat)
  /-- `WAITC_REREAD`: A write to the counter's granule makes a held WAITC read again -/
  | waitcReread (cr tid : Nat)
  /-- `MATRIX_STEP`: The matrix engine takes one step of the next crew's queued command -/
  | matrixStep (cluster : Nat)
  /-- `UPDATE_STEP`: The update unit processes one tile of the next crew's command -/
  | updateStep (cluster : Nat)
  /-- `TWAITV_REREAD`: A write to the cell's granule makes a TWAITV read again -/
  | twaitvReread (c t : Nat)
  /-- `WAIT_TIMEOUT`: Device time passes t0 + A and the TWAITV raises a wait-timeout fault -/
  | waitTimeout (c t : Nat)
  /-- `POOL_ENTRY_TAKE`: The device takes the next valid pool ring entry onto a free list -/
  | poolEntryTake (c : Nat)
  /-- `TASK_FAULT`: A held fault of the oldest task squashes it and younger tasks and is delivered -/
  | taskFault (c : Nat)
  /-- `FRESHNESS_FAULT`: An escalated freshness fault of the oldest task squashes, re-fires producers and replays -/
  | freshnessFault (c : Nat)
  /-- `EGRESS_RELEASE`: A staged egress record is written to its ring once space is available -/
  | egressRelease (c t : Nat)
  /-- `INGRESS_CONSUME`: An ingress copy consumes ring records once enough bytes are present -/
  | ingressConsume (c t : Nat)
  /-- `UNIT_STOP_ACK`: A unit stopping a context reaches its boundary and acknowledges -/
  | unitStopAck (c : Nat) (u : StopUnit)
  /-- `CONTEXT_RESTORE`: A pre-empted context's cohorts all fit and are restored in one step -/
  | contextRestore (c : Nat)
  /-- `ISLAND_POWER_DOWN`: An island idle for IDLE ticks powers down -/
  | islandPowerDown (i : Nat)
  /-- `ISLAND_POWER_UP`: A powered-down island with an admitted cohort comes up -/
  | islandPowerUp (i : Nat)
  /-- `PAGER_RECORD_WRITE`: A translation fault writes a pager record once its position is free -/
  | pagerRecordWrite (c p : Nat)
  /-- `STAMP_SCAN_VISIT`: A rotating scan visits a stamp and clamps it if older than 2^28 -/
  | stampScanVisit (l : Loc)
  /-- `EFT_PATROL_VISIT`: The Eft patrols a stack line, corrects ECC and clamps stamps -/
  | eftPatrolVisit (stack line : Nat)
  /-- `CORRECTABLE_ERROR`: A correctable error is corrected, counted and logged -/
  | correctableError (u : ErrUnit) (pa : Nat)
  /-- `UNCORRECTABLE_DATA_ERROR`: An uncorrectable data error poisons the granule and is logged -/
  | uncorrectableDataError (l : Loc) (u : ErrUnit)
  /-- `CORE_FAULT`: A core fault stops the core and each crew takes the first authorised containment action -/
  | coreFault (core : Nat)
  /-- `CORE_RESET`: Reset of one core; its crews are handled under containment -/
  | coreReset (core : Nat)
  /-- `MATRIX_UNIT_RESET`: Reset of a matrix engine or update unit; its crews are handled from task replay -/
  | matrixUnitReset (cluster : Nat)
  /-- `COPY_ENGINE_RESET`: Reset of a copy engine or fabric sender; the issuing task is handled from task replay -/
  | copyEngineReset (e : Nat)
  /-- `WINDOW_LOGIC_RESET`: Reset of a die's window logic; contexts complete their journals and resume -/
  | windowLogicReset (die : Nat)
  /-- `MEMRD`: A host MemRd with MetaValue Invalid over CXL.mem is served as one host event -/
  | memrd (pa : Nat)
  /-- `MEMRD_CACHING`: A host MemRd with MetaValue Any or Shared, flipping a device-bias page to host bias -/
  | memrdCaching (pa : Nat)
  /-- `MEMWR`: A host MemWr writes a line, stamping and clearing poison of whole granules -/
  | memwr (pa : Nat) (data : BitVec 512)
  /-- `MEMWRPTL`: A host partial write combines its stamp into partly covered granules -/
  | memwrptl (pa : Nat) (data : BitVec 512) (mask : BitVec 64)
  /-- `UNSUPPORTED_REQUEST`: A host request with an unsupported opcode gets an unsupported-request completion -/
  | unsupportedRequest (code pa : Nat)
  /-- `BIRSP`: A host response to a back-invalidate snoop arrives, with any data as a whole-line host write -/
  | birsp (pa : Nat) (data : Option (BitVec 512))
  /-- `HOST_SNOOP`: An H2D snoop removes a device-cached host line, waking held WAITVs -/
  | hostSnoop (pa : Nat)
  /-- `HOST_LINE_FILL`: A host line fills a device cache over CXL.cache and is stamped at arrival -/
  | hostLineFill (pa : Nat) (data : BitVec 512)
  /-- `GET_CERTIFICATE`: SPDM request returning the device certificate chain -/
  | getCertificate (off len : Nat)
  /-- `CHALLENGE`: SPDM challenge answered with an ECDSA P-384 signature -/
  | challenge (nonce : BitVec 256)
  /-- `TICKCTL_WRITE`: Writes the tick exponent and starts device time with RUN -/
  | tickctlWrite (v : Word)
  /-- `CTX0`: Host write that creates context 0 with PRIV in partition 0 -/
  | ctx0 (v : Word)
  /-- `BIASCMD_TO_HOST`: Commands a flip of a page to host bias, writing back modified lines -/
  | biascmdToHost (page : Nat)
  /-- `BIASCMD_TO_DEVICE`: Commands a flip of a page to device bias, snooping its 64 lines -/
  | biascmdToDevice (page : Nat)
  /-- `FLIP_COMPLETE`: A flip's write-backs or snoops finish; the bias bit is written, BUSY clears and the vector is sent -/
  | flipComplete (page : Nat)
  /-- `LOAD_FIRMWARE_IMAGE`: Mailbox command loading an Eft firmware image -/
  | loadFirmwareImage (stack : Nat)
  /-- `START_FIRMWARE`: Mailbox command starting the Eft firmware -/
  | startFirmware (stack : Nat)
  /-- `READ_FIRMWARE_VERSION`: Mailbox command reading the firmware version -/
  | readFirmwareVersion (stack : Nat)
  /-- `READ_COUNTS`: Mailbox command reading the stack's counts -/
  | readCounts (stack : Nat)
  /-- `HOST_REGISTER_WRITE`: A host write to a management register with no row of its own, or a violation -/
  | hostRegisterWrite (off : Nat) (v : Word)
  /-- `STACK_READ`: The base die reads a 64-byte line with its stamps -/
  | stackRead (stack tag : Nat)
  /-- `STACK_WRITE`: The base die writes the masked granules with their stamps -/
  | stackWrite (stack tag : Nat)
  /-- `STACK_STAMP_READ`: The base die returns a line's two stamps -/
  | stackStampRead (stack tag : Nat)
  /-- `STACK_MAILBOX`: A mailbox request on the stack link -/
  | stackMailbox (stack tag : Nat)
  /-- `TIME_BEAT`: The Eft takes a time beat as its now -/
  | timeBeat (stack : Nat)
  /-- `STACK_RESPONSE`: A stack response arrives with status, poison and syndrome -/
  | stackResponse (stack tag : Nat)
  /-- `FLIT_RECEIVE`: A flit arrives and is checked by CRC and tag, passed on in order or discarded -/
  | flitReceive (peer : Nat) (flit : PlaneFlit)
  /-- `REPLAY_REQUEST`: A control flit naming a failed flit makes the sender resend from it -/
  | replayRequest (peer n : Nat)
  /-- `LINK_DOWN`: REPLIM consecutive failed replays take the link down -/
  | linkDown (peer : Nat)
  /-- `REKEY_INTERRUPT`: A link counter reaches 2^48 − 2^20 and raises the rekey interrupt -/
  | rekeyInterrupt (peer : Nat) (rx : Bool)
  /-- `DIRECTION_STALL`: Flit 2^48 − 1 is sent and the direction stalls until the next key -/
  | directionStall (peer : Nat)
  /-- `TIME_SYNC`: Every TSYNC ticks a package exchanges timestamps with the master and slews -/
  | timeSync (m : TimeMsg)
  /-- `WRITE_PACKET`: A fabric write packet is checked and written at the receiver with counter add -/
  | writePacket (n : Nat)
  /-- `WRITE_ACKNOWLEDGEMENT`: A write acknowledgement returns and its local add is made -/
  | writeAcknowledgement (n : Nat)
  /-- `READ_REQUEST`: A fabric read request is checked and answered with read data -/
  | readRequest (n : Nat)
  /-- `READ_DATA`: Read data arrives and is written locally with its stamps -/
  | readData (n : Nat)
  /-- `ATOMIC_REQUEST`: A fabric atomic is performed at the peer's home LLC slice -/
  | atomicRequest (n : Nat)
  /-- `ATOMIC_RESULT`: An atomic result returns the old value to D -/
  | atomicResult (n : Nat)
  /-- `EGRESS_RECORD`: An egress record arrives at a peer's kind-4 port -/
  | egressRecord (n : Nat)
  /-- `REJECT`: A reject returns and the issuing task takes a bulk fault -/
  | reject (n : Nat)
  /-- `LEASE_REQUEST`: A receiver grants planes with free drops and queues the remainder -/
  | leaseRequest (peer : Nat) (planes : BitVec 64) (want tick : Nat)
  /-- `LEASE_GRANT`: A grant arrives; the sender activates granted planes and frees other reservations -/
  | leaseGrant (peer : Nat) (planes : BitVec 64)
  /-- `DROP_SLOT_OFFER`: A freed drop slot is offered to queued requests in order -/
  | dropSlotOffer (plane : Nat)
  /-- `REVOCATION`: A request waiting STARVE ticks makes the receiver revoke one channel -/
  | revocation (peer : Nat)
  /-- `LEASE_RELEASE`: A sender holding more than its target releases excess channels -/
  | leaseRelease (peer : Nat)
  /-- `CHANNEL_SET_CHANGE`: A channel joins or leaves its link at the agreed flit number -/
  | channelSetChange (peer plane : Nat) (tx join : Bool) (n : Nat)
  /-- `DRAIN_END`: A draining channel's last flit is sent and it begins retuning -/
  | drainEnd (peer plane : Nat) (tx : Bool)
  /-- `RETUNE_SETTLED`: Retuning settles and the slot becomes ACTIVE or FREE -/
  | retuneSettled (peer plane : Nat) (tx : Bool)
  /-- `TABLEID_CONFIRM`: A peer's TABLEID and counts arrive and confirm the rotation -/
  | tableidConfirm (peer : Nat) (tableId : BitVec 32) (txn rxn : List Nat)
  /-- `UNASSIGNED_OPCODE`: A thread issues an instruction word whose OP is unassigned and takes an illegal-instruction trap -/
  | unassignedOpcode (w : BitVec 32)
  /-- `LINK_UP`: A fabric link comes up once both directions are keyed and its base channel is tuned, restoring the peer's presence in the domain -/
  | linkUp (peer : Nat)
  /-- `UNLISTED_OFFSET_READ`: A host read of a BAR0 offset that the map does not list returns zero and is logged as a host-side violation -/
  | unlistedOffsetRead (off : Nat)
  /-- `NOP`: Does nothing for one issue -/
  | nop
  /-- `RET`: Pops a return address from the scratchpad stack and jumps to it -/
  | ret
  /-- `EXIT`: Ends the thread, leaving barriers and counting as exited for rendezvous -/
  | exit
  /-- `FENCE`: Sets a flag that falls when all earlier accesses have completed -/
  | fence
  /-- `MSWAP`: Exchanges the active and shadow planes at its queue place -/
  | mswap
  /-- `TRET`: Returns from a trap handler to the saved PC -/
  | tret
  /-- `DEVICE_TICK`: Device time advances by one tick and a time beat goes to each stack -/
  | deviceTick
  /-- `HOST_LINK_RESET`: Reset of the host-link controller, recovered through the journal -/
  | hostLinkReset
  /-- `COLD_RESET`: Cold reset puts every register at its reset value -/
  | coldReset
  /-- `GET_MEASUREMENTS`: SPDM request returning the boot, Eft, version and feature measurements -/
  | getMeasurements
  /-- `BOOTST_GO`: Host sets GO: the device verifies the boot image, powers islands and starts stacks -/
  | bootstGo
  /-- `FEATCTL_LOCK`: Setting LOCK fixes the agreed feature vector -/
  | featctlLock
  /-- `LKGO`: Installs a link key with its epoch for the selected direction -/
  | lkgo
  /-- `GUARD_START`: A rotation slot's guard begins and leasable slots retune -/
  | guardStart
  /-- `DATA_WINDOW_START`: A data window opens and fitting packets start -/
  | dataWindowStart
  /-- `DATA_WINDOW_END`: A data window ends; unacknowledged flits wait for the next window -/
  | dataWindowEnd
  deriving DecidableEq, Repr

end Sys2Proof
end

