-- ==== Sys2Proof/WellFormed.lean ====
section
/-!
DEFINITION. Which instructions are well formed: the checks of spec/05_kelac_encoding.md R146, R149, R151 and the static part
of spec/03_task_stream.md R69 to R71 with the MBZ fields of each task row. What depends on the state is in the meanings.
-/

namespace Sys2Proof

/-- Why an instruction is ill formed. -/
inductive IllFormed where
  /-- A TY value that R149 reserves for the instruction. -/
  | reservedType
  /-- An odd pair field or group, or the pair field 126 (R146, R251). -/
  | oddPair
  /-- An immediate outside the limit of its row (R150). -/
  | immediateLimit
  /-- A special register or CSR number that is unassigned, or read-only where it is written (R155, R320). -/
  | reservedNumber
  /-- A flag of a task slot that its opcode does not define, or both predicates (R69). -/
  | taskFlags
  /-- A nonzero MBZ field or an out-of-range operand of a task slot. -/
  | taskOperand
  deriving DecidableEq, Repr

/-- An odd pair field, or the field 126 (R146). -/
def oddPair (v : RegField) : Bool := v.toNat % 2 == 1 || v.toNat == 126

/-- Special registers that `MOVS` reads (R155). -/
def sregReadable (n : Nat) : Bool := n ≤ 19 || (33 ≤ n && n ≤ 39)

/-- Special registers that `MOVSW` writes (R155). -/
def sregWritable (n : Nat) : Bool := (11 ≤ n && n ≤ 15) || n == 17 || n == 19 || (33 ≤ n && n ≤ 39)

/-- CSRs that exist (R320). -/
def csrReadable (n : Nat) : Bool :=
  n ≤ 7 || n == 0x10 || (0x20 ≤ n && n ≤ 0x24) || (0x30 ≤ n && n ≤ 0x33) || (0x40 ≤ n && n ≤ 0x42) || n == 0x100

/-- CSRs that are not read-only (R320, R321, R323). DEDUCED (log 11): `dbgwho` and `vdbgwho` carry no access code and are
written by hardware only. -/
def csrWritable (n : Nat) : Bool :=
  n == 1 || (4 ≤ n && n ≤ 6) || n == 0x10 || n == 0x20 || n == 0x24 || n == 0x30 || n == 0x40 || n == 0x41 || n == 0x100

/-- The first failing condition of a list. -/
def firstFailure : List (Bool × IllFormed) → Option IllFormed
  | [] => none
  | (bad, why) :: rest => if bad then some why else firstFailure rest

/-- The flags of a task slot are defined for its opcode (R69): `bit3` and `bit4` say which instruction flags it has,
`refire` and `cond` whether it has those fields. -/
def TaskSlot.flagsOk (sl : TaskSlot) (bit3 bit4 refire cond : Bool) : Bool :=
  let f := sl.flags.toNat
  (f / 64 == 0)
    && (if cond then bits f 5 3 ≤ 5 else !bit f 5 && (bit4 || !bit f 4) && (bit3 || !bit f 3))
    && (refire || !bit f 2)
    && !(bit f 0 && bit f 1)
    && (bit f 0 || bit f 1 || sl.d == 0)

/-- The check of one task row: its flags, then its operand fields. -/
def TaskSlot.illFormed (sl : TaskSlot) (bit3 bit4 refire cond operandsBad : Bool) : Option IllFormed :=
  firstFailure [(!sl.flagsOk bit3 bit4 refire cond, .taskFlags), (operandsBad, .taskOperand)]

/-- Why an instruction is ill formed, or none. Events are inputs of the machine and are always well formed. DESIGN CHOICE (log 56):
field 126 as the group base of `MLOAD`, `MNORM` or `MDRAIN` is no pair field of R146, so it is no ground here; its group passes the
last register, which is the register-range trap of R251. -/
def Instr.illFormed : Instr → Option IllFormed
  | .jmpr a => firstFailure [(oddPair a, .oddPair)]
  | .shli t _ _ k => firstFailure [(decide (64 / 2 ^ (t.toNat % 4) ≤ k.toNat), .immediateLimit)]
  | .shri t _ _ k => firstFailure [(decide (64 / 2 ^ (t.toNat % 4) ≤ k.toNat), .immediateLimit)]
  | .srai t _ _ k => firstFailure [(decide (64 / 2 ^ (t.toNat % 4) ≤ k.toNat), .immediateLimit)]
  | .lea d a _ => firstFailure [(oddPair d, .oddPair), (oddPair a, .oddPair)]
  | .fadd t _ _ _ => firstFailure [(decide (5 < t.toNat), .reservedType)]
  | .fsub t _ _ _ => firstFailure [(decide (5 < t.toNat), .reservedType)]
  | .fmul t _ _ _ => firstFailure [(decide (5 < t.toNat), .reservedType)]
  | .ffma t _ _ _ _ => firstFailure [(decide (5 < t.toNat), .reservedType)]
  | .fmin t _ _ _ => firstFailure [(decide (5 < t.toNat), .reservedType)]
  | .fmax t _ _ _ => firstFailure [(decide (5 < t.toNat), .reservedType)]
  | .fabs t _ _ => firstFailure [(decide (5 < t.toNat), .reservedType)]
  | .fneg t _ _ => firstFailure [(decide (5 < t.toNat), .reservedType)]
  | .fcmpeq t _ _ _ => firstFailure [(decide (5 < t.toNat), .reservedType)]
  | .fcmplt t _ _ _ => firstFailure [(decide (5 < t.toNat), .reservedType)]
  | .fcmple t _ _ _ => firstFailure [(decide (5 < t.toNat), .reservedType)]
  | .fcmpun t _ _ _ => firstFailure [(decide (5 < t.toNat), .reservedType)]
  | .frcp t _ _ => firstFailure [(decide (5 < t.toNat), .reservedType)]
  | .frsq t _ _ => firstFailure [(decide (5 < t.toNat), .reservedType)]
  | .fsqrt t _ _ => firstFailure [(decide (5 < t.toNat), .reservedType)]
  | .fexp2 t _ _ => firstFailure [(decide (5 < t.toNat), .reservedType)]
  | .flog2 t _ _ => firstFailure [(decide (5 < t.toNat), .reservedType)]
  | .fsin t _ _ => firstFailure [(decide (5 < t.toNat), .reservedType)]
  | .fcos t _ _ => firstFailure [(decide (5 < t.toNat), .reservedType)]
  | .fscale t _ _ _ => firstFailure [(decide (5 < t.toNat), .reservedType)]
  | .fclass t _ _ => firstFailure [(decide (5 < t.toNat), .reservedType)]
  | .fdot t _ _ _ => firstFailure [(decide (5 < t.toNat), .reservedType)]
  | .fsum t _ _ => firstFailure [(decide (5 < t.toNat), .reservedType)]
  | .fcvt t _ _ k => firstFailure [(decide (5 < t.toNat), .reservedType), (decide (5 < k.toNat), .immediateLimit)]
  | .fcvtam t _ _ k => firstFailure [(decide (5 < t.toNat), .reservedType), (decide (5 < k.toNat), .immediateLimit)]
  | .f2i t _ _ _ => firstFailure [(decide (5 < t.toNat), .reservedType)]
  | .i2f t _ _ _ => firstFailure [(decide (5 < t.toNat), .reservedType)]
  | .qpack t _ _ _ => firstFailure [(decide (2 < t.toNat), .reservedType)]
  | .qunpk t _ _ _ => firstFailure [(decide (2 < t.toNat), .reservedType)]
  | .fpack t _ _ _ => firstFailure [(decide (t.toNat = 3 ∨ 5 < t.toNat), .reservedType)]
  | .funpk t _ _ => firstFailure [(decide (t.toNat = 3 ∨ 5 < t.toNat), .reservedType)]
  | .fredadd t _ _ => firstFailure [(decide (5 < t.toNat), .reservedType)]
  | .fscanadd t _ _ => firstFailure [(decide (5 < t.toNat), .reservedType)]
  | .ld8 _ _ a _ => firstFailure [(oddPair a, .oddPair)]
  | .ld16 _ _ a _ => firstFailure [(oddPair a, .oddPair)]
  | .ld32 _ _ a _ => firstFailure [(oddPair a, .oddPair)]
  | .ld64 _ _ a _ => firstFailure [(oddPair a, .oddPair)]
  | .ld128 _ d a _ => firstFailure [(oddPair d, .oddPair), (oddPair a, .oddPair)]
  | .ldx8 _ _ a _ => firstFailure [(oddPair a, .oddPair)]
  | .ldx16 _ _ a _ => firstFailure [(oddPair a, .oddPair)]
  | .ldx32 _ _ a _ => firstFailure [(oddPair a, .oddPair)]
  | .st8 _ a _ => firstFailure [(oddPair a, .oddPair)]
  | .st16 _ a _ => firstFailure [(oddPair a, .oddPair)]
  | .st32 _ a _ => firstFailure [(oddPair a, .oddPair)]
  | .st64 _ a _ => firstFailure [(oddPair a, .oddPair)]
  | .st128 d a _ => firstFailure [(oddPair d, .oddPair), (oddPair a, .oddPair)]
  | .stg64 _ a _ => firstFailure [(oddPair a, .oddPair)]
  | .stg128 d a _ => firstFailure [(oddPair d, .oddPair), (oddPair a, .oddPair)]
  | .pref a _ => firstFailure [(oddPair a, .oddPair)]
  | .lds128 _ d _ _ => firstFailure [(oddPair d, .oddPair)]
  | .sts128 d _ _ => firstFailure [(oddPair d, .oddPair)]
  | .atadd32 _ _ a _ => firstFailure [(oddPair a, .oddPair)]
  | .atadd64 _ _ a _ => firstFailure [(oddPair a, .oddPair)]
  | .atmaxs32 _ _ a _ => firstFailure [(oddPair a, .oddPair)]
  | .atmaxn32 _ _ a _ => firstFailure [(oddPair a, .oddPair)]
  | .atmins32 _ _ a _ => firstFailure [(oddPair a, .oddPair)]
  | .atminn32 _ _ a _ => firstFailure [(oddPair a, .oddPair)]
  | .ator64 _ _ a _ => firstFailure [(oddPair a, .oddPair)]
  | .atand64 _ _ a _ => firstFailure [(oddPair a, .oddPair)]
  | .atxor64 _ _ a _ => firstFailure [(oddPair a, .oddPair)]
  | .atxch64 _ _ a _ => firstFailure [(oddPair a, .oddPair)]
  | .atcas64 _ _ a b => firstFailure [(oddPair a, .oddPair), (oddPair b, .oddPair)]
  | .fatadd32 _ _ a _ => firstFailure [(oddPair a, .oddPair)]
  | .fatmax32 _ _ a _ => firstFailure [(oddPair a, .oddPair)]
  | .waitv t _ a _ => firstFailure [(decide (5 < t.toNat), .reservedType), (oddPair a, .oddPair)]
  | .capinc d a _ => firstFailure [(oddPair d, .oddPair), (oddPair a, .oddPair)]
  | .capnrw d a _ => firstFailure [(oddPair d, .oddPair), (oddPair a, .oddPair)]
  | .capperm d a _ => firstFailure [(oddPair d, .oddPair), (oddPair a, .oddPair)]
  | .capget d _ => firstFailure [(oddPair d, .oddPair)]
  | .capchk _ a _ => firstFailure [(oddPair a, .oddPair)]
  | .capscr d _ _ => firstFailure [(oddPair d, .oddPair)]
  | .capmov d a => firstFailure [(oddPair d, .oddPair), (oddPair a, .oddPair)]
  | .bcopy a => firstFailure [(decide (a.toNat % 2 = 1), .oddPair)]
  | .bfill a => firstFailure [(decide (a.toNat % 2 = 1), .oddPair)]
  | .bput a => firstFailure [(decide (a.toNat % 2 = 1), .oddPair)]
  | .bget a => firstFailure [(decide (a.toNat % 2 = 1), .oddPair)]
  | .batomAdd _ a => firstFailure [(decide (a.toNat % 2 = 1), .oddPair)]
  | .batomOr _ a => firstFailure [(decide (a.toNat % 2 = 1), .oddPair)]
  | .batomXch _ a => firstFailure [(decide (a.toNat % 2 = 1), .oddPair)]
  | .batomCas _ a => firstFailure [(decide (a.toNat % 2 = 1), .oddPair)]
  | .batomMaxn _ a => firstFailure [(decide (a.toNat % 2 = 1), .oddPair)]
  | .batomFadd _ a => firstFailure [(decide (a.toNat % 2 = 1), .oddPair)]
  | .send _ a _ => firstFailure [(oddPair a, .oddPair)]
  | .mload a => firstFailure [(decide (a.toNat % 2 = 1), .oddPair)]
  | .mread t _ _ => firstFailure [(decide (t.toNat = 3 ∨ 5 < t.toNat), .reservedType)]
  | .mnorm a => firstFailure [(decide (a.toNat % 2 = 1), .oddPair)]
  | .mdrain a _ => firstFailure [(decide (a.toNat % 2 = 1), .oddPair)]
  | .movs _ k => firstFailure [(decide (¬ sregReadable k.toNat), .reservedNumber)]
  | .movsw _ k => firstFailure [(decide (¬ sregWritable k.toNat), .reservedNumber)]
  | .agechk s _ => firstFailure [(decide (s = 0), .reservedType)]
  | .pagedoneResume a _ => firstFailure [(oddPair a, .oddPair)]
  | .pagedoneMap a _ => firstFailure [(oddPair a, .oddPair)]
  | .pagedoneFail a _ => firstFailure [(oddPair a, .oddPair)]
  | .csrr t _ k => firstFailure [(decide (¬ csrReadable (128 * t.toNat + k.toNat)), .reservedNumber)]
  | .csrw t _ k => firstFailure [(decide (¬ csrWritable (128 * t.toNat + k.toNat)), .reservedNumber)]
  | .stampsetGranule a _ => firstFailure [(oddPair a, .oddPair)]
  | .tbuf sl => sl.illFormed true false false false (decide (bits sl.a.toNat 31 12 ≠ 0 ∨ sl.c ≠ 0))
  | .tdrop sl => sl.illFormed false false false false (decide (bits sl.a.toNat 31 12 ≠ 0 ∨ sl.b ≠ 0 ∨ sl.c ≠ 0))
  | .tlaunch sl => sl.illFormed false false false false (decide (sl.a ≠ 0 ∨ sl.c ≠ 0 ∨ sl.b.toNat % 128 ≠ 0))
  | .tcopy sl => sl.illFormed false false true false (decide (bits sl.a.toNat 23 6 ≠ 0 ∨ sl.c ≠ 0 ∨ sl.b.toNat % 32 ≠ 0 ∨ 2 < bits sl.a.toNat 31 28 ∨ 2 < bits sl.a.toNat 27 24 ∨ (bits sl.a.toNat 31 28 ≠ 2 ∧ bits sl.a.toNat 27 24 ≠ 2 ∧ bits sl.a.toNat 5 0 ≠ 0)))
  | .tfill sl => sl.illFormed false false false false false
  | .tstamp sl => sl.illFormed false false false false (decide (sl.a ≠ 0))
  | .tbr sl => sl.illFormed false false false false (decide (sl.a = 0 ∨ sl.b ≠ 0 ∨ sl.c ≠ 0))
  | .tbrc sl => sl.illFormed false false false true (decide (sl.a = 0))
  | .tcall sl => sl.illFormed false false false false (decide (sl.a ≠ 0 ∨ sl.c ≠ 0 ∨ sl.b.toNat % 32 ≠ 0))
  | .tretTask sl => sl.illFormed false false false false (decide (sl.a ≠ 0 ∨ sl.b ≠ 0 ∨ sl.c ≠ 0))
  | .twaitv sl => sl.illFormed false false false true false
  | .tsig sl => sl.illFormed true true false false (decide (bits sl.a.toNat 31 11 ≠ 0 ∨ (¬ sl.flags.getLsbD 4 ∧ sl.a ≠ 0)))
  | .tmark sl => sl.illFormed false false false false (decide (sl.a ≠ 0))
  | .tfence sl => sl.illFormed true false false false (decide (sl.a ≠ 0 ∨ sl.b ≠ 0 ∨ sl.c ≠ 0))
  | .tlease sl => sl.illFormed false false false false (decide (bits sl.a.toNat 31 22 ≠ 0 ∨ bits sl.a.toNat 15 6 ≠ 0 ∨ sl.b ≠ 0 ∨ sl.c ≠ 0))
  | .trotate sl => sl.illFormed false false false false (decide (sl.a ≠ 0 ∨ sl.c ≠ 0 ∨ sl.b.toNat % 64 ≠ 0))
  | .tport sl => sl.illFormed false false false false (decide (bits sl.a.toNat 31 24 ≠ 0 ∨ bits sl.a.toNat 15 6 ≠ 0 ∨ 4 < bits sl.a.toNat 23 16 ∨ bits sl.b.toNat 63 33 ≠ 0 ∨ bits sl.b.toNat 29 29 ≠ 0 ∨ 2 ^ 28 < bits sl.b.toNat 28 0 ∨ sl.c.toNat % 64 ≠ 0 ∨ (bits sl.a.toNat 23 16 = 0 ∧ sl.c ≠ 0)))
  | .tscope sl => sl.illFormed false false false false (decide (bits sl.a.toNat 31 5 ≠ 0 ∨ sl.c ≠ 0 ∨ sl.b.toNat % 64 ≠ 0))
  | .tsetk sl => sl.illFormed true false false false (decide (bits sl.a.toNat 31 4 ≠ 0 ∨ sl.c ≠ 0))
  | .taddk sl => sl.illFormed false false false false (decide (bits sl.a.toNat 31 4 ≠ 0 ∨ sl.c ≠ 0))
  | .tbrk sl => sl.illFormed false false false false (decide (sl.a = 0 ∨ bits sl.b.toNat 63 4 ≠ 0 ∨ sl.c ≠ 0))
  | .tpagerRegister sl => sl.illFormed false false false false (decide (bits sl.a.toNat 31 22 ≠ 0 ∨ bits sl.a.toNat 15 14 ≠ 0 ∨ bits sl.a.toNat 7 4 ≠ 0 ∨ sl.c ≠ 0 ∨ sl.b.toNat % 64 ≠ 0))
  | .tpagerUnregister sl => sl.illFormed false false false false (decide (bits sl.a.toNat 31 22 ≠ 0 ∨ bits sl.a.toNat 15 14 ≠ 0 ∨ bits sl.a.toNat 7 4 ≠ 1 ∨ sl.b ≠ 0 ∨ sl.c ≠ 0))
  | .tctxCreate sl => sl.illFormed false false false false (decide (bits sl.a.toNat 3 0 ≠ 0 ∨ bits sl.a.toNat 7 4 ≠ 0 ∨ bits sl.a.toNat 31 14 ≠ 0 ∨ sl.c ≠ 0 ∨ sl.b.toNat % 128 ≠ 0))
  | .tctxDestroy sl => sl.illFormed false false false false (decide (bits sl.a.toNat 3 0 ≠ 1 ∨ bits sl.a.toNat 7 4 ≠ 0 ∨ bits sl.a.toNat 31 14 ≠ 0 ∨ sl.c ≠ 0 ∨ sl.b ≠ 0))
  | .tctxHalt sl => sl.illFormed false false false false (decide (bits sl.a.toNat 3 0 ≠ 2 ∨ bits sl.a.toNat 7 4 ≠ 0 ∨ bits sl.a.toNat 31 14 ≠ 0 ∨ sl.c ≠ 0 ∨ sl.b ≠ 0))
  | .tctxResume sl => sl.illFormed false false false false (decide (bits sl.a.toNat 3 0 ≠ 3 ∨ bits sl.a.toNat 7 4 ≠ 0 ∨ bits sl.a.toNat 31 14 ≠ 0 ∨ sl.c ≠ 0 ∨ sl.b ≠ 0))
  | .tctxSetPriority sl => sl.illFormed false false false false (decide (bits sl.a.toNat 3 0 ≠ 4 ∨ bits sl.a.toNat 7 4 ≠ 0 ∨ bits sl.a.toNat 31 14 ≠ 0 ∨ sl.c ≠ 0 ∨ 7 < sl.b.toNat))
  | .tnop sl => sl.illFormed false false false false (decide (sl.a ≠ 0 ∨ sl.b ≠ 0 ∨ sl.c ≠ 0))
  | .bra _ | .bz _ _ | .bnz _ _ | .call _ | .cjoin _ | .bmask _ _ | .cleave _ | .winb _ | .rep _ _ | .trap _
  | .bkpt _ | .sleep _ | .add _ _ _ _ | .addi _ _ _ _ | .sub _ _ _ _ | .mul _ _ _ _ | .mulhs _ _ _ _ | .mulhn _ _ _ _
  | .mad _ _ _ _ _ | .mins _ _ _ _ | .minn _ _ _ _ | .maxs _ _ _ _ | .maxn _ _ _ _ | .abs _ _ _ | .neg _ _ _
  | .and _ _ _ | .or _ _ _ | .xor _ _ _ | .andn _ _ _ | .not _ _ | .shl _ _ _ _ | .shr _ _ _ _ | .sra _ _ _ _
  | .rotl _ _ _ _ | .popc _ _ _ | .clz _ _ _ | .brev _ _ _ | .bfx _ _ _ | .bfi _ _ _ _ | .cmpeq _ _ _ _
  | .cmplts _ _ _ _ | .cmpltn _ _ _ _ | .cmples _ _ _ _ | .cmplen _ _ _ _ | .sel _ _ _ _ _ | .mov _ _ | .li _ _
  | .lih _ _ _ | .qpackGs _ _ | .qpackBs _ _ _ | .shfl _ _ _ | .shfliIdx _ _ _ | .shfliUp _ _ _ | .shfliDown _ _ _
  | .shfliXor _ _ _ | .voteall _ _ | .voteany _ _ | .ballot _ _ | .matchA _ _ | .scanadd _ _ _ | .scanaddx _ _ _
  | .redadd _ _ _ | .redmaxs _ _ _ | .redmaxn _ _ _ | .redmins _ _ _ | .redminn _ _ _ | .redor _ _ _ | .elect _
  | .memb _ | .lds8 _ _ _ _ | .lds16 _ _ _ _ | .lds32 _ _ _ _ | .lds64 _ _ _ _ | .sts8 _ _ _ | .sts16 _ _ _
  | .sts32 _ _ _ | .sts64 _ _ _ | .actr _ _ _ | .waitc _ _ | .actrdBind _ _ | .actrdUnbind _ _ | .leaseq _ _
  | .mstream _ | .mzero _ | .mscale _ | .mstat _ _ | .bar _ | .sbar _ | .arrive _ _ | .await _ _ | .stampr _ _
  | .agejoin _ _ _ | .age _ _ | .stampsetReg _ _ _ | .cmapw _ _ _ | .tlbinv _ _ | .haltcHalt _ _ | .haltcResume _ _
  | .haltcDebugHalt _ _ | .dbgstep _ | .longLatencyComplete _ _ _ | .enginePacket _ _ | .engineComplete _
  | .sleepEnd _ _ | .slotAccept _ | .taskIssue _ _ | .taskRetire _ | .cohortAdmit _ | .cohortStart _ | .crewRelease _
  | .rendezvousStall _ _ | .waitvReread _ _ | .waitcReread _ _ | .matrixStep _ | .updateStep _ | .twaitvReread _ _
  | .waitTimeout _ _ | .poolEntryTake _ | .taskFault _ | .freshnessFault _ | .egressRelease _ _ | .ingressConsume _ _
  | .unitStopAck _ _ | .contextRestore _ | .islandPowerDown _ | .islandPowerUp _ | .pagerRecordWrite _ _
  | .stampScanVisit _ | .eftPatrolVisit _ _ | .correctableError _ _ | .uncorrectableDataError _ _ | .coreFault _
  | .coreReset _ | .matrixUnitReset _ | .copyEngineReset _ | .windowLogicReset _ | .memrd _ | .memrdCaching _
  | .memwr _ _ | .memwrptl _ _ _ | .unsupportedRequest _ _ | .birsp _ _ | .hostSnoop _ | .hostLineFill _ _
  | .getCertificate _ _ | .challenge _ | .tickctlWrite _ | .ctx0 _ | .biascmdToHost _ | .biascmdToDevice _
  | .flipComplete _ | .loadFirmwareImage _ | .startFirmware _ | .readFirmwareVersion _ | .readCounts _
  | .hostRegisterWrite _ _ | .stackRead _ _ | .stackWrite _ _ | .stackStampRead _ _ | .stackMailbox _ _ | .timeBeat _
  | .stackResponse _ _ | .flitReceive _ _ | .replayRequest _ _ | .linkDown _ | .rekeyInterrupt _ _
  | .directionStall _ | .timeSync _ | .writePacket _ | .writeAcknowledgement _ | .readRequest _ | .readData _
  | .atomicRequest _ | .atomicResult _ | .egressRecord _ | .reject _ | .leaseRequest _ _ _ _ | .leaseGrant _ _
  | .dropSlotOffer _ | .revocation _ | .leaseRelease _ | .channelSetChange _ _ _ _ _ | .drainEnd _ _ _
  | .retuneSettled _ _ _ | .tableidConfirm _ _ _ _ | .unassignedOpcode _ | .linkUp _ | .unlistedOffsetRead _ | .nop
  | .ret | .exit | .fence | .mswap | .tret | .deviceTick | .hostLinkReset | .coldReset | .getMeasurements | .bootstGo
  | .featctlLock | .lkgo | .guardStart | .dataWindowStart | .dataWindowEnd => none

/-- An instruction that meets every static check of the spec. -/
def Instr.wf (i : Instr) : Bool := i.illFormed.isNone

end Sys2Proof
end

