-- ==== Sys2Proof/Decode.lean ====
section
/-!
DEFINITION. From the words of Kelac code and the words of task slots to instructions, and back
(spec/05_kelac_encoding.md R148 to R151, spec/03_task_stream.md R69, R70). The decoder is total: words with an unassigned
opcode, a nonzero MBZ field or a reserved value are refused by name.
-/

namespace Sys2Proof

/-- Why a word is refused. -/
inductive DecodeError where
  /-- An opcode that R151 lists as unassigned. -/
  | unassigned (w : BitVec 32)
  /-- A nonzero MBZ field (R8, R151). -/
  | mbz
  /-- A static check of the instruction fails. -/
  | illFormed (why : IllFormed)
  /-- The second word of an L form lies outside the bytes given. -/
  | missingWord
  deriving DecidableEq, Repr

/-- The fields of the R, I and M forms (R148), with the whole word for the J form. -/
structure Raw where
  word : BitVec 32
  op : BitVec 8
  t : BitVec 3
  d : RegField
  a : RegField
  b : RegField
  deriving DecidableEq, Repr

/-- Split a word into its fields. -/
def unpack (w : BitVec 32) : Raw :=
  { word := w, op := w.extractLsb' 24 8, t := w.extractLsb' 21 3, d := w.extractLsb' 14 7, a := w.extractLsb' 7 7,
    b := w.extractLsb' 0 7 }

/-- A word of the R, I or M form. -/
def packR (op : BitVec 8) (t : BitVec 3) (d a b : RegField) : BitVec 32 := op ++ t ++ d ++ a ++ b

/-- A word of the J form. -/
def packJ (op : BitVec 8) (a : RegField) (o : BitVec 17) : BitVec 32 := op ++ a ++ o

/-- Whether an opcode names an L-form instruction, whose second word follows (R148). -/
def isLongForm (op : BitVec 8) : Bool :=
  op == 0x16#8 || op == 0x2D#8 || op == 0x33#8 || op == 0x35#8 || op == 0x36#8 || op == 0x43#8

/-- Accept an instruction when its fixed fields are as the opcode table gives. -/
def fixed (ok : Bool) (i : Instr) : Except DecodeError Instr := if ok then .ok i else .error .mbz

/-- Codes that R151 lists as unassigned. -/
def unassignedOp (op : Nat) : Bool :=
  (0x38 ≤ op && op ≤ 0x3F) || op == 0x5F || (0xAA ≤ op && op ≤ 0xAF) || (0xB9 ≤ op && op ≤ 0xBF)
    || (0xC4 ≤ op && op ≤ 0xDF) || op == 0xE7 || 0xF0 ≤ op

/-- The rows of opcodes 0x00 to 0x0F; `r` is the first word and `c` the second, zero where there is none. -/
def decodeGroup0 (r : Raw) (_c : BitVec 32) : Nat → Except DecodeError Instr
  | 0 => fixed (r.t == 0#3 && r.d == 0#7 && r.a == 0#7 && r.b == 0#7) (.nop)
  | 1 => fixed (r.word.extractLsb' 17 7 == 0#7) (.bra (r.word.extractLsb' 0 17))
  | 2 => .ok (.bz (r.word.extractLsb' 17 7) (r.word.extractLsb' 0 17))
  | 3 => .ok (.bnz (r.word.extractLsb' 17 7) (r.word.extractLsb' 0 17))
  | 4 => fixed (r.word.extractLsb' 17 7 == 0#7) (.call (r.word.extractLsb' 0 17))
  | 5 => fixed (r.t == 0#3 && r.d == 0#7 && r.a == 0#7 && r.b == 0#7) (.ret)
  | 6 => fixed (r.t == 0#3 && r.d == 0#7 && r.b == 0#7) (.jmpr r.a)
  | 7 => fixed (r.t == 0#3 && r.d == 0#7 && r.a == 0#7 && r.b == 0#7) (.exit)
  | 8 => fixed (r.t == 0#3 && r.d == 0#7 && r.a == 0#7 && r.b.extractLsb' 3 4 == 0#4) (.cjoin (r.b.extractLsb' 0 3))
  | 9 => fixed (r.t == 0#3 && r.d == 0#7 && r.b.extractLsb' 3 4 == 0#4) (.bmask r.a (r.b.extractLsb' 0 3))
  | 10 => fixed (r.t == 0#3 && r.d == 0#7 && r.a == 0#7 && r.b.extractLsb' 3 4 == 0#4) (.cleave (r.b.extractLsb' 0 3))
  | 11 => fixed (r.t == 0#3 && r.d == 0#7 && r.a == 0#7 && r.b.extractLsb' 5 2 == 0#2) (.winb (r.b.extractLsb' 0 5))
  | 12 => fixed (r.d == 0#7 && r.a == 0#7) (.rep r.t r.b)
  | 13 => fixed (r.t == 0#3 && r.d == 0#7 && r.a == 0#7) (.trap r.b)
  | 14 => fixed (r.t == 0#3 && r.d == 0#7 && r.a == 0#7) (.bkpt r.b)
  | 15 => fixed (r.t == 0#3 && r.d == 0#7 && r.b == 0#7) (.sleep r.a)
  | _ => .error (.unassigned r.word)

/-- The rows of opcodes 0x10 to 0x1F; `r` is the first word and `c` the second, zero where there is none. -/
def decodeGroup1 (r : Raw) (c : BitVec 32) : Nat → Except DecodeError Instr
  | 0 => .ok (.add r.t r.d r.a r.b)
  | 1 => .ok (.addi r.t r.d r.a r.b)
  | 2 => .ok (.sub r.t r.d r.a r.b)
  | 3 => .ok (.mul r.t r.d r.a r.b)
  | 4 => .ok (.mulhs r.t r.d r.a r.b)
  | 5 => .ok (.mulhn r.t r.d r.a r.b)
  | 6 => fixed (c.extractLsb' 7 25 == 0#25) (.mad r.t r.d r.a r.b (c.extractLsb' 0 7))
  | 7 => .ok (.mins r.t r.d r.a r.b)
  | 8 => .ok (.minn r.t r.d r.a r.b)
  | 9 => .ok (.maxs r.t r.d r.a r.b)
  | 10 => .ok (.maxn r.t r.d r.a r.b)
  | 11 => fixed (r.b == 0#7) (.abs r.t r.d r.a)
  | 12 => fixed (r.b == 0#7) (.neg r.t r.d r.a)
  | 13 => fixed (r.t == 0#3) (.and r.d r.a r.b)
  | 14 => fixed (r.t == 0#3) (.or r.d r.a r.b)
  | 15 => fixed (r.t == 0#3) (.xor r.d r.a r.b)
  | _ => .error (.unassigned r.word)

/-- The rows of opcodes 0x20 to 0x2F; `r` is the first word and `c` the second, zero where there is none. -/
def decodeGroup2 (r : Raw) (c : BitVec 32) : Nat → Except DecodeError Instr
  | 0 => fixed (r.t == 0#3) (.andn r.d r.a r.b)
  | 1 => fixed (r.t == 0#3 && r.b == 0#7) (.not r.d r.a)
  | 2 => .ok (.shl r.t r.d r.a r.b)
  | 3 => .ok (.shr r.t r.d r.a r.b)
  | 4 => .ok (.sra r.t r.d r.a r.b)
  | 5 => fixed (r.b.extractLsb' 6 1 == 0#1) (.shli r.t r.d r.a (r.b.extractLsb' 0 6))
  | 6 => fixed (r.b.extractLsb' 6 1 == 0#1) (.shri r.t r.d r.a (r.b.extractLsb' 0 6))
  | 7 => fixed (r.b.extractLsb' 6 1 == 0#1) (.srai r.t r.d r.a (r.b.extractLsb' 0 6))
  | 8 => .ok (.rotl r.t r.d r.a r.b)
  | 9 => fixed (r.b == 0#7) (.popc r.t r.d r.a)
  | 10 => fixed (r.b == 0#7) (.clz r.t r.d r.a)
  | 11 => fixed (r.b == 0#7) (.brev r.t r.d r.a)
  | 12 => fixed (r.t == 0#3) (.bfx r.d r.a r.b)
  | 13 => fixed (r.t == 0#3 && c.extractLsb' 7 25 == 0#25) (.bfi r.d r.a r.b (c.extractLsb' 0 7))
  | 14 => .ok (.cmpeq r.t r.d r.a r.b)
  | 15 => .ok (.cmplts r.t r.d r.a r.b)
  | _ => .error (.unassigned r.word)

/-- The rows of opcodes 0x30 to 0x3F; `r` is the first word and `c` the second, zero where there is none. -/
def decodeGroup3 (r : Raw) (c : BitVec 32) : Nat → Except DecodeError Instr
  | 0 => .ok (.cmpltn r.t r.d r.a r.b)
  | 1 => .ok (.cmples r.t r.d r.a r.b)
  | 2 => .ok (.cmplen r.t r.d r.a r.b)
  | 3 => fixed (c.extractLsb' 7 25 == 0#25) (.sel r.t r.d r.a r.b (c.extractLsb' 0 7))
  | 4 => fixed (r.t == 0#3 && r.b == 0#7) (.mov r.d r.a)
  | 5 => fixed (r.t == 0#3 && r.a == 0#7 && r.b == 0#7) (.li r.d c)
  | 6 => fixed (r.t == 0#3 && r.b == 0#7) (.lih r.d r.a c)
  | 7 => fixed (r.t == 0#3) (.lea r.d r.a r.b)
  | _ => .error (.unassigned r.word)

/-- The rows of opcodes 0x40 to 0x4F; `r` is the first word and `c` the second, zero where there is none. -/
def decodeGroup4 (r : Raw) (c : BitVec 32) : Nat → Except DecodeError Instr
  | 0 => .ok (.fadd r.t r.d r.a r.b)
  | 1 => .ok (.fsub r.t r.d r.a r.b)
  | 2 => .ok (.fmul r.t r.d r.a r.b)
  | 3 => fixed (c.extractLsb' 7 25 == 0#25) (.ffma r.t r.d r.a r.b (c.extractLsb' 0 7))
  | 4 => .ok (.fmin r.t r.d r.a r.b)
  | 5 => .ok (.fmax r.t r.d r.a r.b)
  | 6 => fixed (r.b == 0#7) (.fabs r.t r.d r.a)
  | 7 => fixed (r.b == 0#7) (.fneg r.t r.d r.a)
  | 8 => .ok (.fcmpeq r.t r.d r.a r.b)
  | 9 => .ok (.fcmplt r.t r.d r.a r.b)
  | 10 => .ok (.fcmple r.t r.d r.a r.b)
  | 11 => .ok (.fcmpun r.t r.d r.a r.b)
  | 12 => fixed (r.b == 0#7) (.frcp r.t r.d r.a)
  | 13 => fixed (r.b == 0#7) (.frsq r.t r.d r.a)
  | 14 => fixed (r.b == 0#7) (.fsqrt r.t r.d r.a)
  | 15 => fixed (r.b == 0#7) (.fexp2 r.t r.d r.a)
  | _ => .error (.unassigned r.word)

/-- The rows of opcodes 0x50 to 0x5F; `r` is the first word and `c` the second, zero where there is none. -/
def decodeGroup5 (r : Raw) (_c : BitVec 32) : Nat → Except DecodeError Instr
  | 0 => fixed (r.b == 0#7) (.flog2 r.t r.d r.a)
  | 1 => fixed (r.b == 0#7) (.fsin r.t r.d r.a)
  | 2 => fixed (r.b == 0#7) (.fcos r.t r.d r.a)
  | 3 => .ok (.fscale r.t r.d r.a r.b)
  | 4 => fixed (r.b == 0#7) (.fclass r.t r.d r.a)
  | 5 => .ok (.fdot r.t r.d r.a r.b)
  | 6 => fixed (r.b == 0#7) (.fsum r.t r.d r.a)
  | 7 => fixed (r.b.extractLsb' 3 4 == 0#4) (.fcvt r.t r.d r.a (r.b.extractLsb' 0 3))
  | 8 => fixed (r.b.extractLsb' 3 4 == 0#4) (.fcvtam r.t r.d r.a (r.b.extractLsb' 0 3))
  | 9 => fixed (r.b.extractLsb' 3 4 == 0#4) (.f2i r.t r.d r.a (r.b.extractLsb' 0 3))
  | 10 => fixed (r.b.extractLsb' 3 4 == 0#4) (.i2f r.t r.d r.a (r.b.extractLsb' 0 3))
  | 11 => if r.t == 4#3 then fixed (r.b == 0#7) (.qpackGs r.d r.a) else if r.t == 5#3 then .ok (.qpackBs r.d r.a r.b) else .ok (.qpack r.t r.d r.a r.b)
  | 12 => .ok (.qunpk r.t r.d r.a r.b)
  | 13 => .ok (.fpack r.t r.d r.a r.b)
  | 14 => fixed (r.b == 0#7) (.funpk r.t r.d r.a)
  | _ => .error (.unassigned r.word)

/-- The rows of opcodes 0x60 to 0x6F; `r` is the first word and `c` the second, zero where there is none. -/
def decodeGroup6 (r : Raw) (_c : BitVec 32) : Nat → Except DecodeError Instr
  | 0 => fixed (r.t == 0#3) (.shfl r.d r.a r.b)
  | 1 => if r.t == 0#3 && r.b.extractLsb' 5 2 == 0#2 then .ok (.shfliIdx r.d r.a (r.b.extractLsb' 0 5)) else if r.t == 0#3 && r.b.extractLsb' 5 2 == 1#2 then .ok (.shfliUp r.d r.a (r.b.extractLsb' 0 5)) else if r.t == 0#3 && r.b.extractLsb' 5 2 == 2#2 then .ok (.shfliDown r.d r.a (r.b.extractLsb' 0 5)) else if r.t == 0#3 && r.b.extractLsb' 5 2 == 3#2 then .ok (.shfliXor r.d r.a (r.b.extractLsb' 0 5)) else .error .mbz
  | 2 => fixed (r.t == 0#3 && r.b == 0#7) (.voteall r.d r.a)
  | 3 => fixed (r.t == 0#3 && r.b == 0#7) (.voteany r.d r.a)
  | 4 => fixed (r.t == 0#3 && r.b == 0#7) (.ballot r.d r.a)
  | 5 => fixed (r.t == 0#3 && r.b == 0#7) (.matchA r.d r.a)
  | 6 => fixed (r.b == 0#7) (.scanadd r.t r.d r.a)
  | 7 => fixed (r.b == 0#7) (.scanaddx r.t r.d r.a)
  | 8 => fixed (r.b == 0#7) (.redadd r.t r.d r.a)
  | 9 => if r.t.extractLsb' 2 1 == 0#1 && r.b == 0#7 then .ok (.redmaxs (r.t.extractLsb' 0 2) r.d r.a) else if r.t.extractLsb' 2 1 == 1#1 && r.b == 0#7 then .ok (.redmaxn (r.t.extractLsb' 0 2) r.d r.a) else .error .mbz
  | 10 => if r.t.extractLsb' 2 1 == 0#1 && r.b == 0#7 then .ok (.redmins (r.t.extractLsb' 0 2) r.d r.a) else if r.t.extractLsb' 2 1 == 1#1 && r.b == 0#7 then .ok (.redminn (r.t.extractLsb' 0 2) r.d r.a) else .error .mbz
  | 11 => fixed (r.b == 0#7) (.redor r.t r.d r.a)
  | 12 => fixed (r.b == 0#7) (.fredadd r.t r.d r.a)
  | 13 => fixed (r.b == 0#7) (.fscanadd r.t r.d r.a)
  | 14 => fixed (r.t == 0#3 && r.a == 0#7 && r.b == 0#7) (.elect r.d)
  | 15 => fixed (r.t == 0#3 && r.a == 0#7 && r.b == 0#7) (.memb r.d)
  | _ => .error (.unassigned r.word)

/-- The rows of opcodes 0x70 to 0x7F; `r` is the first word and `c` the second, zero where there is none. -/
def decodeGroup7 (r : Raw) (_c : BitVec 32) : Nat → Except DecodeError Instr
  | 0 => .ok (.ld8 r.t r.d r.a r.b)
  | 1 => .ok (.ld16 r.t r.d r.a r.b)
  | 2 => .ok (.ld32 r.t r.d r.a r.b)
  | 3 => .ok (.ld64 r.t r.d r.a r.b)
  | 4 => .ok (.ld128 r.t r.d r.a r.b)
  | 5 => .ok (.ldx8 r.t r.d r.a r.b)
  | 6 => .ok (.ldx16 r.t r.d r.a r.b)
  | 7 => .ok (.ldx32 r.t r.d r.a r.b)
  | 8 => fixed (r.t == 0#3) (.st8 r.d r.a r.b)
  | 9 => fixed (r.t == 0#3) (.st16 r.d r.a r.b)
  | 10 => fixed (r.t == 0#3) (.st32 r.d r.a r.b)
  | 11 => fixed (r.t == 0#3) (.st64 r.d r.a r.b)
  | 12 => fixed (r.t == 0#3) (.st128 r.d r.a r.b)
  | 13 => fixed (r.t == 0#3) (.stg64 r.d r.a r.b)
  | 14 => fixed (r.t == 0#3) (.stg128 r.d r.a r.b)
  | 15 => fixed (r.t == 0#3 && r.d == 0#7) (.pref r.a r.b)
  | _ => .error (.unassigned r.word)

/-- The rows of opcodes 0x80 to 0x8F; `r` is the first word and `c` the second, zero where there is none. -/
def decodeGroup8 (r : Raw) (_c : BitVec 32) : Nat → Except DecodeError Instr
  | 0 => .ok (.lds8 r.t r.d r.a r.b)
  | 1 => .ok (.lds16 r.t r.d r.a r.b)
  | 2 => .ok (.lds32 r.t r.d r.a r.b)
  | 3 => .ok (.lds64 r.t r.d r.a r.b)
  | 4 => .ok (.lds128 r.t r.d r.a r.b)
  | 5 => fixed (r.t == 0#3) (.sts8 r.d r.a r.b)
  | 6 => fixed (r.t == 0#3) (.sts16 r.d r.a r.b)
  | 7 => fixed (r.t == 0#3) (.sts32 r.d r.a r.b)
  | 8 => fixed (r.t == 0#3) (.sts64 r.d r.a r.b)
  | 9 => fixed (r.t == 0#3) (.sts128 r.d r.a r.b)
  | 10 => fixed (r.t.extractLsb' 2 1 == 0#1) (.atadd32 (r.t.extractLsb' 0 2) r.d r.a r.b)
  | 11 => fixed (r.t.extractLsb' 2 1 == 0#1) (.atadd64 (r.t.extractLsb' 0 2) r.d r.a r.b)
  | 12 => fixed (r.t.extractLsb' 2 1 == 0#1) (.atmaxs32 (r.t.extractLsb' 0 2) r.d r.a r.b)
  | 13 => fixed (r.t.extractLsb' 2 1 == 0#1) (.atmaxn32 (r.t.extractLsb' 0 2) r.d r.a r.b)
  | 14 => fixed (r.t.extractLsb' 2 1 == 0#1) (.atmins32 (r.t.extractLsb' 0 2) r.d r.a r.b)
  | 15 => fixed (r.t.extractLsb' 2 1 == 0#1) (.atminn32 (r.t.extractLsb' 0 2) r.d r.a r.b)
  | _ => .error (.unassigned r.word)

/-- The rows of opcodes 0x90 to 0x9F; `r` is the first word and `c` the second, zero where there is none. -/
def decodeGroup9 (r : Raw) (_c : BitVec 32) : Nat → Except DecodeError Instr
  | 0 => fixed (r.t.extractLsb' 2 1 == 0#1) (.ator64 (r.t.extractLsb' 0 2) r.d r.a r.b)
  | 1 => fixed (r.t.extractLsb' 2 1 == 0#1) (.atand64 (r.t.extractLsb' 0 2) r.d r.a r.b)
  | 2 => fixed (r.t.extractLsb' 2 1 == 0#1) (.atxor64 (r.t.extractLsb' 0 2) r.d r.a r.b)
  | 3 => fixed (r.t.extractLsb' 2 1 == 0#1) (.atxch64 (r.t.extractLsb' 0 2) r.d r.a r.b)
  | 4 => fixed (r.t.extractLsb' 2 1 == 0#1) (.atcas64 (r.t.extractLsb' 0 2) r.d r.a r.b)
  | 5 => fixed (r.t.extractLsb' 2 1 == 0#1) (.fatadd32 (r.t.extractLsb' 0 2) r.d r.a r.b)
  | 6 => fixed (r.t.extractLsb' 2 1 == 0#1) (.fatmax32 (r.t.extractLsb' 0 2) r.d r.a r.b)
  | 7 => .ok (.waitv r.t r.d r.a r.b)
  | 8 => fixed (r.t == 0#3 && r.d == 0#7 && r.a == 0#7 && r.b == 0#7) (.fence)
  | 9 => fixed (r.t == 0#3) (.capinc r.d r.a r.b)
  | 10 => fixed (r.t == 0#3) (.capnrw r.d r.a r.b)
  | 11 => fixed (r.t == 0#3) (.capperm r.d r.a r.b)
  | 12 => fixed (r.t == 0#3 && r.a == 0#7 && r.b.extractLsb' 4 3 == 0#3) (.capget r.d (r.b.extractLsb' 0 4))
  | 13 => fixed (r.t == 0#3) (.capchk r.d r.a r.b)
  | 14 => fixed (r.t == 0#3) (.capscr r.d r.a r.b)
  | 15 => fixed (r.t == 0#3 && r.b == 0#7) (.capmov r.d r.a)
  | _ => .error (.unassigned r.word)

/-- The rows of opcodes 0xA0 to 0xAF; `r` is the first word and `c` the second, zero where there is none. -/
def decodeGroupA (r : Raw) (_c : BitVec 32) : Nat → Except DecodeError Instr
  | 0 => fixed (r.t == 0#3 && r.d == 0#7 && r.b == 0#7) (.bcopy r.a)
  | 1 => fixed (r.t == 0#3 && r.d == 0#7 && r.b == 0#7) (.bfill r.a)
  | 2 => fixed (r.t == 0#3 && r.d == 0#7 && r.b == 0#7) (.bput r.a)
  | 3 => fixed (r.t == 0#3 && r.d == 0#7 && r.b == 0#7) (.bget r.a)
  | 4 => if r.t == 0#3 && r.b == 0#7 then .ok (.batomAdd r.d r.a) else if r.t == 1#3 && r.b == 0#7 then .ok (.batomOr r.d r.a) else if r.t == 2#3 && r.b == 0#7 then .ok (.batomXch r.d r.a) else if r.t == 3#3 && r.b == 0#7 then .ok (.batomCas r.d r.a) else if r.t == 4#3 && r.b == 0#7 then .ok (.batomMaxn r.d r.a) else if r.t == 5#3 && r.b == 0#7 then .ok (.batomFadd r.d r.a) else .error (.illFormed .reservedType)
  | 5 => fixed (r.t == 0#3) (.actr r.d r.a r.b)
  | 6 => fixed (r.t == 0#3 && r.d == 0#7) (.waitc r.a r.b)
  | 7 => fixed (r.t == 0#3 && r.d == 0#7) (.actrdBind r.a r.b)
  | 8 => fixed (r.t == 0#3 && r.b.extractLsb' 6 1 == 0#1) (.send r.d r.a (r.b.extractLsb' 0 6))
  | 9 => fixed (r.t == 0#3 && r.a == 0#7 && r.b.extractLsb' 6 1 == 0#1) (.leaseq r.d (r.b.extractLsb' 0 6))
  | _ => .error (.unassigned r.word)

/-- The rows of opcodes 0xB0 to 0xBF; `r` is the first word and `c` the second, zero where there is none. -/
def decodeGroupB (r : Raw) (_c : BitVec 32) : Nat → Except DecodeError Instr
  | 0 => fixed (r.t == 0#3 && r.d == 0#7 && r.b == 0#7) (.mload r.a)
  | 1 => fixed (r.t == 0#3 && r.d == 0#7 && r.a == 0#7 && r.b == 0#7) (.mswap)
  | 2 => fixed (r.t == 0#3 && r.d == 0#7 && r.b == 0#7) (.mstream r.a)
  | 3 => fixed (r.t == 0#3 && r.d == 0#7 && r.b == 0#7) (.mzero r.a)
  | 4 => fixed (r.b == 0#7) (.mread r.t r.d r.a)
  | 5 => fixed (r.t == 0#3 && r.d == 0#7 && r.b == 0#7) (.mscale r.a)
  | 6 => fixed (r.t == 0#3 && r.d == 0#7 && r.b == 0#7) (.mnorm r.a)
  | 7 => fixed (r.t == 0#3 && r.d == 0#7 && r.b.extractLsb' 1 6 == 0#6) (.mdrain r.a (r.b.extractLsb' 0 1))
  | 8 => fixed (r.t.extractLsb' 1 2 == 0#2 && r.a == 0#7 && r.b == 0#7) (.mstat (r.t.extractLsb' 0 1) r.d)
  | _ => .error (.unassigned r.word)

/-- The rows of opcodes 0xC0 to 0xCF; `r` is the first word and `c` the second, zero where there is none. -/
def decodeGroupC (r : Raw) (_c : BitVec 32) : Nat → Except DecodeError Instr
  | 0 => fixed (r.t == 0#3 && r.d == 0#7 && r.a == 0#7 && r.b.extractLsb' 4 3 == 0#3) (.bar (r.b.extractLsb' 0 4))
  | 1 => fixed (r.t == 0#3 && r.d == 0#7 && r.a == 0#7 && r.b.extractLsb' 5 2 == 0#2) (.sbar (r.b.extractLsb' 0 5))
  | 2 => fixed (r.t == 0#3 && r.a == 0#7 && r.b.extractLsb' 4 3 == 0#3) (.arrive r.d (r.b.extractLsb' 0 4))
  | 3 => fixed (r.t == 0#3 && r.d == 0#7 && r.b.extractLsb' 4 3 == 0#3) (.await r.a (r.b.extractLsb' 0 4))
  | _ => .error (.unassigned r.word)

/-- The rows of opcodes 0xE0 to 0xEF; `r` is the first word and `c` the second, zero where there is none. -/
def decodeGroupE (r : Raw) (_c : BitVec 32) : Nat → Except DecodeError Instr
  | 0 => fixed (r.t == 0#3 && r.a == 0#7) (.movs r.d r.b)
  | 1 => fixed (r.t == 0#3 && r.d == 0#7) (.movsw r.a r.b)
  | 2 => fixed (r.t == 0#3 && r.b == 0#7) (.stampr r.d r.a)
  | 3 => fixed (r.t == 0#3) (.agejoin r.d r.a r.b)
  | 4 => fixed (r.t == 0#3 && r.b == 0#7) (.age r.d r.a)
  | 5 => fixed (r.d == 0#7 && r.b == 0#7) (.agechk r.t r.a)
  | 6 => fixed (r.t == 0#3 && r.d == 0#7) (.pagedoneResume r.a r.b)
  | 8 => fixed (r.t == 0#3 && r.d == 0#7 && r.a == 0#7 && r.b == 0#7) (.tret)
  | 9 => fixed (r.a == 0#7) (.csrr r.t r.d r.b)
  | 10 => fixed (r.d == 0#7) (.csrw r.t r.a r.b)
  | 11 => if r.t == 1#3 && r.d == 0#7 then .ok (.stampsetGranule r.a r.b) else if r.t == 0#3 then .ok (.stampsetReg r.d r.a r.b) else .error (.illFormed .reservedType)
  | 12 => fixed (r.t == 0#3) (.cmapw r.d r.a r.b)
  | 13 => fixed (r.t == 0#3 && r.d == 0#7) (.tlbinv r.a r.b)
  | 14 => fixed (r.t == 0#3 && r.d == 0#7) (.haltcHalt r.a r.b)
  | 15 => fixed (r.t == 0#3 && r.d == 0#7 && r.b == 0#7) (.dbgstep r.a)
  | _ => .error (.unassigned r.word)

/-- The instruction that a word, and the word after it, hold, before the static checks. -/
def decodeRaw (r : Raw) (c : BitVec 32) : Except DecodeError Instr :=
  match r.op.toNat / 16 with
  | 0 => decodeGroup0 r c (r.op.toNat % 16)
  | 1 => decodeGroup1 r c (r.op.toNat % 16)
  | 2 => decodeGroup2 r c (r.op.toNat % 16)
  | 3 => decodeGroup3 r c (r.op.toNat % 16)
  | 4 => decodeGroup4 r c (r.op.toNat % 16)
  | 5 => decodeGroup5 r c (r.op.toNat % 16)
  | 6 => decodeGroup6 r c (r.op.toNat % 16)
  | 7 => decodeGroup7 r c (r.op.toNat % 16)
  | 8 => decodeGroup8 r c (r.op.toNat % 16)
  | 9 => decodeGroup9 r c (r.op.toNat % 16)
  | 10 => decodeGroupA r c (r.op.toNat % 16)
  | 11 => decodeGroupB r c (r.op.toNat % 16)
  | 12 => decodeGroupC r c (r.op.toNat % 16)
  | 14 => decodeGroupE r c (r.op.toNat % 16)
  | _ => .error (.unassigned r.word)

/-- Decode an instruction from its word and the word of the next slot, if there is one. -/
def decodeWords (w : BitVec 32) (next : Option (BitVec 32)) : Except DecodeError Instr :=
  let r := unpack w
  if isLongForm r.op && next.isNone then .error .missingWord
  else
    match decodeRaw r (next.getD 0#32) with
    | .error e => .error e
    | .ok i =>
      match i.illFormed with
      | some why => .error (.illFormed why)
      | none => .ok i

/-- A little-endian 32-bit word (R5, R138). -/
def wordOf (b0 b1 b2 b3 : Byte) : BitVec 32 := b3 ++ b2 ++ b1 ++ b0

/-- Decode the instruction at the start of a run of code bytes, with the bytes that follow it. -/
def decodeBytes : List Byte → Except DecodeError (Instr × List Byte)
  | b0 :: b1 :: b2 :: b3 :: rest =>
    let w := wordOf b0 b1 b2 b3
    match rest with
    | c0 :: c1 :: c2 :: c3 :: rest' =>
      match decodeWords w (some (wordOf c0 c1 c2 c3)) with
      | .error e => .error e
      | .ok i => .ok (i, if isLongForm (unpack w).op then rest' else rest)
    | _ =>
      match decodeWords w none with
      | .error e => .error e
      | .ok i => .ok (i, rest)
  | _ => .error .missingWord

/-- The words of an instruction (R148), written from the opcode tables of R150; none for a task or an event. -/
def encode : Instr → List (BitVec 32)
  | .bra o => [packJ 0x01#8 0#7 o]
  | .bz a o => [packJ 0x02#8 a o]
  | .bnz a o => [packJ 0x03#8 a o]
  | .call o => [packJ 0x04#8 0#7 o]
  | .jmpr a => [packR 0x06#8 0#3 0#7 a 0#7]
  | .cjoin k => [packR 0x08#8 0#3 0#7 0#7 (0#4 ++ k)]
  | .bmask a k => [packR 0x09#8 0#3 0#7 a (0#4 ++ k)]
  | .cleave k => [packR 0x0A#8 0#3 0#7 0#7 (0#4 ++ k)]
  | .winb k => [packR 0x0B#8 0#3 0#7 0#7 (0#2 ++ k)]
  | .rep t k => [packR 0x0C#8 t 0#7 0#7 k]
  | .trap k => [packR 0x0D#8 0#3 0#7 0#7 k]
  | .bkpt k => [packR 0x0E#8 0#3 0#7 0#7 k]
  | .sleep a => [packR 0x0F#8 0#3 0#7 a 0#7]
  | .add t d a b => [packR 0x10#8 t d a b]
  | .addi t d a k => [packR 0x11#8 t d a k]
  | .sub t d a b => [packR 0x12#8 t d a b]
  | .mul t d a b => [packR 0x13#8 t d a b]
  | .mulhs t d a b => [packR 0x14#8 t d a b]
  | .mulhn t d a b => [packR 0x15#8 t d a b]
  | .mad t d a b c => [packR 0x16#8 t d a b, (0#25 ++ c)]
  | .mins t d a b => [packR 0x17#8 t d a b]
  | .minn t d a b => [packR 0x18#8 t d a b]
  | .maxs t d a b => [packR 0x19#8 t d a b]
  | .maxn t d a b => [packR 0x1A#8 t d a b]
  | .abs t d a => [packR 0x1B#8 t d a 0#7]
  | .neg t d a => [packR 0x1C#8 t d a 0#7]
  | .and d a b => [packR 0x1D#8 0#3 d a b]
  | .or d a b => [packR 0x1E#8 0#3 d a b]
  | .xor d a b => [packR 0x1F#8 0#3 d a b]
  | .andn d a b => [packR 0x20#8 0#3 d a b]
  | .not d a => [packR 0x21#8 0#3 d a 0#7]
  | .shl t d a b => [packR 0x22#8 t d a b]
  | .shr t d a b => [packR 0x23#8 t d a b]
  | .sra t d a b => [packR 0x24#8 t d a b]
  | .shli t d a k => [packR 0x25#8 t d a (0#1 ++ k)]
  | .shri t d a k => [packR 0x26#8 t d a (0#1 ++ k)]
  | .srai t d a k => [packR 0x27#8 t d a (0#1 ++ k)]
  | .rotl t d a b => [packR 0x28#8 t d a b]
  | .popc t d a => [packR 0x29#8 t d a 0#7]
  | .clz t d a => [packR 0x2A#8 t d a 0#7]
  | .brev t d a => [packR 0x2B#8 t d a 0#7]
  | .bfx d a b => [packR 0x2C#8 0#3 d a b]
  | .bfi d a b c => [packR 0x2D#8 0#3 d a b, (0#25 ++ c)]
  | .cmpeq t d a b => [packR 0x2E#8 t d a b]
  | .cmplts t d a b => [packR 0x2F#8 t d a b]
  | .cmpltn t d a b => [packR 0x30#8 t d a b]
  | .cmples t d a b => [packR 0x31#8 t d a b]
  | .cmplen t d a b => [packR 0x32#8 t d a b]
  | .sel t d a b c => [packR 0x33#8 t d a b, (0#25 ++ c)]
  | .mov d a => [packR 0x34#8 0#3 d a 0#7]
  | .li d lit => [packR 0x35#8 0#3 d 0#7 0#7, lit]
  | .lih d a lit => [packR 0x36#8 0#3 d a 0#7, lit]
  | .lea d a b => [packR 0x37#8 0#3 d a b]
  | .fadd t d a b => [packR 0x40#8 t d a b]
  | .fsub t d a b => [packR 0x41#8 t d a b]
  | .fmul t d a b => [packR 0x42#8 t d a b]
  | .ffma t d a b c => [packR 0x43#8 t d a b, (0#25 ++ c)]
  | .fmin t d a b => [packR 0x44#8 t d a b]
  | .fmax t d a b => [packR 0x45#8 t d a b]
  | .fabs t d a => [packR 0x46#8 t d a 0#7]
  | .fneg t d a => [packR 0x47#8 t d a 0#7]
  | .fcmpeq t d a b => [packR 0x48#8 t d a b]
  | .fcmplt t d a b => [packR 0x49#8 t d a b]
  | .fcmple t d a b => [packR 0x4A#8 t d a b]
  | .fcmpun t d a b => [packR 0x4B#8 t d a b]
  | .frcp t d a => [packR 0x4C#8 t d a 0#7]
  | .frsq t d a => [packR 0x4D#8 t d a 0#7]
  | .fsqrt t d a => [packR 0x4E#8 t d a 0#7]
  | .fexp2 t d a => [packR 0x4F#8 t d a 0#7]
  | .flog2 t d a => [packR 0x50#8 t d a 0#7]
  | .fsin t d a => [packR 0x51#8 t d a 0#7]
  | .fcos t d a => [packR 0x52#8 t d a 0#7]
  | .fscale t d a b => [packR 0x53#8 t d a b]
  | .fclass t d a => [packR 0x54#8 t d a 0#7]
  | .fdot t d a b => [packR 0x55#8 t d a b]
  | .fsum t d a => [packR 0x56#8 t d a 0#7]
  | .fcvt t d a k => [packR 0x57#8 t d a (0#4 ++ k)]
  | .fcvtam t d a k => [packR 0x58#8 t d a (0#4 ++ k)]
  | .f2i t d a k => [packR 0x59#8 t d a (0#4 ++ k)]
  | .i2f t d a k => [packR 0x5A#8 t d a (0#4 ++ k)]
  | .qpack t d a b => [packR 0x5B#8 t d a b]
  | .qpackGs d a => [packR 0x5B#8 4#3 d a 0#7]
  | .qpackBs d a b => [packR 0x5B#8 5#3 d a b]
  | .qunpk t d a b => [packR 0x5C#8 t d a b]
  | .fpack t d a b => [packR 0x5D#8 t d a b]
  | .funpk t d a => [packR 0x5E#8 t d a 0#7]
  | .shfl d a b => [packR 0x60#8 0#3 d a b]
  | .shfliIdx d a k => [packR 0x61#8 0#3 d a (0#2 ++ k)]
  | .shfliUp d a k => [packR 0x61#8 0#3 d a (1#2 ++ k)]
  | .shfliDown d a k => [packR 0x61#8 0#3 d a (2#2 ++ k)]
  | .shfliXor d a k => [packR 0x61#8 0#3 d a (3#2 ++ k)]
  | .voteall d a => [packR 0x62#8 0#3 d a 0#7]
  | .voteany d a => [packR 0x63#8 0#3 d a 0#7]
  | .ballot d a => [packR 0x64#8 0#3 d a 0#7]
  | .matchA d a => [packR 0x65#8 0#3 d a 0#7]
  | .scanadd t d a => [packR 0x66#8 t d a 0#7]
  | .scanaddx t d a => [packR 0x67#8 t d a 0#7]
  | .redadd t d a => [packR 0x68#8 t d a 0#7]
  | .redmaxs t d a => [packR 0x69#8 (0#1 ++ t) d a 0#7]
  | .redmaxn t d a => [packR 0x69#8 (1#1 ++ t) d a 0#7]
  | .redmins t d a => [packR 0x6A#8 (0#1 ++ t) d a 0#7]
  | .redminn t d a => [packR 0x6A#8 (1#1 ++ t) d a 0#7]
  | .redor t d a => [packR 0x6B#8 t d a 0#7]
  | .fredadd t d a => [packR 0x6C#8 t d a 0#7]
  | .fscanadd t d a => [packR 0x6D#8 t d a 0#7]
  | .elect d => [packR 0x6E#8 0#3 d 0#7 0#7]
  | .memb d => [packR 0x6F#8 0#3 d 0#7 0#7]
  | .ld8 s d a o => [packR 0x70#8 s d a o]
  | .ld16 s d a o => [packR 0x71#8 s d a o]
  | .ld32 s d a o => [packR 0x72#8 s d a o]
  | .ld64 s d a o => [packR 0x73#8 s d a o]
  | .ld128 s d a o => [packR 0x74#8 s d a o]
  | .ldx8 s d a o => [packR 0x75#8 s d a o]
  | .ldx16 s d a o => [packR 0x76#8 s d a o]
  | .ldx32 s d a o => [packR 0x77#8 s d a o]
  | .st8 d a o => [packR 0x78#8 0#3 d a o]
  | .st16 d a o => [packR 0x79#8 0#3 d a o]
  | .st32 d a o => [packR 0x7A#8 0#3 d a o]
  | .st64 d a o => [packR 0x7B#8 0#3 d a o]
  | .st128 d a o => [packR 0x7C#8 0#3 d a o]
  | .stg64 d a o => [packR 0x7D#8 0#3 d a o]
  | .stg128 d a o => [packR 0x7E#8 0#3 d a o]
  | .pref a o => [packR 0x7F#8 0#3 0#7 a o]
  | .lds8 s d a o => [packR 0x80#8 s d a o]
  | .lds16 s d a o => [packR 0x81#8 s d a o]
  | .lds32 s d a o => [packR 0x82#8 s d a o]
  | .lds64 s d a o => [packR 0x83#8 s d a o]
  | .lds128 s d a o => [packR 0x84#8 s d a o]
  | .sts8 d a o => [packR 0x85#8 0#3 d a o]
  | .sts16 d a o => [packR 0x86#8 0#3 d a o]
  | .sts32 d a o => [packR 0x87#8 0#3 d a o]
  | .sts64 d a o => [packR 0x88#8 0#3 d a o]
  | .sts128 d a o => [packR 0x89#8 0#3 d a o]
  | .atadd32 t d a b => [packR 0x8A#8 (0#1 ++ t) d a b]
  | .atadd64 t d a b => [packR 0x8B#8 (0#1 ++ t) d a b]
  | .atmaxs32 t d a b => [packR 0x8C#8 (0#1 ++ t) d a b]
  | .atmaxn32 t d a b => [packR 0x8D#8 (0#1 ++ t) d a b]
  | .atmins32 t d a b => [packR 0x8E#8 (0#1 ++ t) d a b]
  | .atminn32 t d a b => [packR 0x8F#8 (0#1 ++ t) d a b]
  | .ator64 t d a b => [packR 0x90#8 (0#1 ++ t) d a b]
  | .atand64 t d a b => [packR 0x91#8 (0#1 ++ t) d a b]
  | .atxor64 t d a b => [packR 0x92#8 (0#1 ++ t) d a b]
  | .atxch64 t d a b => [packR 0x93#8 (0#1 ++ t) d a b]
  | .atcas64 t d a b => [packR 0x94#8 (0#1 ++ t) d a b]
  | .fatadd32 t d a b => [packR 0x95#8 (0#1 ++ t) d a b]
  | .fatmax32 t d a b => [packR 0x96#8 (0#1 ++ t) d a b]
  | .waitv t d a b => [packR 0x97#8 t d a b]
  | .capinc d a b => [packR 0x99#8 0#3 d a b]
  | .capnrw d a b => [packR 0x9A#8 0#3 d a b]
  | .capperm d a b => [packR 0x9B#8 0#3 d a b]
  | .capget d k => [packR 0x9C#8 0#3 d 0#7 (0#3 ++ k)]
  | .capchk d a b => [packR 0x9D#8 0#3 d a b]
  | .capscr d a b => [packR 0x9E#8 0#3 d a b]
  | .capmov d a => [packR 0x9F#8 0#3 d a 0#7]
  | .bcopy a => [packR 0xA0#8 0#3 0#7 a 0#7]
  | .bfill a => [packR 0xA1#8 0#3 0#7 a 0#7]
  | .bput a => [packR 0xA2#8 0#3 0#7 a 0#7]
  | .bget a => [packR 0xA3#8 0#3 0#7 a 0#7]
  | .batomAdd d a => [packR 0xA4#8 0#3 d a 0#7]
  | .batomOr d a => [packR 0xA4#8 1#3 d a 0#7]
  | .batomXch d a => [packR 0xA4#8 2#3 d a 0#7]
  | .batomCas d a => [packR 0xA4#8 3#3 d a 0#7]
  | .batomMaxn d a => [packR 0xA4#8 4#3 d a 0#7]
  | .batomFadd d a => [packR 0xA4#8 5#3 d a 0#7]
  | .actr d a b => [packR 0xA5#8 0#3 d a b]
  | .waitc a b => [packR 0xA6#8 0#3 0#7 a b]
  | .actrdBind a b => [packR 0xA7#8 0#3 0#7 a b]
  | .actrdUnbind a b => [packR 0xA7#8 0#3 0#7 a b]
  | .send d a k => [packR 0xA8#8 0#3 d a (0#1 ++ k)]
  | .leaseq d k => [packR 0xA9#8 0#3 d 0#7 (0#1 ++ k)]
  | .mload a => [packR 0xB0#8 0#3 0#7 a 0#7]
  | .mstream a => [packR 0xB2#8 0#3 0#7 a 0#7]
  | .mzero a => [packR 0xB3#8 0#3 0#7 a 0#7]
  | .mread t d a => [packR 0xB4#8 t d a 0#7]
  | .mscale a => [packR 0xB5#8 0#3 0#7 a 0#7]
  | .mnorm a => [packR 0xB6#8 0#3 0#7 a 0#7]
  | .mdrain a z => [packR 0xB7#8 0#3 0#7 a (0#6 ++ z)]
  | .mstat c d => [packR 0xB8#8 (0#2 ++ c) d 0#7 0#7]
  | .bar k => [packR 0xC0#8 0#3 0#7 0#7 (0#3 ++ k)]
  | .sbar k => [packR 0xC1#8 0#3 0#7 0#7 (0#2 ++ k)]
  | .arrive d k => [packR 0xC2#8 0#3 d 0#7 (0#3 ++ k)]
  | .await a k => [packR 0xC3#8 0#3 0#7 a (0#3 ++ k)]
  | .movs d k => [packR 0xE0#8 0#3 d 0#7 k]
  | .movsw a k => [packR 0xE1#8 0#3 0#7 a k]
  | .stampr d a => [packR 0xE2#8 0#3 d a 0#7]
  | .agejoin d a b => [packR 0xE3#8 0#3 d a b]
  | .age d a => [packR 0xE4#8 0#3 d a 0#7]
  | .agechk s a => [packR 0xE5#8 s 0#7 a 0#7]
  | .pagedoneResume a b => [packR 0xE6#8 0#3 0#7 a b]
  | .pagedoneMap a b => [packR 0xE6#8 0#3 0#7 a b]
  | .pagedoneFail a b => [packR 0xE6#8 0#3 0#7 a b]
  | .csrr t d k => [packR 0xE9#8 t d 0#7 k]
  | .csrw t a k => [packR 0xEA#8 t 0#7 a k]
  | .stampsetReg d a b => [packR 0xEB#8 0#3 d a b]
  | .stampsetGranule a b => [packR 0xEB#8 1#3 0#7 a b]
  | .cmapw d a b => [packR 0xEC#8 0#3 d a b]
  | .tlbinv a b => [packR 0xED#8 0#3 0#7 a b]
  | .haltcHalt a b => [packR 0xEE#8 0#3 0#7 a b]
  | .haltcResume a b => [packR 0xEE#8 0#3 0#7 a b]
  | .haltcDebugHalt a b => [packR 0xEE#8 0#3 0#7 a b]
  | .dbgstep a => [packR 0xEF#8 0#3 0#7 a 0#7]
  | .nop => [packR 0x00#8 0#3 0#7 0#7 0#7]
  | .ret => [packR 0x05#8 0#3 0#7 0#7 0#7]
  | .exit => [packR 0x07#8 0#3 0#7 0#7 0#7]
  | .fence => [packR 0x98#8 0#3 0#7 0#7 0#7]
  | .mswap => [packR 0xB1#8 0#3 0#7 0#7 0#7]
  | .tret => [packR 0xE8#8 0#3 0#7 0#7 0#7]
  | .tbuf _ | .tdrop _ | .tlaunch _ | .tcopy _ | .tfill _ | .tstamp _ | .tbr _ | .tbrc _ | .tcall _ | .tretTask _
  | .twaitv _ | .tsig _ | .tmark _ | .tfence _ | .tlease _ | .trotate _ | .tport _ | .tscope _ | .tsetk _ | .taddk _
  | .tbrk _ | .tpagerRegister _ | .tpagerUnregister _ | .tctxCreate _ | .tctxDestroy _ | .tctxHalt _ | .tctxResume _
  | .tctxSetPriority _ | .tnop _ | .longLatencyComplete _ _ _ | .enginePacket _ _ | .engineComplete _ | .sleepEnd _ _
  | .slotAccept _ | .taskIssue _ _ | .taskRetire _ | .cohortAdmit _ | .cohortStart _ | .crewRelease _
  | .rendezvousStall _ _ | .waitvReread _ _ | .waitcReread _ _ | .matrixStep _ | .updateStep _ | .twaitvReread _ _
  | .waitTimeout _ _ | .poolEntryTake _ | .taskFault _ | .freshnessFault _ | .egressRelease _ _ | .ingressConsume _ _
  | .unitStopAck _ _ | .contextRestore _ | .islandPowerDown _ | .islandPowerUp _ | .pagerRecordWrite _ _
  | .stampScanVisit _ | .eftPatrolVisit _ _ | .correctableError _ _ | .uncorrectableDataError _ _ | .coreFault _
  | .coreReset _ | .matrixUnitReset _ | .copyEngineReset _ | .windowLogicReset _ | .memrd _ | .memrdCaching _
  | .memwr _ _ | .memwrptl _ _ _ | .unsupportedRequest _ _ | .birsp _ _ | .hostSnoop _ | .hostLineFill _ _
  | .getCertificate _ _ | .challenge _ | .tickctlWrite _ | .ctx0 _ | .biascmdToHost _ | .biascmdToDevice _
  | .flipComplete _ | .loadFirmwareImage _ | .startFirmware _ | .readFirmwareVersion _ | .readCounts _
  | .hostRegisterWrite _ _ | .stackRead _ _ | .stackWrite _ _ | .stackStampRead _ _ | .stackMailbox _ _ | .timeBeat _
  | .stackResponse _ _ | .flitReceive _ _ | .replayRequest _ _ | .linkDown _ | .rekeyInterrupt _ _
  | .directionStall _ | .timeSync _ | .writePacket _ | .writeAcknowledgement _ | .readRequest _ | .readData _
  | .atomicRequest _ | .atomicResult _ | .egressRecord _ | .reject _ | .leaseRequest _ _ _ _ | .leaseGrant _ _
  | .dropSlotOffer _ | .revocation _ | .leaseRelease _ | .channelSetChange _ _ _ _ _ | .drainEnd _ _ _
  | .retuneSettled _ _ _ | .tableidConfirm _ _ _ _ | .unassignedOpcode _ | .linkUp _ | .unlistedOffsetRead _
  | .deviceTick | .hostLinkReset | .coldReset | .getMeasurements | .bootstGo | .featctlLock | .lkgo | .guardStart
  | .dataWindowStart | .dataWindowEnd => []

/-- The opcode and operands of a task instruction (R70); none for the other rows. -/
def Instr.task : Instr → Option (Nat × TaskSlot)
  | .tbuf sl => some (0x01, sl)
  | .tdrop sl => some (0x02, sl)
  | .tlaunch sl => some (0x03, sl)
  | .tcopy sl => some (0x04, sl)
  | .tfill sl => some (0x05, sl)
  | .tstamp sl => some (0x06, sl)
  | .tbr sl => some (0x07, sl)
  | .tbrc sl => some (0x08, sl)
  | .tcall sl => some (0x09, sl)
  | .tretTask sl => some (0x0A, sl)
  | .twaitv sl => some (0x0B, sl)
  | .tsig sl => some (0x0C, sl)
  | .tmark sl => some (0x0D, sl)
  | .tfence sl => some (0x0E, sl)
  | .tlease sl => some (0x0F, sl)
  | .trotate sl => some (0x10, sl)
  | .tport sl => some (0x11, sl)
  | .tscope sl => some (0x12, sl)
  | .tsetk sl => some (0x13, sl)
  | .taddk sl => some (0x14, sl)
  | .tbrk sl => some (0x15, sl)
  | .tpagerRegister sl => some (0x16, sl)
  | .tpagerUnregister sl => some (0x16, sl)
  | .tctxCreate sl => some (0x17, sl)
  | .tctxDestroy sl => some (0x17, sl)
  | .tctxHalt sl => some (0x17, sl)
  | .tctxResume sl => some (0x17, sl)
  | .tctxSetPriority sl => some (0x17, sl)
  | .tnop sl => some (0x18, sl)
  | .bra _ | .bz _ _ | .bnz _ _ | .call _ | .jmpr _ | .cjoin _ | .bmask _ _ | .cleave _ | .winb _ | .rep _ _
  | .trap _ | .bkpt _ | .sleep _ | .add _ _ _ _ | .addi _ _ _ _ | .sub _ _ _ _ | .mul _ _ _ _ | .mulhs _ _ _ _
  | .mulhn _ _ _ _ | .mad _ _ _ _ _ | .mins _ _ _ _ | .minn _ _ _ _ | .maxs _ _ _ _ | .maxn _ _ _ _ | .abs _ _ _
  | .neg _ _ _ | .and _ _ _ | .or _ _ _ | .xor _ _ _ | .andn _ _ _ | .not _ _ | .shl _ _ _ _ | .shr _ _ _ _
  | .sra _ _ _ _ | .shli _ _ _ _ | .shri _ _ _ _ | .srai _ _ _ _ | .rotl _ _ _ _ | .popc _ _ _ | .clz _ _ _
  | .brev _ _ _ | .bfx _ _ _ | .bfi _ _ _ _ | .cmpeq _ _ _ _ | .cmplts _ _ _ _ | .cmpltn _ _ _ _ | .cmples _ _ _ _
  | .cmplen _ _ _ _ | .sel _ _ _ _ _ | .mov _ _ | .li _ _ | .lih _ _ _ | .lea _ _ _ | .fadd _ _ _ _ | .fsub _ _ _ _
  | .fmul _ _ _ _ | .ffma _ _ _ _ _ | .fmin _ _ _ _ | .fmax _ _ _ _ | .fabs _ _ _ | .fneg _ _ _ | .fcmpeq _ _ _ _
  | .fcmplt _ _ _ _ | .fcmple _ _ _ _ | .fcmpun _ _ _ _ | .frcp _ _ _ | .frsq _ _ _ | .fsqrt _ _ _ | .fexp2 _ _ _
  | .flog2 _ _ _ | .fsin _ _ _ | .fcos _ _ _ | .fscale _ _ _ _ | .fclass _ _ _ | .fdot _ _ _ _ | .fsum _ _ _
  | .fcvt _ _ _ _ | .fcvtam _ _ _ _ | .f2i _ _ _ _ | .i2f _ _ _ _ | .qpack _ _ _ _ | .qpackGs _ _ | .qpackBs _ _ _
  | .qunpk _ _ _ _ | .fpack _ _ _ _ | .funpk _ _ _ | .shfl _ _ _ | .shfliIdx _ _ _ | .shfliUp _ _ _
  | .shfliDown _ _ _ | .shfliXor _ _ _ | .voteall _ _ | .voteany _ _ | .ballot _ _ | .matchA _ _ | .scanadd _ _ _
  | .scanaddx _ _ _ | .redadd _ _ _ | .redmaxs _ _ _ | .redmaxn _ _ _ | .redmins _ _ _ | .redminn _ _ _
  | .redor _ _ _ | .fredadd _ _ _ | .fscanadd _ _ _ | .elect _ | .memb _ | .ld8 _ _ _ _ | .ld16 _ _ _ _
  | .ld32 _ _ _ _ | .ld64 _ _ _ _ | .ld128 _ _ _ _ | .ldx8 _ _ _ _ | .ldx16 _ _ _ _ | .ldx32 _ _ _ _ | .st8 _ _ _
  | .st16 _ _ _ | .st32 _ _ _ | .st64 _ _ _ | .st128 _ _ _ | .stg64 _ _ _ | .stg128 _ _ _ | .pref _ _ | .lds8 _ _ _ _
  | .lds16 _ _ _ _ | .lds32 _ _ _ _ | .lds64 _ _ _ _ | .lds128 _ _ _ _ | .sts8 _ _ _ | .sts16 _ _ _ | .sts32 _ _ _
  | .sts64 _ _ _ | .sts128 _ _ _ | .atadd32 _ _ _ _ | .atadd64 _ _ _ _ | .atmaxs32 _ _ _ _ | .atmaxn32 _ _ _ _
  | .atmins32 _ _ _ _ | .atminn32 _ _ _ _ | .ator64 _ _ _ _ | .atand64 _ _ _ _ | .atxor64 _ _ _ _ | .atxch64 _ _ _ _
  | .atcas64 _ _ _ _ | .fatadd32 _ _ _ _ | .fatmax32 _ _ _ _ | .waitv _ _ _ _ | .capinc _ _ _ | .capnrw _ _ _
  | .capperm _ _ _ | .capget _ _ | .capchk _ _ _ | .capscr _ _ _ | .capmov _ _ | .bcopy _ | .bfill _ | .bput _
  | .bget _ | .batomAdd _ _ | .batomOr _ _ | .batomXch _ _ | .batomCas _ _ | .batomMaxn _ _ | .batomFadd _ _
  | .actr _ _ _ | .waitc _ _ | .actrdBind _ _ | .actrdUnbind _ _ | .send _ _ _ | .leaseq _ _ | .mload _ | .mstream _
  | .mzero _ | .mread _ _ _ | .mscale _ | .mnorm _ | .mdrain _ _ | .mstat _ _ | .bar _ | .sbar _ | .arrive _ _
  | .await _ _ | .movs _ _ | .movsw _ _ | .stampr _ _ | .agejoin _ _ _ | .age _ _ | .agechk _ _ | .pagedoneResume _ _
  | .pagedoneMap _ _ | .pagedoneFail _ _ | .csrr _ _ _ | .csrw _ _ _ | .stampsetReg _ _ _ | .stampsetGranule _ _
  | .cmapw _ _ _ | .tlbinv _ _ | .haltcHalt _ _ | .haltcResume _ _ | .haltcDebugHalt _ _ | .dbgstep _
  | .longLatencyComplete _ _ _ | .enginePacket _ _ | .engineComplete _ | .sleepEnd _ _ | .slotAccept _
  | .taskIssue _ _ | .taskRetire _ | .cohortAdmit _ | .cohortStart _ | .crewRelease _ | .rendezvousStall _ _
  | .waitvReread _ _ | .waitcReread _ _ | .matrixStep _ | .updateStep _ | .twaitvReread _ _ | .waitTimeout _ _
  | .poolEntryTake _ | .taskFault _ | .freshnessFault _ | .egressRelease _ _ | .ingressConsume _ _ | .unitStopAck _ _
  | .contextRestore _ | .islandPowerDown _ | .islandPowerUp _ | .pagerRecordWrite _ _ | .stampScanVisit _
  | .eftPatrolVisit _ _ | .correctableError _ _ | .uncorrectableDataError _ _ | .coreFault _ | .coreReset _
  | .matrixUnitReset _ | .copyEngineReset _ | .windowLogicReset _ | .memrd _ | .memrdCaching _ | .memwr _ _
  | .memwrptl _ _ _ | .unsupportedRequest _ _ | .birsp _ _ | .hostSnoop _ | .hostLineFill _ _ | .getCertificate _ _
  | .challenge _ | .tickctlWrite _ | .ctx0 _ | .biascmdToHost _ | .biascmdToDevice _ | .flipComplete _
  | .loadFirmwareImage _ | .startFirmware _ | .readFirmwareVersion _ | .readCounts _ | .hostRegisterWrite _ _
  | .stackRead _ _ | .stackWrite _ _ | .stackStampRead _ _ | .stackMailbox _ _ | .timeBeat _ | .stackResponse _ _
  | .flitReceive _ _ | .replayRequest _ _ | .linkDown _ | .rekeyInterrupt _ _ | .directionStall _ | .timeSync _
  | .writePacket _ | .writeAcknowledgement _ | .readRequest _ | .readData _ | .atomicRequest _ | .atomicResult _
  | .egressRecord _ | .reject _ | .leaseRequest _ _ _ _ | .leaseGrant _ _ | .dropSlotOffer _ | .revocation _
  | .leaseRelease _ | .channelSetChange _ _ _ _ _ | .drainEnd _ _ _ | .retuneSettled _ _ _ | .tableidConfirm _ _ _ _
  | .unassignedOpcode _ | .linkUp _ | .unlistedOffsetRead _ | .nop | .ret | .exit | .fence | .mswap | .tret
  | .deviceTick | .hostLinkReset | .coldReset | .getMeasurements | .bootstGo | .featctlLock | .lkgo | .guardStart
  | .dataWindowStart | .dataWindowEnd => none

/-- The operands of a slot from its four words (R69). -/
def slotOperands (w0 b c d : Word) : TaskSlot :=
  { flags := w0.extractLsb' 32 8, a := w0.extractLsb' 0 32, b := b, c := c, d := d }

/-- The task instruction of an opcode: `TPAGER` and `TCTX` have one row for each operation, chosen in A (R336, R368). -/
def taskOf (op : Nat) (sl : TaskSlot) : Option Instr :=
  match op with
  | 1 => some (.tbuf sl)
  | 2 => some (.tdrop sl)
  | 3 => some (.tlaunch sl)
  | 4 => some (.tcopy sl)
  | 5 => some (.tfill sl)
  | 6 => some (.tstamp sl)
  | 7 => some (.tbr sl)
  | 8 => some (.tbrc sl)
  | 9 => some (.tcall sl)
  | 10 => some (.tretTask sl)
  | 11 => some (.twaitv sl)
  | 12 => some (.tsig sl)
  | 13 => some (.tmark sl)
  | 14 => some (.tfence sl)
  | 15 => some (.tlease sl)
  | 16 => some (.trotate sl)
  | 17 => some (.tport sl)
  | 18 => some (.tscope sl)
  | 19 => some (.tsetk sl)
  | 20 => some (.taddk sl)
  | 21 => some (.tbrk sl)
  | 24 => some (.tnop sl)
  | 22 =>
    match bits sl.a.toNat 7 4 with
    | 0 => some (.tpagerRegister sl)
    | 1 => some (.tpagerUnregister sl)
    | _ => none
  | 23 =>
    match bits sl.a.toNat 3 0 with
    | 0 => some (.tctxCreate sl)
    | 1 => some (.tctxDestroy sl)
    | 2 => some (.tctxHalt sl)
    | 3 => some (.tctxResume sl)
    | 4 => some (.tctxSetPriority sl)
    | _ => none
  | _ => none

/-- Decode a slot from its four words; none is an illegal task (R69, R70). The SEQ field is the sequencer's to judge. -/
def decodeSlot (w0 b c d : Word) : Option Instr :=
  match taskOf (bits w0.toNat 47 40) (slotOperands w0 b c d) with
  | none => none
  | some i => if i.wf then some i else none

/-- The four words of a task slot with sequence number `seq` (R69). -/
def encodeSlot (seq : BitVec 16) (i : Instr) : Option (Word × Word × Word × Word) :=
  match i.task with
  | none => none
  | some (op, sl) => some (seq ++ BitVec.ofNat 8 op ++ sl.flags ++ sl.a, sl.b, sl.c, sl.d)

/-- The bytes of an instruction whose bits are `w`, as spec/opcode_table.json numbers them: words little-endian, first word
first, the bits above `nbits` zero, up to the two words of the longest instruction. -/
def tableBytes (nbits w : Nat) : List Byte := toBytes 8 (w % 2 ^ nbits)

/-- What the decoder reads from an instruction of the opcode table. -/
def decodeTableWord (nbits w : Nat) : Option Instr :=
  match decodeBytes (tableBytes nbits w) with
  | .error _ => none
  | .ok (i, _) => some i

end Sys2Proof
end

