-- ==== Sys2Proof/Config.lean ====
section
/-!
DEFINITION. What an implementation of the Sormin fixes and the free values: constants without a body, about which nothing
can be proved, so that a claim holds whatever they are (log entries 2, 3, 9). The figures of spec/00_scope.md R2 are here too.
-/

namespace Sys2Proof.Config

/-! ### Figures (spec/00_scope.md R2) -/

/-- Compute dies of a package. -/
def dies : Nat := 8
/-- Clusters of a die. -/
def clustersPerDie : Nat := 48
/-- Cores of a cluster. -/
def coresPerCluster : Nat := 8
/-- Cores of a die. -/
def coresPerDie : Nat := 384
/-- Cores of a package. -/
def cores : Nat := 3072
/-- Thread slots of a core. -/
def threadSlots : Nat := 1024
/-- Registers of one partition of a core: a quarter of 131,072 (R2, R15). -/
def partRegs : Nat := 32768
/-- Scratchpad bytes of a core. -/
def scratchBytes : Nat := 262144
/-- Accumulator bytes of a cluster. -/
def accBytes : Nat := 4194304
/-- Plane pairs of a matrix engine (R277). -/
def planePairs : Nat := 16
/-- Entries of a core's outstanding-transaction table (R241). -/
def otEntries : Nat := 256
/-- Entries of a context's window (R82). -/
def windowEntries : Nat := 256
/-- Entries of a die's object table (R233). -/
def objEntries : Nat := 1024
/-- First address of the scratchpad window (R216). -/
def scratchWindow : Nat := 0xFFFFFFFFFC0000
/-- Outstanding flits a link's replay buffer holds (R399). -/
def replayFlits : Nat := 4096

/-! ### Free values

DESIGN CHOICE (log 2): each is a function without a body. -/

/-- The n-th free value of a run: a value or a choice that the spec leaves open. -/
opaque freeNat : Nat → Nat

/-! ### Functions the spec names and does not give (log 9) -/

/-- CRC-32 of a flit's first 252 bytes with a seed (R398). -/
opaque crc32 : Nat → List Byte → BitVec 32
/-- The payload of a control or time flit, whose layout the spec does not give, from the message as numbers (R376, R395). -/
opaque ctlPayload : List Nat → List Byte
/-- AES-256-GCM: the tag of a flit, from key, nonce, HEAD and ciphertext (R401). -/
opaque gcmTag : BitVec 256 → BitVec 96 → List Byte → List Byte → BitVec 64
/-- AES-256-GCM: the 240 bytes of key stream that turn PAYLOAD into ciphertext and back, from key and nonce (R401). -/
opaque gcmStream : BitVec 256 → BitVec 96 → BitVec 1920
/-- Whether an image's ECDSA P-384 signature verifies against a fused key (R426). -/
opaque ecdsaOk : List Byte → Bool
/-- Whether an image's LMS signature verifies against a fused key (R426). -/
opaque lmsOk : List Byte → Bool
/-- The security version in an image's header (R426). -/
opaque imageVersion : List Byte → Nat
/-- The SHA-384 digest of an image (R426, R428). -/
opaque sha384 : List Byte → BitVec 384
/-- The fused minimum security version (R426). -/
opaque minVersion : Nat
/-- The device certificate chain (R428). -/
opaque certChain : List Byte
/-- The device's SPDM signature over a message (R428). -/
opaque spdmSign : List Byte → List Byte
/-- The firmware version an Eft reports, from its image (R424). -/
opaque fwVersion : List Byte → Nat
/-- The bytes of the firmware image that command 1 of a stack's mailbox reads at an address (R424 gives no length). -/
opaque fwImageLen : Nat → Nat
/-- The bytes of a context's saved image, whose format is the device's own (R335), from the number of saves made before. -/
opaque imageBytes : Nat → List Byte
/-- Whether a stack whose firmware image is given starts its Eft (R426, R427). -/
opaque eftStarts : List Byte → Bool
/-- Whether island i reaches regulation within its 20 microseconds (R431). -/
opaque islandOk : Nat → Bool
/-- Whether all 16 stacks report the same height (R419, R427). -/
opaque heightsOk : Bool

end Sys2Proof.Config
end

