-- ==== Sys2Proof/Machine/State.lean ====
section
/-!
DEFINITION. Everything the spec gives the machine, as plain data: threads, crews, cohorts, contexts with their windows,
engine threads, memory with its stamps and poison, the host link, the memory stacks and the fabric; then the reset state.
INVENTORY.md, '## State', gives the rule of spec/ and the reset value of every field.
-/

namespace Sys2Proof.Machine

/-! ### Values -/

/-- A number of a float format, exactly (spec/04_number_formats.md R110 to R113): a NaN with its signalling bit, an infinity,
or (-1)^neg * m * 2^e. -/
inductive FVal where
  | nan (signalling : Bool)
  | inf (neg : Bool)
  | fin (neg : Bool) (m : Nat) (e : Int)
  deriving DecidableEq, Repr

/-- A value with its stamp (R45). -/
structure Reg where
  v : Word
  s : Stamp
  deriving DecidableEq, Repr

/-- A version of a logical buffer: its block's virtual address and size class, and whether it is a lease object with an
object-table entry on every die (R78, R81, R92). -/
structure Ver where
  va : Nat
  cls : Nat
  lobj : Bool
  deriving DecidableEq, Repr

/-- A 128-bit capability as its two register words (R147). -/
structure CapW where
  lo : Word
  hi : Word
  deriving DecidableEq, Repr

/-! ### Memory -/

/-- One store: device memory, host memory, a scratchpad or an accumulator allotment. Each list is canonical (`Memory.wf`):
keys strictly rise and no entry equals what an unlisted key reads as. Bytes are keyed by address, stamps and poison by
granule number (address / 32), tag bits by 16-byte word number (address / 16). `writes` is the model's own count of the writes of a
granule, which a waiting read compares (R101, R239, R268); no instruction reads it. -/
structure Memory where
  bytes : List Host.Cell
  stamps : List (Nat × Stamp)
  poison : List (Nat × Bool)
  tags : List (Nat × Bool)
  writes : List (Nat × Nat)
  deriving DecidableEq, Repr

/-- What a byte that nothing has written reads as. DESIGN CHOICE (log 4) for memory after power-on; R228, R277 for the rest. -/
def Memory.unlisted : Byte := 0#8
/-- The stamp of a granule that nothing has stamped: VACANT (R39, R78, R228). -/
def Memory.unlistedStamp : Stamp := 0xC0000000#32

/-- A store with nothing listed. -/
def Memory.empty : Memory := { bytes := [], stamps := [], poison := [], tags := [], writes := [] }

/-- The canonical form of a store. -/
def Memory.wf (m : Memory) : Bool :=
  AList.wf Memory.unlisted m.bytes && AList.wf Memory.unlistedStamp m.stamps && AList.wf false m.poison
    && AList.wf false m.tags && AList.wf 0 m.writes

/-! ### Threads -/

/-- A program counter: clause header address and slot index (R143). -/
structure PC where
  hdr : Nat
  slot : Nat
  deriving DecidableEq, Repr

/-- A clause as one read gave it (R143). -/
structure Clause where
  header : BitVec 32
  slots : List (BitVec 32)
  deriving DecidableEq, Repr

/-- The register results of one fixed-latency instruction, visible from cycle `due` on (R24, R123, R155, R164): registers with
their stamps, pair tags, sticky flags set and cleared, `stale` bits set and cleared, the `amax` candidate, and special
registers and thread-scope CSRs (numbered from 1,024 on) written whole. -/
structure Pend where
  due : Nat
  regs : List (Nat × Reg) := []
  tags : List (Nat × Bool) := []
  fset : BitVec 6 := 0#6
  fclr : BitVec 6 := 0#6
  sset : BitVec 9 := 0#9
  sclr : BitVec 9 := 0#9
  amax : BitVec 32 := 0#32
  sregs : List (Nat × Word) := []
  deriving DecidableEq, Repr

/-- What a class-L operation waits for before it can complete. -/
inductive LWait where
  /-- Nothing: it may complete no earlier than cycle `from` (R163). -/
  | ready (fromCycle : Nat)
  /-- The completion of earlier operations of the thread (`FENCE`, R242). -/
  | ops (ids : List Nat)
  /-- An engine thread (R257). -/
  | engine (e : Nat)
  /-- A matrix command (R278). -/
  | command (id : Nat)
  /-- Accesses of threads (crew, `tid`, operation) that may have used an invalidated translation, with the cached translations
  that go when they have completed (R332, R364). -/
  | accesses (ids : List (Nat × Nat × Nat)) (gone : List (Nat × Nat × Nat))
  /-- Its own place in the SC order: the access has issued and has not been made (R219). -/
  | place
  deriving DecidableEq, Repr

/-- A class-L operation issued and not complete (R141, R241): the flag it will lower, whether it holds an entry of the
outstanding-transaction table, and the result it will write. -/
structure LOp where
  id : Nat
  flag : Option Nat
  entry : Bool
  /-- Whether it is an access that a `FENCE` waits for (R242). -/
  access : Bool := false
  wait : LWait
  regs : List (Nat × Reg) := []
  tags : List (Nat × Bool) := []
  fset : BitVec 6 := 0#6
  sset : BitVec 9 := 0#9
  ditherInc : Nat := 0
  /-- The rendezvous whose joined threads all receive their results together (R34). -/
  group : Option Nat := none
  deriving DecidableEq, Repr

/-- What a Held thread waits for (R22). -/
inductive Hold where
  /-- Convergence barrier k of its team (R195). -/
  | cjoin (k : Nat)
  /-- A rendezvous of its crew (R32). -/
  | rendezvous (id : Nat)
  /-- Crew barrier k, generation at arrival (R210). -/
  | bar (k : Nat) (gen : BitVec 32)
  /-- The scope barrier of group g, generation at arrival (R212). -/
  | sbar (g : Nat) (gen : Nat)
  /-- Crew barrier k's generation to differ from a token (R210). -/
  | await (k : Nat) (token : BitVec 32)
  /-- An arrival counter at a scratchpad offset to reach a signed target (R268), with the write count of its granule at the last read
  (none when it is to read again whatever the count). The PC stays at the instruction. -/
  | waitc (off : Nat) (target : Word) (seen : Option Nat)
  /-- A memory word to satisfy a condition: the physical register of D, the address, the condition code and the comparand
  (R239), and the place of the last read, in host memory or not, with its write count as above. The PC stays at the instruction. -/
  | waitv (d : Option Nat) (addr : Nat) (cond : Nat) (b : Word) (seen : Option (Bool × Nat × Nat))
  deriving DecidableEq, Repr

/-- Why a thread is Parked (R31). -/
inductive Park where
  /-- A translation fault in the 64 KiB unit that pager p of its context covers (R370). -/
  | pager (p unit : Nat)
  /-- A translation fault that no pager covers, or a structure fault: only the squash of its task ends it (R365, R366). -/
  | untilSquash
  deriving DecidableEq, Repr

/-- The state of a resident thread (R22); Ready and Waiting differ by R23 alone. -/
inductive TState where
  | running
  | held (h : Hold)
  | parked (p : Park)
  | sleeping (cycles : Nat)
  /-- Stopped by pre-emption, halt or debug halt, with the state it will resume in. -/
  | stopped
  /-- Stopped for good by an escalated trap (R203). -/
  | escalated
  | exited
  deriving DecidableEq, Repr

/-- One thread (R21, R155, R321). -/
structure Thread where
  crew : Nat
  tid : Nat
  pc : PC
  clause : Option Clause
  regs : List Reg
  tags : List Bool
  flags : List Nat
  pend : List Pend
  lops : List LOp
  fpmode : BitVec 4
  fpstat : BitVec 6
  amax : BitVec 32
  xmask : BitVec 32
  stale : BitVec 9
  wbase : BitVec 8
  stkptr : Word
  repctr : BitVec 7
  dither : BitVec 6
  abs : List Word
  ecause : Word
  epc : Word
  edetail : Word
  elanes : Word
  ewbase : Word
  erep : Word
  ememb : Word
  hnd : Bool
  ctxsel : BitVec 6
  dbgsel : Word
  st : TState
  /-- The state to resume when a stop ends. -/
  resume : TState
  /-- The cycle of the last issue (R23). -/
  lastIssue : Option Nat
  readySince : Option Nat
  notBefore : Nat
  /-- The cycle in which a Parked state last ended: the thread counts as parked up to its end (R37). -/
  resumedAt : Option Nat
  /-- The cycle of the last completion of one of its operations, after which its later accesses come (R301). -/
  doneAt : Nat
  /-- The cycle of its last read attempt of a `WAITV`, which takes an entry of the outstanding-transaction table (R241). -/
  triedAt : Option Nat
  /-- Threads that must issue or leave the Ready state before this one issues again (R25). -/
  yieldFor : List (Nat × Nat)
  deriving DecidableEq, Repr

/-- An access that has issued and has no place in the SC order yet (R219): its thread and operation, its instruction, the thread
as it was before the issue, and what the threads of its bundle read. -/
structure Late where
  crew : Nat
  tid : Nat
  op : Nat
  instr : Instr
  before : Thread
  view : Thread
  views : List Thread
  deriving DecidableEq, Repr

/-- How the bundle under way makes its accesses (R219): at this issue, or at places of their own; one that waits for a line the host may
hold; or the making of an access that had issued before. -/
inductive Issuing where
  | now
  | late
  | stalled
  | place (l : Late)
  deriving DecidableEq, Repr

/-- Memory as it was in an earlier cycle, which a load may still return (R308). -/
structure Past where
  cycle : Nat
  mem : Memory
  hmem : Memory
  deriving DecidableEq, Repr

/-- A write of the device's own at a virtual address of a context, which waits for a line that the host may hold (R412): its bytes and
the interrupt that follows it; or the restoring of a row of a region (R87): the undo version, where it begins in the buffer, the buffer's
version, the row's offset and length. -/
inductive Owed where
  | write (va : Nat) (bytes : List Byte) (vec : Option Nat)
  | restore (src base dst off n : Nat)
  deriving DecidableEq, Repr

/-! ### Crews and cohorts -/

/-- A convergence barrier of one team (R29). -/
structure CBar where
  mask : BitVec 32
  arr : BitVec 32
  deriving DecidableEq, Repr

/-- A crew barrier (R210): its generation, the threads recorded as arrived, and the cycle of its last release. -/
structure CrewBar where
  gen : BitVec 32
  arrived : List Nat
  released : Option Nat
  deriving DecidableEq, Repr

/-- One lane's contribution to a rendezvous: its register inputs, the age bound its instruction names, the physical register
of its result, the flag it raised. -/
structure RJoin where
  tid : Nat
  a : Reg
  b : Reg
  c : Reg
  bound : Word
  d : Option Nat
  flag : Option Nat
  /-- OVN of the thread's `fpmode` when it joined (R116). -/
  ovn : Bool := false
  deriving DecidableEq, Repr

/-- A rendezvous (R32, R35). -/
structure Rdv where
  id : Nat
  team : Nat
  pc : PC
  mask : BitVec 32
  instr : Instr
  joins : List RJoin
  born : Nat
  timer : Nat
  limit : Nat
  deriving DecidableEq, Repr

/-- A weight plane: 128 x 128 weights keyed by 128 * k + n, its stamp and its format code, 7 when empty (R277, R283). -/
structure Plane where
  w : List (Nat × FVal)
  s : Stamp
  fmt : Nat
  deriving DecidableEq, Repr

/-- One event by which an update command writes memory (R293, R295, R299): a weight granule, an atomic add, an atomic maximum. -/
inductive CmdOut where
  | put (pa : Nat) (bytes : List Byte) (s : Stamp)
  | add (pa x : Nat) (s : Stamp)
  | max (pa x : Nat) (s : Stamp)
  deriving DecidableEq, Repr

/-- A matrix or update command in a crew's queue (R278): the instruction, the cycle and `tid` it entered with, the issuing or
joined threads with their operations, the registers read at issue, the source capabilities by lane, the age bounds by lane,
the physical register of D, `fpmode`, PHASE, and the rows done; of an update command whether its tile is worked out, the writes that it
has still to make, and whether it zeroes its tile after them. -/
structure MCmd where
  id : Nat
  instr : Instr
  born : Nat
  tid : Nat
  issuers : List (Nat × Nat)
  words : List Reg
  srcs : List (Nat × CapW)
  bounds : List (Nat × Word)
  dreg : Option Nat
  fpmode : BitVec 4
  phase : Nat
  done : Nat
  /-- Whether a page fault holds it (R282). -/
  held : Bool := false
  ready : Bool := false
  outs : List CmdOut := []
  zt : Bool := false
  deriving DecidableEq, Repr

/-- One crew (R10, R14, R19). -/
structure Crew where
  uid : Nat
  ctx : Nat
  task : Nat
  cohort : Nat
  crewid : Nat
  core : Nat
  slot : Nat
  nthread : Nat
  nregs : Nat
  scr : Memory
  scrSize : Nat
  cbs : List (List CBar)
  bars : List CrewBar
  tvec : Word
  pendTvec : List (Nat × Word)
  rdvs : List Rdv
  active : Plane
  shadow : Plane
  mq : List MCmd
  mf : BitVec 6
  drained : Bool
  deriving DecidableEq, Repr

/-- One cohort (R10, R277, R356). -/
structure Cohort where
  uid : Nat
  ctx : Nat
  task : Nat
  cohortid : Nat
  die : Nat
  cluster : Nat
  ncrew : Nat
  acc : Memory
  accBytes : Nat
  admitted : Nat
  started : Option Nat
  saved : Bool
  deriving DecidableEq, Repr

/-! ### Tasks and contexts -/

/-- A position of a task stream (R64, R98): ring index, the procedure positions from the innermost out, k0 to k15. -/
structure Pos where
  ring : Nat
  frames : List Nat
  ks : List Word
  deriving DecidableEq, Repr

/-- A defined logical buffer (R78, R92). -/
structure LBuf where
  n : Nat
  size : Nat
  lobj : Bool
  ver : Ver
  deriving DecidableEq, Repr

/-- A region of a task (R74), resolved to its version; a one-dimensional region has one row. -/
structure Region where
  kind : Nat
  lb : Nat
  d2 : Bool
  off : Nat
  rows : Nat
  rowb : Nat
  pitch : Nat
  size : Nat
  ver : Ver
  deriving DecidableEq, Repr

/-- A launch packet as decoded (R90). -/
structure Launch where
  code : CapW
  args : CapW
  regs : Nat
  threads : Nat
  crews : Nat
  cohorts : Nat
  prio : Nat
  acc : Nat
  scr : Nat
  imm : Bool
  replay : Nat
  stagger : Nat
  nreg : Nat
  deriving DecidableEq, Repr

/-- A fault of the task layer (R87, R324, R329). -/
structure TFault where
  code : Nat
  sub : Nat
  thsub : Nat := 0
  thread : Option (Nat × Nat × Nat) := none
  detail : Nat
  deriving DecidableEq, Repr

/-- An effect that waits for retirement (R85, R86): a signal (R102), a mark (R103), a record of an egress port (R274), the
bytes of a copy to host memory (R94), a destruction of the issuing context (R336). `done` is its journal mark (R358). -/
inductive StagedKind where
  | signal (cell : Nat) (value : Word) (orOp : Bool) (vector : Option Nat)
  | mark (cell : Nat) (tag : Word)
  | record (port : Nat) (data : List Byte) (stamps : List Stamp) (block : Option Ver)
  | hostCopy (va : Nat) (data : List Byte) (stamps : List Stamp) (block : Option Ver)
  | destroySelf
  deriving DecidableEq, Repr

/-- A staged effect with the order of its issue and its progress: 0 nothing done, then the steps of R274. -/
structure Staged where
  seq : Nat
  kind : StagedKind
  progress : Nat
  deriving DecidableEq, Repr

/-- How far a task is (R83, R84). -/
inductive TaskStat where
  | waiting
  | issued
  | complete
  deriving DecidableEq, Repr

/-- One window entry (R82): the decoded task, its regions and versions, its progress, its held fault, its staged effects, the ingress data
it has taken (a byte without a stamp is stamped when it is written, R46); `order` is its own number, or that of the copy it re-issues
(R58); `lastRead` holds when a read of its cell, in time for its timeout, waits for the host (R101, R412). -/
structure Task where
  uid : Nat
  op : Nat
  slot : TaskSlot
  addr : Nat
  ringIdx : Option Nat
  before : Pos
  after : Pos
  beforeMap : List LBuf
  afterMap : List LBuf
  skipped : Bool
  stat : TaskStat
  fault : Option TFault
  regions : List Region
  words : List Word
  news : List Ver
  olds : List Ver
  undo : List (Region × Ver)
  launch : Option Launch
  nextCohort : Nat
  lastStart : Option Nat
  t0 : Nat
  seen : Option Nat
  lastRead : Bool
  staged : List Staged
  replays : Nat
  taken : List (List (Byte × Option Stamp))
  order : Nat
  deriving DecidableEq, Repr

/-- A context port (R105, R271): kind, bound word, descriptor words, producer and consumer counts, and ingress data taken from
the ring that no copy has: the rest of a split record, and (`back`) what squashed copies had taken, kept for them (R94). A port that a
`TPORT` replaces while older records wait in it lives on under a number above 63. -/
structure Port where
  n : Nat
  kind : Nat
  bound : Word
  desc : List Word
  prod : Nat
  cons : Nat
  remainder : List (List (Byte × Option Stamp))
  back : List (List (Byte × Option Stamp))
  deriving DecidableEq, Repr

/-- An agent whose access meets a translation fault (R366, R439). -/
inductive Joiner where
  | thread (cr tid : Nat)
  | packet (e p : Nat)
  | command (cr id : Nat)
  | retirement (c : Nat)
  | task (c t : Nat)
  | fabric (n : Nat)
  deriving DecidableEq, Repr

/-- An outstanding pager record (R369): its number, unit and joined agents, each with the address of its access. -/
structure PRec where
  n : Nat
  unit : Nat
  joined : List (Joiner × Nat)
  deriving DecidableEq, Repr

/-- A fault that waits for a record position (R370). -/
structure PFault where
  unit : Nat
  kind : Nat
  acc : Nat
  time : Nat
  joined : List (Joiner × Nat)
  deriving DecidableEq, Repr

/-- A registered pager (R367 to R370). -/
structure Pager where
  p : Nat
  base : Nat
  limit : Nat
  sctx : Nat
  qlb : Nat
  logq : Nat
  next : Nat
  recs : List PRec
  waiting : List PFault
  deriving DecidableEq, Repr

/-- A bound delivery tag (R269). -/
structure DTag where
  tag : Nat
  crew : Nat
  off : Nat
  deriving DecidableEq, Repr

/-- The barrier of one scope group within one launch (R212). -/
structure SBar where
  task : Nat
  group : Nat
  gen : Nat
  arrived : List (Nat × Nat)
  released : Option Nat
  deriving DecidableEq, Repr

/-- Why a context is being stopped (R353, R336, R335). -/
inductive StopKind where
  | preempt
  | halt
  | destroy
  deriving DecidableEq, Repr

/-- A stop in progress: its kind, the units still to acknowledge, whether a resume arrived meanwhile (R354), and the `TCTX`
tasks that wait for it. -/
structure Stop where
  kind : StopKind
  waiting : List StopUnit
  resumeAsked : Bool
  tasks : List (Nat × Nat)
  deriving DecidableEq, Repr

/-- One context (R335 to R337, R64 to R106). -/
structure Ctx where
  num : Nat
  priv : Bool
  prio : Nat
  part : Nat
  dcn : Nat
  stream : Nat
  logs : Nat
  hcap : CapW
  ctl : Word
  pendCtl : List (Nat × Word)
  tvec : Word
  save : Nat
  savesz : Nat
  faultAddr : Nat
  fvec : Nat
  firq : Bool
  root : Nat
  dhalt : Bool
  refused : Bool
  steps : Nat
  dbgwho : Word
  faulted : Bool
  halted : Bool
  stop : Option Stop
  saved : Bool
  /-- The seal bytes written with the saved image, for the check on restore (R335). -/
  sealBytes : List Byte
  /-- The retirement under way: the task whose journal is valid, and its step (R358). -/
  journal : Option (Nat × Nat)
  /-- Whether the journal is being recovered after a reset: nothing is accepted until its task has retired (R358, R359). -/
  recovering : Bool
  /-- The unit of a held retirement write that its pager failed: the write is dropped when retirement comes to it (R439). -/
  dropWrite : Option Nat
  gen : Nat
  retired : Pos
  accept : Pos
  map : List LBuf
  rmap : List LBuf
  window : List Task
  free : List Ver
  /-- The parts of fresh versions (address, bytes, within a 64 KiB unit) that had no translation when they were drawn: they are made
  VACANT when their unit is first reached (R78). -/
  unvacated : List (Nat × Nat)
  owned : List (Nat × Nat)
  poolIdx : Nat
  ports : List Port
  groups : List (Nat × List Nat)
  sbars : List SBar
  dtags : List DTag
  pagers : List Pager
  /-- Outstanding records of destroyed contexts in queues of this one: logical buffer, size and number (R371). -/
  orphans : List (Nat × Nat × Nat)
  leases : List (Nat × Nat)
  /-- Kept copies of `.REFIRE` tasks, per version they wrote (spec/13_program_fresh_egress.md R311). -/
  kept : List (Ver × Task)
  home : Nat
  /-- The cycle and the tick from which the context is resident (R352). -/
  resSince : Nat
  resTick : Nat
  /-- The tick from which its head item (a task and the number of its cohort; none for its restore) has found no fit (R351). -/
  waitSince : Option (Nat × Option (Nat × Nat))
  /-- The device's own writes to its memory that wait for lines the host may hold, in their order (R412); the window waits for them. -/
  owed : List Owed
  deriving DecidableEq, Repr

/-! ### Engine threads -/

/-- What an engine thread does (R256). -/
inductive EngineKind where
  | bcopy | bfill | bput | bget
  | batom (op : Nat)
  | send (port : Nat)
  | tcopy | tfill | tstamp
  deriving DecidableEq, Repr

/-- An engine thread (R256 to R260): the task and thread it belongs to, the copy group it read, and its packets by number:
done, held by a pager, sent and not yet answered. -/
structure Engine where
  uid : Nat
  ctx : Nat
  task : Nat
  crew : Option Nat
  tid : Nat
  lop : Option Nat
  kind : EngineKind
  words : List Reg
  done : List Nat
  held : List Nat
  sent : List Nat
  failed : Bool
  /-- Bytes and granule stamps read so far, in order, of an engine that stages them. -/
  buffer : List (Nat × List Byte × List Stamp)
  block : Option Ver
  /-- Whether its data is staged, or, with IMM, on its way. -/
  staged : Bool
  seq : Nat
  deriving DecidableEq, Repr

/-! ### Fabric -/

/-- A packet of the fabric (R396). Model's own: its record number; of a packet that does not carry them on the wire, the
transfer number (requests), the destination's place in its granule (read requests), the sending port and the staged effect it comes from
(egress records). -/
structure Packet where
  id : Nat
  kind : Nat
  src : Nat
  dst : Nat
  xfer : Nat
  dalign : Nat
  sport : Nat
  mark : Nat := 0
  dcn : Nat
  tag : Nat
  ten : Bool
  aop : Nat
  length : Nat
  cap : CapW
  offset : Nat
  runs : List (Nat × Stamp)
  data : List Byte
  deriving DecidableEq, Repr

/-- The state of a leasable slot that is not FREE (R384). -/
inductive SlotState where
  | reserved
  | retune (toActive : Bool)
  | active
  | drain (flit : Option Nat)
  deriving DecidableEq, Repr

/-- One end of a channel: the plane, the peer and the slot's state; an unlisted slot is FREE (R375, R384). -/
structure Chan where
  plane : Nat
  peer : Nat
  st : SlotState
  deriving DecidableEq, Repr

/-- A lease request (R380): planes wanted still, and the tick its waiting age starts. -/
structure LeaseReq where
  peer : Nat
  want : Nat
  tick : Nat
  deriving DecidableEq, Repr

/-- A key of one link direction with its epoch (R401, R432). -/
structure LinkKey where
  key : BitVec 256
  epoch : Nat
  deriving DecidableEq, Repr

/-- A flit to be sent (R395): its TYPE, its payload, and the domain context number of the egress record that ends with it. -/
structure OutFlit where
  type : Nat
  payload : List Byte
  egress : Option Nat := none
  deriving DecidableEq, Repr

/-- A flit kept for replay: its number, the key epoch it was sent under, what it carries, its bytes (R399, R402). -/
structure SentFlit where
  n : Nat
  epoch : Nat
  out : OutFlit
  bytes : List Byte
  deriving DecidableEq, Repr

/-- A flit that has passed its checks (R395, R398): its fields. -/
structure GoodFlit where
  type : Nat
  valid : Nat
  mbz : Nat
  ack : Nat
  payload : List Byte
  deriving DecidableEq, Repr

/-- The link to one peer, both directions (R395 to R402). -/
structure Link where
  peer : Nat
  up : Bool
  tx : Option LinkKey
  rx : Option LinkKey
  /-- Keys installed for the next epoch, until the switch (R402). -/
  txNext : Option LinkKey
  rxNext : Option LinkKey
  txN : Nat
  rxN : Nat
  stall : Bool
  txRekey : Bool
  rxRekey : Bool
  replay : List SentFlit
  /-- Flits that have arrived and passed, ahead of an earlier one on another channel (R397, R398). -/
  rxHeld : List (Nat × GoodFlit)
  /-- The flit that has failed and is awaited again: every later one is discarded (R399). -/
  rxBad : Option Nat
  /-- Whether a flit has passed since this end last sent one with its ACK (R395). -/
  ackDue : Bool
  /-- The flit whose replay was last asked for, how often in a row, and how often in a row a replay of the awaited flit has failed (R400). -/
  failN : Nat
  fails : Nat
  rxFails : Nat
  planesTx : List Nat
  planesRx : List Nat
  /-- Announced changes of the sending set: plane, whether it joins, the flit number from which on (R385, R397). -/
  changes : List (Nat × Bool × Nat)
  /-- Bytes of a packet whose last flit has not arrived (R393). -/
  partBytes : List Byte
  /-- Accepted flits that wait for the direction (R391, R399, R402). -/
  waiting : List OutFlit
  deriving DecidableEq, Repr

/-- A slot of a rotation table (R387). -/
structure RotSlot where
  guard : Nat
  dur : Nat
  txn : List Nat
  rxn : List Nat
  deriving DecidableEq, Repr

/-- A rotation table (R387), and the nanosecond at which its first cycle begins (R389). -/
structure RotTable where
  start : Nat
  begins : Nat
  id : BitVec 32
  slots : List RotSlot
  deriving DecidableEq, Repr

/-- Where a running rotation stands (R389). -/
inductive RotPhase where
  | before
  | guard (slot : Nat)
  | window (slot : Nat)
  | between (slot : Nat)
  deriving DecidableEq, Repr

/-- A peer's confirmation of a table (R390): its TABLEID and counts per slot. -/
structure RotConfirm where
  peer : Nat
  id : BitVec 32
  txn : List Nat
  rxn : List Nat
  deriving DecidableEq, Repr

/-- The fabric state of the package (R375 to R404). -/
structure Fabric where
  fabctl : Word
  /-- The other packages that the domain is wired to (R376), those of them that have left it since their link went down (R400, R403), and
  those whose link is up. -/
  domain : List Nat
  left : List Nat
  present : List Nat
  txc : List Chan
  rxc : List Chan
  requests : List LeaseReq
  queued : List LeaseReq
  /-- The tick of the last revocation, and the planes whose freed drop goes to one sender first (R382). -/
  revokedAt : Option Nat
  promised : List (Nat × Nat)
  /-- Planes whose drop slot has become free and has not been offered yet (R381). -/
  freed : List Nat
  links : List Link
  rot : Option RotTable
  rotPhase : RotPhase
  rotNext : Option RotTable
  /-- The nanosecond at which the current cycle began, and per peer the one up to which its window's channels are taken (R389, R391). -/
  rotBase : Nat
  busy : List (Nat × Nat)
  confirms : List RotConfirm
  inPk : List Packet
  outPk : List Packet
  tsyncAt : Nat
  /-- How far the master's clock is ahead of this package's, in 1/1,024 of a nanosecond, which slewing works off (R403). -/
  slew : Int
  deriving DecidableEq, Repr

/-- What leaves the package on the fabric: a flit, with its channel's plane; or the message that a control or time flit carries. -/
inductive FabOut where
  | flit (peer plane : Nat) (bytes : List Byte)
  | leaseRequest (peer : Nat) (planes : BitVec 64) (want tick : Nat)
  | leaseGrant (peer : Nat) (planes : BitVec 64)
  | offer (peer plane : Nat)
  | revoke (peer plane : Nat)
  | release (peer plane : Nat)
  | setChange (peer plane : Nat) (join : Bool) (n : Nat)
  | replayFrom (peer n : Nat)
  | tableId (peer : Nat) (id : BitVec 32) (txn rxn : List Nat)
  | timeRequest (peer t1 : Nat)
  | timeReply (peer t1 t2 t3 : Nat)
  | keyNext (peer : Nat) (rx : Bool) (epoch : Nat)
  deriving DecidableEq, Repr

/-! ### Host link, stacks, partitions -/

/-- A page in transition (R413, R414): the target bias, the lines whose snoop is unanswered, whether a command waits for it, whether a
caching read that a commanded flip had held started it, so that BIASST shows it. -/
structure Flip where
  page : Nat
  toHost : Bool
  snoops : List Nat
  commanded : Bool
  shown : Bool := false
  deriving DecidableEq, Repr

/-- A host request, held while its page is in transition (R414); a write has the stamps of its two granules from its arrival on (R417). -/
inductive HeldReq where
  | read (pa : Nat) (caching : Bool)
  | write (pa : Nat) (data : BitVec 512) (mask : BitVec 64) (ptl : Bool) (stamps : Stamp × Stamp)
  deriving DecidableEq, Repr

/-- What the device returns to the host (R408, R412, R428). -/
inductive HostMsg where
  | data (pa : Nat) (bytes : BitVec 512) (poison : Bool)
  | complete (pa : Nat)
  | error (addr : Nat)
  | unsupported (code : Nat)
  | snoop (pa : Nat) (dataWanted : Bool)
  | value (off : Nat) (v : Word)
  | spdm (bytes : List Byte)
  deriving DecidableEq, Repr

/-- A stamp window (R416). -/
structure StampWin where
  base : Word
  lim : Word
  stamp : Word
  deriving DecidableEq, Repr

/-- The host link and its management registers (R408 to R433). -/
structure HostLink where
  go : Bool
  fail : Nat
  stage : Nat
  tickctl : Word
  timeset : Word
  /-- RUN is set and the first exchange of R403 is awaited (R410). -/
  waitTime : Bool
  biasbase : Word
  biasSet : Bool
  bscPage : Nat
  bscBias : Bool
  busy : Bool
  /-- A command that waits for a flip the device started itself: page and target (R413). -/
  pendingCmd : Option (Nat × Bool)
  swins : List StampWin
  /-- The stamp windows as they were when this tick began (R417). -/
  swold : List StampWin
  hlogbase : Word
  hlogn : Word
  /-- Whether the host-side error ring's address or size has been written. -/
  hlogSet : Bool
  irqvec : Word
  lksel : Word
  lkeys : List Word
  lkepoch : Word
  hostfeat : BitVec 128
  lock : Bool
  features : BitVec 128
  flips : List Flip
  /-- Lines of host-bias pages whose snoop is unanswered, and lines answered whose access has not been made yet (R412). -/
  snoops : List Nat
  answered : List Nat
  /-- Answered lines of table nodes that the walk under way has read (R362, R412). -/
  walked : List Nat
  held : List HeldReq
  /-- Host lines the device holds in its caches, by line number (R224). -/
  lines : List Nat
  image : List Host.Cell
  hlogNext : Nat
  deriving DecidableEq, Repr

/-- A request on a stack link (R420). -/
structure StackReq where
  cmd : Nat
  tag : Nat
  gmask : Nat
  addr : Nat
  stamps : Word
  data : List Byte
  deriving DecidableEq, Repr

/-- A response on a stack link (R421), with the line's offset, which the compute die keeps with the tag. -/
structure StackResp where
  cmd : Nat
  tag : Nat
  addr : Nat
  status : Nat
  gpois : Nat
  synd : Nat
  stamps : Word
  data : List Byte
  deriving DecidableEq, Repr

/-- One memory stack (R419 to R425). -/
structure Stack where
  started : Bool
  eftNow : Nat
  cmd : Word
  busy : Bool
  result : Nat
  addr : Word
  data : List Word
  image : List Byte
  loaded : Bool
  reqs : List StackReq
  resps : List StackResp
  corrected : Nat
  uncorrected : Nat
  deriving DecidableEq, Repr

/-- A partition entry (R343, R341, R350, R418). -/
structure Part where
  dies : Word
  win : List (Word × Word)
  lq : Word
  cq : Word
  elog : Word
  elogn : Word
  /-- Whether ELOG or ELOGN has been written: without that the ring does not exist (log 12). -/
  elogSet : Bool
  hwinbase : Word
  hwinlim : Word
  sched : Word
  cpol : Word
  pendPol : List (Nat × Word)
  elogNext : Nat
  deriving DecidableEq, Repr

/-- A power island (R356, R357, R431). -/
structure Island where
  on : Bool
  idleSince : Nat
  lastStart : Option Nat
  deriving DecidableEq, Repr

/-- A core's map entry, the AVAIL that takes effect at the end of the cycle, and its error count (R333, R341, R342). -/
structure CoreEntry where
  core : Nat
  fenced : Bool
  avail : Bool
  next : Option Bool
  errors : Nat
  deriving DecidableEq, Repr

/-- A cached translation: context, level and virtual address prefix, the entry and the node or page kind (R363, R364). -/
structure TlbEntry where
  ctx : Nat
  level : Nat
  vpn : Nat
  entry : Word
  deriving DecidableEq, Repr

/-- An internal event of the device that the default schedule raises by itself (log 1); each is a row of the opcode table. -/
inductive Auto where
  | matrixStep (cluster : Nat)
  | updateStep (cluster : Nat)
  | waitvReread (cr tid : Nat)
  | waitcReread (cr tid : Nat)
  | twaitvReread (c t : Nat)
  | waitTimeout (c t : Nat)
  | poolEntryTake (c : Nat)
  | taskFault (c : Nat)
  | freshnessFault (c : Nat)
  | egressRelease (c seq : Nat)
  | ingressConsume (c t : Nat)
  | unitStopAck (c : Nat) (u : StopUnit)
  | contextRestore (c : Nat)
  | pagerRecordWrite (c p : Nat)
  | deviceTick
  | flipComplete (page : Nat)
  | stackMailbox (stack : Nat)
  | timeBeat (stack : Nat)
  | stackRead (stack tag : Nat)
  | stackWrite (stack tag : Nat)
  | stackStampRead (stack tag : Nat)
  | stackResponse (stack tag : Nat)
  | islandPowerUp (i : Nat)
  | packet (n : Nat)
  | retuneSettled (peer plane : Nat) (tx : Bool)
  | channelJoin (peer plane : Nat) (tx : Bool)
  | drainEnd (peer plane : Nat) (tx : Bool)
  | leaseRelease (peer : Nat)
  | revocation (peer : Nat)
  | dropSlotOffer (plane : Nat)
  | rotation
  | rekeyInterrupt (peer : Nat)
  | directionStall (peer : Nat)
  | timeStart
  deriving DecidableEq, Repr

/-- What moves next (log 1): the next partition of a core, a debug step seeded by a thread, a context's sequencer, an event, an
internal event of the default schedule, a request that the compute die puts on a stack's link (log 18), the end of the cycle. -/
inductive Action where
  | issue (core : Nat)
  /-- As `issue`, with the bundle's accesses left to take their places later (R219). -/
  | issueLate (core : Nat)
  /-- As `issue`, with the bundle's loads taken from a kept past of memory (R308). -/
  | issuePast (core n : Nat)
  /-- Memory is kept as a past that later loads may return (R308). -/
  | keepPast
  /-- The next late access of a thread takes its place in the SC order (R219). -/
  | place (cr tid : Nat)
  /-- The first of a context's, or of the package's, own writes that wait for a line (R412). -/
  | owed (c : Option Nat)
  /-- A packet or a command reads one granule, by its virtual number, ahead of the rest (R304). -/
  | early (j : Joiner) (g : Nat)
  /-- A packet writes one granule ahead of the rest (R304). -/
  | wrote (j : Joiner) (g : Nat)
  | debugStep (cr tid : Nat)
  /-- An idle flit leaves towards a peer, with its ACK (R395). -/
  | idleFlit (peer : Nat)
  | accept (c : Nat)
  | event (i : Instr)
  | auto (a : Auto)
  | stackSend (stack : Nat) (r : StackReq)
  | endCycle
  deriving DecidableEq, Repr

/-- The whole package. -/
structure State where
  cycle : Nat
  now : Nat
  devid : Nat
  height : Nat
  mem : Memory
  hmem : Memory
  ctxs : List Ctx
  cohorts : List Cohort
  crews : List Crew
  threads : List Thread
  engines : List Engine
  cores : List CoreEntry
  parts : List Part
  islands : List Island
  matNext : List (Nat × Nat)
  updNext : List (Nat × Nat)
  objUsed : List (Nat × Nat)
  tlb : List TlbEntry
  fab : Fabric
  fabOut : List FabOut
  hl : HostLink
  hostOut : List HostMsg
  msix : List Nat
  memStacks : List Stack
  /-- Model's own (log 1, log 2): the schedule, the bundle being issued, the partitions that issued in this cycle, the
  context whose sequencer acts, the next record number, the next free value. -/
  agenda : List Action
  /-- Model's own (log 51): accesses that have issued and have no place yet, how the bundle under way makes its accesses,
  the pasts of memory that loads may return and the one that the bundle under way reads, the table entries that this bundle has
  looked up (R363), error records (physical address, bytes) that wait for a line, the granules that a packet or a command has read
  ahead of the rest of it, and those that a packet has written (R304). -/
  lates : List Late
  issuing : Issuing
  pasts : List Past
  readPast : Option Past
  looks : List ((Nat × Nat × Nat) × Nat)
  owed : List (Nat × List Byte)
  early : List (Joiner × Nat × List (Byte × Option Stamp))
  wrote : List (Joiner × Nat)
  bundle : List (Nat × Nat)
  issuedNow : List (Nat × Nat)
  /-- The dies whose arbiters have admitted in this cycle (R347), and the contexts whose pre-emption begins in the next one (R352). -/
  admits : List Nat
  orders : List Nat
  seqCtx : Nat
  nextUid : Nat
  freeCtr : Nat
  deriving DecidableEq, Repr

/-! ### Reasons to stop -/

/-- Why the machine stops with a fault. -/
inductive Fault where
  /-- Raised by `exec` of a Kelac instruction when the bundle names a thread that does not exist: no state of the hardware
  corresponds (R27 forms bundles from resident threads). Safe: `step` never forms such a bundle. -/
  | noSuchThread (cr tid : Nat)
  deriving DecidableEq, Repr

/-- Why an instruction has no meaning. -/
inductive Refusal where
  /-- An arm of `exec` that has no meaning yet. Safe: nothing is claimed of the instruction. -/
  | notModelled (mnemonic : String)
  deriving DecidableEq, Repr

/-! ### Reset (R7, and the Reset column of every map) -/

/-- An empty plane (R277). -/
def Plane.empty : Plane := { w := [], s := 0x80000000#32, fmt := 7 }

/-- A partition entry after cold reset (R341, R343, R350; the rest DESIGN CHOICE, log 5). -/
def Part.reset : Part :=
  { dies := 0#64, win := [(0#64, 0#64), (0#64, 0#64), (0#64, 0#64), (0#64, 0#64)], lq := 0#64, cq := 0#64, elog := 0#64,
    elogn := 0#64, elogSet := false, hwinbase := 0#64, hwinlim := 0#64, sched := 0x400C0400#64, cpol := 0x1000#64, pendPol := [],
    elogNext := 0 }

/-- A stack after cold reset (DESIGN CHOICE, log 5). -/
def Stack.reset : Stack :=
  { started := false, eftNow := 0, cmd := 0#64, busy := false, result := 0, addr := 0#64, data := [], image := [],
    loaded := false, reqs := [], resps := [], corrected := 0, uncorrected := 0 }

/-- The host link after cold reset (R410, R413, R416, R427, R432; the rest DESIGN CHOICE, log 5). -/
def HostLink.reset : HostLink :=
  { go := false, fail := 0, stage := 0, tickctl := 10#64, timeset := 0#64, waitTime := false, biasbase := 0#64,
    biasSet := false, bscPage := 0, bscBias := false, busy := false, pendingCmd := none,
    swins := List.replicate 8 { base := 0#64, lim := 0#64, stamp := 0#64 }
    swold := List.replicate 8 { base := 0#64, lim := 0#64, stamp := 0#64 }, hlogbase := 0#64, hlogn := 0#64, hlogSet := false,
    irqvec := 0#64, lksel := 0#64, lkeys := [0#64, 0#64, 0#64, 0#64], lkepoch := 0#64, hostfeat := 0#128, lock := false,
    features := 0#128, flips := [], snoops := [], answered := [], walked := [], held := [], lines := [], image := [], hlogNext := 0 }

/-- The fabric after cold reset: FABCTL by R378, every slot FREE (R384), every link down and unkeyed. -/
def Fabric.reset : Fabric :=
  { fabctl := 0x10000800400#64, domain := [], left := [], present := [], txc := [], rxc := [], requests := [], queued := [],
    revokedAt := none, promised := [], freed := [], links := [], rot := none, rotPhase := .before, rotNext := none, rotBase := 0,
    busy := [], confirms := [], inPk := [], outPk := [], tsyncAt := 0, slew := 0 }

/-- The machine after cold reset (R7): no context, every register at its reset value. -/
def State.reset : State :=
  { cycle := 0, now := 0, devid := 0, height := 8, mem := Memory.empty, hmem := Memory.empty, ctxs := [], cohorts := [],
    crews := [], threads := [], engines := [], cores := [], parts := List.replicate 8 Part.reset,
    islands := listOf 32 (fun i => { on := i == 0, idleSince := 0, lastStart := none }), matNext := [], updNext := [],
    objUsed := [], tlb := [], fab := Fabric.reset, fabOut := [], hl := HostLink.reset, hostOut := [], msix := [],
    memStacks := List.replicate 16 Stack.reset, agenda := [], lates := [], issuing := .now, pasts := [], readPast := none,
    looks := [], owed := [], early := [], wrote := [], bundle := [], issuedNow := [], admits := [], orders := [], seqCtx := 0, nextUid := 0,
    freeCtr := 0 }

end Sys2Proof.Machine
end

