-- ==== Sys2Proof/Machine/Stamps.lean ====
section
/-!
DEFINITION. Stamps (spec/02_birth_times.md R39 to R42, R51, R52, R62, R331 of spec/15_privileged_state_and_traps.md): classes,
combine, age, the clamp, the normalisation of a stamp from outside, and the check against an age bound.
-/

namespace Sys2Proof.Machine

/-- The class of a stamp (R39). -/
inductive StampClass where
  | data | weight | timeless | vacant
  deriving DecidableEq, Repr

/-- TIMELESS with TICK zero (R40). -/
def sTimeless : Stamp := 0x80000000#32
/-- VACANT with TICK zero (R40). -/
def sVacant : Stamp := 0xC0000000#32

/-- CLASS [31:30] of a stamp (R39). -/
def Stamp.cls (s : Stamp) : StampClass :=
  match s.toNat / 2 ^ 30 with
  | 0 => .data
  | 1 => .weight
  | 2 => .timeless
  | _ => .vacant

/-- TICK [29:0] of a stamp (R39). -/
def Stamp.tick (s : Stamp) : Nat := s.toNat % 2 ^ 30

/-- DATA at a device time (R46, R47). -/
def dataAt (now : Nat) : Stamp := BitVec.ofNat 32 (now % 2 ^ 30)
/-- WEIGHT at a device time. -/
def weightAt (now : Nat) : Stamp := BitVec.ofNat 32 (2 ^ 30 + now % 2 ^ 30)

/-- The age of a DATA or WEIGHT stamp (R40). -/
def stampAge (now : Nat) (s : Stamp) : Nat := (now + 2 ^ 30 - Stamp.tick s) % 2 ^ 30

/-- The older of two stamps of one class (R41). -/
def olderStamp (a b : Stamp) : Stamp :=
  if 2 ^ 29 ≤ (Stamp.tick a + 2 ^ 30 - Stamp.tick b) % 2 ^ 30 then a else b

/-- `combine` (R41); TIMELESS and VACANT results have TICK zero (R40). -/
def combine (a b : Stamp) : Stamp :=
  match Stamp.cls a, Stamp.cls b with
  | .vacant, .vacant => sVacant
  | .vacant, .timeless => sTimeless
  | .vacant, _ => b
  | .timeless, .vacant => sTimeless
  | _, .vacant => a
  | .data, .data => olderStamp a b
  | .data, _ => a
  | _, .data => b
  | .weight, .weight => olderStamp a b
  | .weight, _ => a
  | _, .weight => b
  | .timeless, .timeless => sTimeless

/-- A combine over a list; over no stamps it is VACANT (R41). -/
def combineList (l : List Stamp) : Stamp := l.foldr combine sVacant

/-- The stamp with its class kept and its tick replaced. -/
def Stamp.withTick (s : Stamp) (t : Nat) : Stamp :=
  match Stamp.cls s with
  | .data => dataAt t
  | .weight => weightAt t
  | .timeless => sTimeless
  | .vacant => sVacant

/-- The clamp of R62: an age above 2^28 becomes 2^28 + 1. -/
def clampStamp (now : Nat) (s : Stamp) : Stamp :=
  match Stamp.cls s with
  | .timeless => sTimeless
  | .vacant => sVacant
  | _ => if 2 ^ 28 < stampAge now s then Stamp.withTick s (now % 2 ^ 30 + 2 ^ 30 - 2 ^ 28 - 1) else s

/-- The normalisation of a stamp from outside: a tick later than `now` becomes `now`, the rest is clamped (R331, R404, R417). -/
def normaliseStamp (now : Nat) (s : Stamp) : Stamp :=
  match Stamp.cls s with
  | .timeless => sTimeless
  | .vacant => sVacant
  | _ => if 2 ^ 29 ≤ stampAge now s then Stamp.withTick s now else clampStamp now s

/-- Why a check fails (R52). -/
inductive Staleness where
  | stale | vacant
  deriving DecidableEq, Repr

/-- SUB of a freshness trap or fault (R324). -/
def Staleness.sub : Staleness → Nat
  | .stale => 1
  | .vacant => 2

/-- BOUND [28:0] of an age bound (R51). -/
def boundOf (b : Word) : Nat := bits b.toNat 28 0
/-- ACT [34:33] of an age bound (R51): 0 escalate, 1 local, 2 flag. -/
def actOf (b : Word) : Nat := bits b.toNat 34 33

/-- The check of one stamp against a bound (R52). -/
def checkStamp (b : Word) (now : Nat) (s : Stamp) : Option Staleness :=
  match Stamp.cls s with
  | .vacant => if b.getLsbD 32 then some .vacant else none
  | .data => if b.getLsbD 30 && decide (boundOf b < stampAge now s) then some .stale else none
  | .weight => if b.getLsbD 31 && decide (boundOf b < stampAge now s) then some .stale else none
  | .timeless => none

/-- The check of several granules: *vacant* if any failed so, otherwise *stale* (R52). -/
def checkStamps (b : Word) (now : Nat) (l : List Stamp) : Option Staleness :=
  let rs := l.map (checkStamp b now)
  if rs.any (· == some .vacant) then some .vacant else if rs.any (· == some .stale) then some .stale else none

/-- Whether a word may be written to an age-bound register (R51). -/
def boundWordOk (b : Word) : Bool :=
  bits b.toNat 63 35 == 0 && actOf b != 3 && !b.getLsbD 29 && decide (boundOf b ≤ 2 ^ 28)

end Sys2Proof.Machine
end

