-- ==== Sys2Proof/Machine/MemOps.lean ====
section
/-!
DEFINITION. The operations over one store (device memory, host memory, a scratchpad, an accumulator allotment): bytes,
stamps, poison and tag bits, each keeping the canonical form (spec/02_birth_times.md R44, R48, R49, R50; R229 of
spec/08_memory_instructions.md for tag bits). Byte order is decided here, once (R5).
-/

namespace Sys2Proof.Machine

/-- One byte. -/
def Memory.byte (m : Memory) (a : Nat) : Byte := AList.get Memory.unlisted a m.bytes

/-- n bytes from address a. -/
def Memory.read (m : Memory) (a : Nat) : Nat → List Byte
  | 0 => []
  | n + 1 => m.byte a :: Memory.read m (a + 1) n

/-- The n-byte little-endian number at a. -/
def Memory.readNat (m : Memory) (a n : Nat) : Nat := ofBytes (m.read a n)

/-- The 8-byte word at a. -/
def Memory.readWord (m : Memory) (a : Nat) : Word := BitVec.ofNat 64 (m.readNat a 8)

/-- The stamp of granule g. -/
def Memory.stamp (m : Memory) (g : Nat) : Stamp := AList.get Memory.unlistedStamp g m.stamps
/-- The poison bit of granule g (R44). -/
def Memory.isPoison (m : Memory) (g : Nat) : Bool := AList.get false g m.poison
/-- The tag bit of the aligned 16-byte word w (R229). -/
def Memory.tag (m : Memory) (w : Nat) : Bool := AList.get false w m.tags

/-- The granules that n bytes from a touch, in order (R48). -/
def granules (a n : Nat) : List Nat :=
  if n = 0 then [] else listOf ((a + n - 1) / 32 - a / 32 + 1) (fun i => a / 32 + i)

/-- The granule stamps that n bytes from a touch. -/
def Memory.stampsOf (m : Memory) (a n : Nat) : List Stamp := (granules a n).map m.stamp
/-- Whether n bytes from a touch a poisoned granule. -/
def Memory.anyPoison (m : Memory) (a n : Nat) : Bool := (granules a n).any m.isPoison

/-- Write one byte. -/
def Memory.putByte (m : Memory) (a : Nat) (b : Byte) : Memory := { m with bytes := AList.put Memory.unlisted a b m.bytes }
/-- Set a granule's stamp. -/
def Memory.putStamp (m : Memory) (g : Nat) (s : Stamp) : Memory :=
  { m with stamps := AList.put Memory.unlistedStamp g s m.stamps }
/-- Set or clear a granule's poison. -/
def Memory.putPoison (m : Memory) (g : Nat) (p : Bool) : Memory := { m with poison := AList.put false g p m.poison }
/-- Set or clear a word's tag bit. -/
def Memory.putTag (m : Memory) (w : Nat) (t : Bool) : Memory := { m with tags := AList.put false w t m.tags }

/-- Count a write of granule g. -/
def Memory.noteWrite (m : Memory) (g : Nat) : Memory := { m with writes := AList.put 0 g (AList.get 0 g m.writes + 1) m.writes }
/-- Count a write of each granule that n bytes from a touch. -/
def Memory.noteWrites (m : Memory) (a n : Nat) : Memory := (granules a n).foldl Memory.noteWrite m
/-- The writes counted for the granules that n bytes from a touch. -/
def Memory.writeCount (m : Memory) (a n : Nat) : Nat := ((granules a n).map (fun g => AList.get 0 g m.writes)).sum

/-- Write bytes from address a up. -/
def Memory.putBytes (m : Memory) (a : Nat) : List Byte → Memory
  | [] => m
  | b :: bs => Memory.putBytes (m.putByte a b) (a + 1) bs

/-- Clear the tag bits of the 16-byte words that n bytes from a touch (R229). -/
def Memory.clearTags (m : Memory) (a n : Nat) : Memory :=
  if n = 0 then m
  else (listOf ((a + n - 1) / 16 - a / 16 + 1) (fun i => a / 16 + i)).foldl (fun m w => m.putTag w false) m

/-- Combine a stamp into the granules that n bytes from a touch (R49), clamped as every write of a stamp is (R62). -/
def Memory.combineStamps (m : Memory) (now a n : Nat) (s : Stamp) : Memory :=
  (granules a n).foldl (fun m g => m.putStamp g (clampStamp now (combine (m.stamp g) s))) m

/-- An ordinary store: bytes, the stamp combined into each granule, tag bits cleared (R49, R229); poison stays (R44). -/
def Memory.store (m : Memory) (now a : Nat) (bs : List Byte) (s : Stamp) : Memory :=
  (((m.putBytes a bs).combineStamps now a bs.length s).clearTags a bs.length).noteWrites a bs.length

/-- A granule-replace store (R50). -/
def Memory.storeReplace (m : Memory) (now a : Nat) (bs : List Byte) (s : Stamp) : Memory :=
  (granules a bs.length).foldl (fun m g => m.putStamp g (clampStamp now s))
    (((m.putBytes a bs).clearTags a bs.length).noteWrites a bs.length)

/-- The end of an engine write to one granule: a whole granule takes the stamp and loses its poison, a part combines
(R44, R49). -/
def Memory.engineStamp (m : Memory) (now g : Nat) (whole : Bool) (s : Stamp) : Memory :=
  let m := m.noteWrite g
  if whole then (m.putStamp g (clampStamp now s)).putPoison g false
  else m.putStamp g (clampStamp now (combine (m.stamp g) s))

/-- An engine write of bytes that lie in one granule. -/
def Memory.engineWrite1 (m : Memory) (now a : Nat) (bs : List Byte) (s : Stamp) : Memory :=
  (((m.putBytes a bs).engineStamp now (a / 32) (bs.length == 32) s)).clearTags a bs.length

/-- Cut a run of bytes at granule boundaries: address and bytes of each piece, from address a up. -/
def cutGranules (fuel a : Nat) (bs : List Byte) : List (Nat × List Byte) :=
  match fuel with
  | 0 => []
  | fuel + 1 =>
    match bs with
    | [] => []
    | _ =>
      let k := 32 - a % 32
      (a, bs.take k) :: cutGranules fuel (a + k) (bs.drop k)

/-- An engine write of a run of bytes, each granule with the stamp `f` gives it (R49, R261). -/
def Memory.engineWrite (m : Memory) (now a : Nat) (bs : List Byte) (f : Nat → Stamp) : Memory :=
  (cutGranules (bs.length / 32 + 2) a bs).foldl (fun m p => m.engineWrite1 now p.1 p.2 (f (p.1 / 32))) m

end Sys2Proof.Machine
end

