-- ==== Sys2Proof/Machine/Operands.lean ====
section
/-!
DEFINITION. The operand forms of Kelac instructions: which registers an instruction names (spec/05_kelac_encoding.md R144,
R146, R251), its class and form (R141, R150), the clause it stands in (R139, R140), and reading a register field.
-/

namespace Sys2Proof.Machine

/-- The register fields an instruction names, a pair as both its registers, in the order D, A, B, C. -/
def Instr.fields : Instr → List Nat
  | .bz a _ => [a.toNat]
  | .bnz a _ => [a.toNat]
  | .jmpr a => [a.toNat, a.toNat + 1]
  | .bmask a _ => [a.toNat]
  | .sleep a => [a.toNat]
  | .add _ d a b => [d.toNat, a.toNat, b.toNat]
  | .addi _ d a _ => [d.toNat, a.toNat]
  | .sub _ d a b => [d.toNat, a.toNat, b.toNat]
  | .mul _ d a b => [d.toNat, a.toNat, b.toNat]
  | .mulhs _ d a b => [d.toNat, a.toNat, b.toNat]
  | .mulhn _ d a b => [d.toNat, a.toNat, b.toNat]
  | .mad _ d a b c => [d.toNat, a.toNat, b.toNat, c.toNat]
  | .mins _ d a b => [d.toNat, a.toNat, b.toNat]
  | .minn _ d a b => [d.toNat, a.toNat, b.toNat]
  | .maxs _ d a b => [d.toNat, a.toNat, b.toNat]
  | .maxn _ d a b => [d.toNat, a.toNat, b.toNat]
  | .abs _ d a => [d.toNat, a.toNat]
  | .neg _ d a => [d.toNat, a.toNat]
  | .and d a b => [d.toNat, a.toNat, b.toNat]
  | .or d a b => [d.toNat, a.toNat, b.toNat]
  | .xor d a b => [d.toNat, a.toNat, b.toNat]
  | .andn d a b => [d.toNat, a.toNat, b.toNat]
  | .not d a => [d.toNat, a.toNat]
  | .shl _ d a b => [d.toNat, a.toNat, b.toNat]
  | .shr _ d a b => [d.toNat, a.toNat, b.toNat]
  | .sra _ d a b => [d.toNat, a.toNat, b.toNat]
  | .shli _ d a _ => [d.toNat, a.toNat]
  | .shri _ d a _ => [d.toNat, a.toNat]
  | .srai _ d a _ => [d.toNat, a.toNat]
  | .rotl _ d a b => [d.toNat, a.toNat, b.toNat]
  | .popc _ d a => [d.toNat, a.toNat]
  | .clz _ d a => [d.toNat, a.toNat]
  | .brev _ d a => [d.toNat, a.toNat]
  | .bfx d a b => [d.toNat, a.toNat, b.toNat]
  | .bfi d a b c => [d.toNat, a.toNat, b.toNat, c.toNat]
  | .cmpeq _ d a b => [d.toNat, a.toNat, b.toNat]
  | .cmplts _ d a b => [d.toNat, a.toNat, b.toNat]
  | .cmpltn _ d a b => [d.toNat, a.toNat, b.toNat]
  | .cmples _ d a b => [d.toNat, a.toNat, b.toNat]
  | .cmplen _ d a b => [d.toNat, a.toNat, b.toNat]
  | .sel _ d a b c => [d.toNat, a.toNat, b.toNat, c.toNat]
  | .mov d a => [d.toNat, a.toNat]
  | .li d _ => [d.toNat]
  | .lih d a _ => [d.toNat, a.toNat]
  | .lea d a b => [d.toNat, d.toNat + 1, a.toNat, a.toNat + 1, b.toNat]
  | .fadd _ d a b => [d.toNat, a.toNat, b.toNat]
  | .fsub _ d a b => [d.toNat, a.toNat, b.toNat]
  | .fmul _ d a b => [d.toNat, a.toNat, b.toNat]
  | .ffma _ d a b c => [d.toNat, a.toNat, b.toNat, c.toNat]
  | .fmin _ d a b => [d.toNat, a.toNat, b.toNat]
  | .fmax _ d a b => [d.toNat, a.toNat, b.toNat]
  | .fabs _ d a => [d.toNat, a.toNat]
  | .fneg _ d a => [d.toNat, a.toNat]
  | .fcmpeq _ d a b => [d.toNat, a.toNat, b.toNat]
  | .fcmplt _ d a b => [d.toNat, a.toNat, b.toNat]
  | .fcmple _ d a b => [d.toNat, a.toNat, b.toNat]
  | .fcmpun _ d a b => [d.toNat, a.toNat, b.toNat]
  | .frcp _ d a => [d.toNat, a.toNat]
  | .frsq _ d a => [d.toNat, a.toNat]
  | .fsqrt _ d a => [d.toNat, a.toNat]
  | .fexp2 _ d a => [d.toNat, a.toNat]
  | .flog2 _ d a => [d.toNat, a.toNat]
  | .fsin _ d a => [d.toNat, a.toNat]
  | .fcos _ d a => [d.toNat, a.toNat]
  | .fscale _ d a b => [d.toNat, a.toNat, b.toNat]
  | .fclass _ d a => [d.toNat, a.toNat]
  | .fdot _ d a b => [d.toNat, a.toNat, b.toNat]
  | .fsum _ d a => [d.toNat, a.toNat]
  | .fcvt _ d a _ => [d.toNat, a.toNat]
  | .fcvtam _ d a _ => [d.toNat, a.toNat]
  | .f2i _ d a _ => [d.toNat, a.toNat]
  | .i2f _ d a _ => [d.toNat, a.toNat]
  | .qpack _ d a b => [d.toNat, a.toNat, b.toNat]
  | .qpackGs d a => [d.toNat, a.toNat]
  | .qpackBs d a b => [d.toNat, a.toNat, b.toNat]
  | .qunpk _ d a b => [d.toNat, a.toNat, b.toNat]
  | .fpack _ d a b => [d.toNat, a.toNat, b.toNat]
  | .funpk _ d a => [d.toNat, a.toNat]
  | .shfl d a b => [d.toNat, a.toNat, b.toNat]
  | .shfliIdx d a _ => [d.toNat, a.toNat]
  | .shfliUp d a _ => [d.toNat, a.toNat]
  | .shfliDown d a _ => [d.toNat, a.toNat]
  | .shfliXor d a _ => [d.toNat, a.toNat]
  | .voteall d a => [d.toNat, a.toNat]
  | .voteany d a => [d.toNat, a.toNat]
  | .ballot d a => [d.toNat, a.toNat]
  | .matchA d a => [d.toNat, a.toNat]
  | .scanadd _ d a => [d.toNat, a.toNat]
  | .scanaddx _ d a => [d.toNat, a.toNat]
  | .redadd _ d a => [d.toNat, a.toNat]
  | .redmaxs _ d a => [d.toNat, a.toNat]
  | .redmaxn _ d a => [d.toNat, a.toNat]
  | .redmins _ d a => [d.toNat, a.toNat]
  | .redminn _ d a => [d.toNat, a.toNat]
  | .redor _ d a => [d.toNat, a.toNat]
  | .fredadd _ d a => [d.toNat, a.toNat]
  | .fscanadd _ d a => [d.toNat, a.toNat]
  | .elect d => [d.toNat]
  | .memb d => [d.toNat]
  | .ld8 _ d a _ => [d.toNat, a.toNat, a.toNat + 1]
  | .ld16 _ d a _ => [d.toNat, a.toNat, a.toNat + 1]
  | .ld32 _ d a _ => [d.toNat, a.toNat, a.toNat + 1]
  | .ld64 _ d a _ => [d.toNat, a.toNat, a.toNat + 1]
  | .ld128 _ d a _ => [d.toNat, d.toNat + 1, a.toNat, a.toNat + 1]
  | .ldx8 _ d a _ => [d.toNat, a.toNat, a.toNat + 1]
  | .ldx16 _ d a _ => [d.toNat, a.toNat, a.toNat + 1]
  | .ldx32 _ d a _ => [d.toNat, a.toNat, a.toNat + 1]
  | .st8 d a _ => [d.toNat, a.toNat, a.toNat + 1]
  | .st16 d a _ => [d.toNat, a.toNat, a.toNat + 1]
  | .st32 d a _ => [d.toNat, a.toNat, a.toNat + 1]
  | .st64 d a _ => [d.toNat, a.toNat, a.toNat + 1]
  | .st128 d a _ => [d.toNat, d.toNat + 1, a.toNat, a.toNat + 1]
  | .stg64 d a _ => [d.toNat, a.toNat, a.toNat + 1]
  | .stg128 d a _ => [d.toNat, d.toNat + 1, a.toNat, a.toNat + 1]
  | .pref a _ => [a.toNat, a.toNat + 1]
  | .lds8 _ d a _ => [d.toNat, a.toNat]
  | .lds16 _ d a _ => [d.toNat, a.toNat]
  | .lds32 _ d a _ => [d.toNat, a.toNat]
  | .lds64 _ d a _ => [d.toNat, a.toNat]
  | .lds128 _ d a _ => [d.toNat, d.toNat + 1, a.toNat]
  | .sts8 d a _ => [d.toNat, a.toNat]
  | .sts16 d a _ => [d.toNat, a.toNat]
  | .sts32 d a _ => [d.toNat, a.toNat]
  | .sts64 d a _ => [d.toNat, a.toNat]
  | .sts128 d a _ => [d.toNat, d.toNat + 1, a.toNat]
  | .atadd32 _ d a b => [d.toNat, a.toNat, a.toNat + 1, b.toNat]
  | .atadd64 _ d a b => [d.toNat, a.toNat, a.toNat + 1, b.toNat]
  | .atmaxs32 _ d a b => [d.toNat, a.toNat, a.toNat + 1, b.toNat]
  | .atmaxn32 _ d a b => [d.toNat, a.toNat, a.toNat + 1, b.toNat]
  | .atmins32 _ d a b => [d.toNat, a.toNat, a.toNat + 1, b.toNat]
  | .atminn32 _ d a b => [d.toNat, a.toNat, a.toNat + 1, b.toNat]
  | .ator64 _ d a b => [d.toNat, a.toNat, a.toNat + 1, b.toNat]
  | .atand64 _ d a b => [d.toNat, a.toNat, a.toNat + 1, b.toNat]
  | .atxor64 _ d a b => [d.toNat, a.toNat, a.toNat + 1, b.toNat]
  | .atxch64 _ d a b => [d.toNat, a.toNat, a.toNat + 1, b.toNat]
  | .atcas64 _ d a b => [d.toNat, a.toNat, a.toNat + 1, b.toNat, b.toNat + 1]
  | .fatadd32 _ d a b => [d.toNat, a.toNat, a.toNat + 1, b.toNat]
  | .fatmax32 _ d a b => [d.toNat, a.toNat, a.toNat + 1, b.toNat]
  | .waitv _ d a b => [d.toNat, a.toNat, a.toNat + 1, b.toNat]
  | .capinc d a b => [d.toNat, d.toNat + 1, a.toNat, a.toNat + 1, b.toNat]
  | .capnrw d a b => [d.toNat, d.toNat + 1, a.toNat, a.toNat + 1, b.toNat]
  | .capperm d a b => [d.toNat, d.toNat + 1, a.toNat, a.toNat + 1, b.toNat]
  | .capget d _ => [d.toNat, d.toNat + 1]
  | .capchk d a b => [d.toNat, a.toNat, a.toNat + 1, b.toNat]
  | .capscr d a b => [d.toNat, d.toNat + 1, a.toNat, b.toNat]
  | .capmov d a => [d.toNat, d.toNat + 1, a.toNat, a.toNat + 1]
  | .batomAdd d _ => [d.toNat]
  | .batomOr d _ => [d.toNat]
  | .batomXch d _ => [d.toNat]
  | .batomCas d _ => [d.toNat]
  | .batomMaxn d _ => [d.toNat]
  | .batomFadd d _ => [d.toNat]
  | .actr d a b => [d.toNat, a.toNat, b.toNat]
  | .waitc a b => [a.toNat, b.toNat]
  | .actrdBind a b => [a.toNat, b.toNat]
  | .actrdUnbind a b => [a.toNat, b.toNat]
  | .send d a _ => [d.toNat, a.toNat, a.toNat + 1]
  | .leaseq d _ => [d.toNat]
  | .mzero a => [a.toNat]
  | .mread _ d a => [d.toNat, a.toNat]
  | .mscale a => [a.toNat]
  | .mstat _ d => [d.toNat]
  | .arrive d _ => [d.toNat]
  | .await a _ => [a.toNat]
  | .movs d _ => [d.toNat]
  | .movsw a _ => [a.toNat]
  | .stampr d a => [d.toNat, a.toNat]
  | .agejoin d a b => [d.toNat, a.toNat, b.toNat]
  | .age d a => [d.toNat, a.toNat]
  | .agechk _ a => [a.toNat]
  | .pagedoneResume a b => [a.toNat, a.toNat + 1, b.toNat]
  | .pagedoneMap a b => [a.toNat, a.toNat + 1, b.toNat]
  | .pagedoneFail a b => [a.toNat, a.toNat + 1, b.toNat]
  | .csrr _ d _ => [d.toNat]
  | .csrw _ a _ => [a.toNat]
  | .stampsetReg d a b => [d.toNat, a.toNat, b.toNat]
  | .stampsetGranule a b => [a.toNat, a.toNat + 1, b.toNat]
  | .cmapw d a b => [d.toNat, a.toNat, b.toNat]
  | .tlbinv a b => [a.toNat, b.toNat]
  | .haltcHalt a b => [a.toNat, b.toNat]
  | .haltcResume a b => [a.toNat, b.toNat]
  | .haltcDebugHalt a b => [a.toNat, b.toNat]
  | .dbgstep a => [a.toNat]
  | .bra _ | .call _ | .cjoin _ | .cleave _ | .winb _ | .rep _ _ | .trap _ | .bkpt _ | .bcopy _ | .bfill _ | .bput _
  | .bget _ | .mload _ | .mstream _ | .mnorm _ | .mdrain _ _ | .bar _ | .sbar _ | .tbuf _ | .tdrop _ | .tlaunch _
  | .tcopy _ | .tfill _ | .tstamp _ | .tbr _ | .tbrc _ | .tcall _ | .tretTask _ | .twaitv _ | .tsig _ | .tmark _
  | .tfence _ | .tlease _ | .trotate _ | .tport _ | .tscope _ | .tsetk _ | .taddk _ | .tbrk _ | .tpagerRegister _
  | .tpagerUnregister _ | .tctxCreate _ | .tctxDestroy _ | .tctxHalt _ | .tctxResume _ | .tctxSetPriority _ | .tnop _
  | .longLatencyComplete _ _ _ | .enginePacket _ _ | .engineComplete _ | .sleepEnd _ _ | .slotAccept _
  | .taskIssue _ _ | .taskRetire _ | .cohortAdmit _ | .cohortStart _ | .crewRelease _ | .rendezvousStall _ _
  | .waitvReread _ _ | .waitcReread _ _ | .matrixStep _ | .updateStep _ | .twaitvReread _ _ | .waitTimeout _ _
  | .poolEntryTake _ | .taskFault _ | .freshnessFault _ | .egressRelease _ _ | .ingressConsume _ _ | .unitStopAck _ _
  | .contextRestore _ | .islandPowerDown _ | .islandPowerUp _ | .pagerRecordWrite _ _ | .stampScanVisit _
  | .eftPatrolVisit _ _ | .correctableError _ _ | .uncorrectableDataError _ _ | .coreFault _ | .coreReset _
  | .matrixUnitReset _ | .copyEngineReset _ | .windowLogicReset _ | .memrd _ | .memrdCaching _ | .memwr _ _
  | .memwrptl _ _ _ | .unsupportedRequest _ _ | .birsp _ _ | .hostSnoop _ | .hostLineFill _ _ | .getCertificate _ _
  | .challenge _ | .tickctlWrite _ | .ctx0 _ | .biascmdToHost _ | .biascmdToDevice _ | .flipComplete _
  | .loadFirmwareImage _ | .startFirmware _ | .readFirmwareVersion _ | .readCounts _ | .hostRegisterWrite _ _
  | .stackRead _ _ | .stackWrite _ _ | .stackStampRead _ _ | .stackMailbox _ _ | .timeBeat _ | .stackResponse _ _
  | .flitReceive _ _ | .replayRequest _ _ | .linkDown _ | .rekeyInterrupt _ _ | .directionStall _ | .timeSync _
  | .writePacket _ | .writeAcknowledgement _ | .readRequest _ | .readData _ | .atomicRequest _ | .atomicResult _
  | .egressRecord _ | .reject _ | .leaseRequest _ _ _ _ | .leaseGrant _ _ | .dropSlotOffer _ | .revocation _
  | .leaseRelease _ | .channelSetChange _ _ _ _ _ | .drainEnd _ _ _ | .retuneSettled _ _ _ | .tableidConfirm _ _ _ _
  | .unassignedOpcode _ | .linkUp _ | .unlistedOffsetRead _ | .nop | .ret | .exit | .fence | .mswap | .tret
  | .deviceTick | .hostLinkReset | .coldReset | .getMeasurements | .bootstGo | .featctlLock | .lkgo | .guardStart
  | .dataWindowStart | .dataWindowEnd => []

/-- The copy, update or stream group of an instruction: its first field and its length (R251, R282, R286, R292). -/
def Instr.group : Instr → Option (Nat × Nat)
  | .bcopy a => some (a.toNat, 6)
  | .bfill a => some (a.toNat, 6)
  | .bput a => some (a.toNat, 7)
  | .bget a => some (a.toNat, 7)
  | .batomAdd _ a => some (a.toNat, 7)
  | .batomOr _ a => some (a.toNat, 7)
  | .batomXch _ a => some (a.toNat, 7)
  | .batomCas _ a => some (a.toNat, 7)
  | .batomMaxn _ a => some (a.toNat, 7)
  | .batomFadd _ a => some (a.toNat, 7)
  | .mload a => some (a.toNat, 3)
  | .mstream a => some (a.toNat, 2)
  | .mnorm a => some (a.toNat, 7)
  | .mdrain a _ => some (a.toNat, 7)
  | .bra _ | .bz _ _ | .bnz _ _ | .call _ | .jmpr _ | .cjoin _ | .bmask _ _ | .cleave _ | .winb _ | .rep _ _
  | .trap _ | .bkpt _ | .sleep _ | .add _ _ _ _ | .addi _ _ _ _ | .sub _ _ _ _ | .mul _ _ _ _ | .mulhs _ _ _ _
  | .mulhn _ _ _ _ | .mad _ _ _ _ _ | .mins _ _ _ _ | .minn _ _ _ _ | .maxs _ _ _ _ | .maxn _ _ _ _ | .abs _ _ _
  | .neg _ _ _ | .and _ _ _ | .or _ _ _ | .xor _ _ _ | .andn _ _ _ | .not _ _ | .shl _ _ _ _ | .shr _ _ _ _
  | .sra _ _ _ _ | .shli _ _ _ _ | .shri _ _ _ _ | .srai _ _ _ _ | .rotl _ _ _ _ | .popc _ _ _ | .clz _ _ _
  | .brev _ _ _ | .bfx _ _ _ | .bfi _ _ _ _ | .cmpeq _ _ _ _ | .cmplts _ _ _ _ | .cmpltn _ _ _ _ | .cmples _ _ _ _
  | .cmplen _ _ _ _ | .sel _ _ _ _ _ | .mov _ _ | .li _ _ | .lih _ _ _ | .lea _ _ _ | .fadd _ _ _ _ | .fsub _ _ _ _
  | .fmul _ _ _ _ | .ffma _ _ _ _ _ | .fmin _ _ _ _ | .fmax _ _ _ _ | .fabs _ _ _ | .fneg _ _ _ | .fcmpeq _ _ _ _
  | .fcmplt _ _ _ _ | .fcmple _ _ _ _ | .fcmpun _ _ _ _ | .frcp _ _ _ | .frsq _ _ _ | .fsqrt _ _ _ | .fexp2 _ _ _
  | .flog2 _ _ _ | .fsin _ _ _ | .fcos _ _ _ | .fscale _ _ _ _ | .fclass _ _ _ | .fdot _ _ _ _ | .fsum _ _ _
  | .fcvt _ _ _ _ | .fcvtam _ _ _ _ | .f2i _ _ _ _ | .i2f _ _ _ _ | .qpack _ _ _ _ | .qpackGs _ _ | .qpackBs _ _ _
  | .qunpk _ _ _ _ | .fpack _ _ _ _ | .funpk _ _ _ | .shfl _ _ _ | .shfliIdx _ _ _ | .shfliUp _ _ _
  | .shfliDown _ _ _ | .shfliXor _ _ _ | .voteall _ _ | .voteany _ _ | .ballot _ _ | .matchA _ _ | .scanadd _ _ _
  | .scanaddx _ _ _ | .redadd _ _ _ | .redmaxs _ _ _ | .redmaxn _ _ _ | .redmins _ _ _ | .redminn _ _ _
  | .redor _ _ _ | .fredadd _ _ _ | .fscanadd _ _ _ | .elect _ | .memb _ | .ld8 _ _ _ _ | .ld16 _ _ _ _
  | .ld32 _ _ _ _ | .ld64 _ _ _ _ | .ld128 _ _ _ _ | .ldx8 _ _ _ _ | .ldx16 _ _ _ _ | .ldx32 _ _ _ _ | .st8 _ _ _
  | .st16 _ _ _ | .st32 _ _ _ | .st64 _ _ _ | .st128 _ _ _ | .stg64 _ _ _ | .stg128 _ _ _ | .pref _ _ | .lds8 _ _ _ _
  | .lds16 _ _ _ _ | .lds32 _ _ _ _ | .lds64 _ _ _ _ | .lds128 _ _ _ _ | .sts8 _ _ _ | .sts16 _ _ _ | .sts32 _ _ _
  | .sts64 _ _ _ | .sts128 _ _ _ | .atadd32 _ _ _ _ | .atadd64 _ _ _ _ | .atmaxs32 _ _ _ _ | .atmaxn32 _ _ _ _
  | .atmins32 _ _ _ _ | .atminn32 _ _ _ _ | .ator64 _ _ _ _ | .atand64 _ _ _ _ | .atxor64 _ _ _ _ | .atxch64 _ _ _ _
  | .atcas64 _ _ _ _ | .fatadd32 _ _ _ _ | .fatmax32 _ _ _ _ | .waitv _ _ _ _ | .capinc _ _ _ | .capnrw _ _ _
  | .capperm _ _ _ | .capget _ _ | .capchk _ _ _ | .capscr _ _ _ | .capmov _ _ | .actr _ _ _ | .waitc _ _
  | .actrdBind _ _ | .actrdUnbind _ _ | .send _ _ _ | .leaseq _ _ | .mzero _ | .mread _ _ _ | .mscale _ | .mstat _ _
  | .bar _ | .sbar _ | .arrive _ _ | .await _ _ | .movs _ _ | .movsw _ _ | .stampr _ _ | .agejoin _ _ _ | .age _ _
  | .agechk _ _ | .pagedoneResume _ _ | .pagedoneMap _ _ | .pagedoneFail _ _ | .csrr _ _ _ | .csrw _ _ _
  | .stampsetReg _ _ _ | .stampsetGranule _ _ | .cmapw _ _ _ | .tlbinv _ _ | .haltcHalt _ _ | .haltcResume _ _
  | .haltcDebugHalt _ _ | .dbgstep _ | .tbuf _ | .tdrop _ | .tlaunch _ | .tcopy _ | .tfill _ | .tstamp _ | .tbr _
  | .tbrc _ | .tcall _ | .tretTask _ | .twaitv _ | .tsig _ | .tmark _ | .tfence _ | .tlease _ | .trotate _ | .tport _
  | .tscope _ | .tsetk _ | .taddk _ | .tbrk _ | .tpagerRegister _ | .tpagerUnregister _ | .tctxCreate _
  | .tctxDestroy _ | .tctxHalt _ | .tctxResume _ | .tctxSetPriority _ | .tnop _ | .longLatencyComplete _ _ _
  | .enginePacket _ _ | .engineComplete _ | .sleepEnd _ _ | .slotAccept _ | .taskIssue _ _ | .taskRetire _
  | .cohortAdmit _ | .cohortStart _ | .crewRelease _ | .rendezvousStall _ _ | .waitvReread _ _ | .waitcReread _ _
  | .matrixStep _ | .updateStep _ | .twaitvReread _ _ | .waitTimeout _ _ | .poolEntryTake _ | .taskFault _
  | .freshnessFault _ | .egressRelease _ _ | .ingressConsume _ _ | .unitStopAck _ _ | .contextRestore _
  | .islandPowerDown _ | .islandPowerUp _ | .pagerRecordWrite _ _ | .stampScanVisit _ | .eftPatrolVisit _ _
  | .correctableError _ _ | .uncorrectableDataError _ _ | .coreFault _ | .coreReset _ | .matrixUnitReset _
  | .copyEngineReset _ | .windowLogicReset _ | .memrd _ | .memrdCaching _ | .memwr _ _ | .memwrptl _ _ _
  | .unsupportedRequest _ _ | .birsp _ _ | .hostSnoop _ | .hostLineFill _ _ | .getCertificate _ _ | .challenge _
  | .tickctlWrite _ | .ctx0 _ | .biascmdToHost _ | .biascmdToDevice _ | .flipComplete _ | .loadFirmwareImage _
  | .startFirmware _ | .readFirmwareVersion _ | .readCounts _ | .hostRegisterWrite _ _ | .stackRead _ _
  | .stackWrite _ _ | .stackStampRead _ _ | .stackMailbox _ _ | .timeBeat _ | .stackResponse _ _ | .flitReceive _ _
  | .replayRequest _ _ | .linkDown _ | .rekeyInterrupt _ _ | .directionStall _ | .timeSync _ | .writePacket _
  | .writeAcknowledgement _ | .readRequest _ | .readData _ | .atomicRequest _ | .atomicResult _ | .egressRecord _
  | .reject _ | .leaseRequest _ _ _ _ | .leaseGrant _ _ | .dropSlotOffer _ | .revocation _ | .leaseRelease _
  | .channelSetChange _ _ _ _ _ | .drainEnd _ _ _ | .retuneSettled _ _ _ | .tableidConfirm _ _ _ _
  | .unassignedOpcode _ | .linkUp _ | .unlistedOffsetRead _ | .nop | .ret | .exit | .fence | .mswap | .tret
  | .deviceTick | .hostLinkReset | .coldReset | .getMeasurements | .bootstGo | .featctlLock | .lkgo | .guardStart
  | .dataWindowStart | .dataWindowEnd => none

/-- The privileged instructions 0xE8 to 0xEF (R153). -/
def Instr.privileged : Instr → Bool
  | .csrr _ _ _ | .csrw _ _ _ | .stampsetReg _ _ _ | .stampsetGranule _ _ | .cmapw _ _ _ | .tlbinv _ _
  | .haltcHalt _ _ | .haltcResume _ _ | .haltcDebugHalt _ _ | .dbgstep _ | .tret => true
  | .bra _ | .bz _ _ | .bnz _ _ | .call _ | .jmpr _ | .cjoin _ | .bmask _ _ | .cleave _ | .winb _ | .rep _ _
  | .trap _ | .bkpt _ | .sleep _ | .add _ _ _ _ | .addi _ _ _ _ | .sub _ _ _ _ | .mul _ _ _ _ | .mulhs _ _ _ _
  | .mulhn _ _ _ _ | .mad _ _ _ _ _ | .mins _ _ _ _ | .minn _ _ _ _ | .maxs _ _ _ _ | .maxn _ _ _ _ | .abs _ _ _
  | .neg _ _ _ | .and _ _ _ | .or _ _ _ | .xor _ _ _ | .andn _ _ _ | .not _ _ | .shl _ _ _ _ | .shr _ _ _ _
  | .sra _ _ _ _ | .shli _ _ _ _ | .shri _ _ _ _ | .srai _ _ _ _ | .rotl _ _ _ _ | .popc _ _ _ | .clz _ _ _
  | .brev _ _ _ | .bfx _ _ _ | .bfi _ _ _ _ | .cmpeq _ _ _ _ | .cmplts _ _ _ _ | .cmpltn _ _ _ _ | .cmples _ _ _ _
  | .cmplen _ _ _ _ | .sel _ _ _ _ _ | .mov _ _ | .li _ _ | .lih _ _ _ | .lea _ _ _ | .fadd _ _ _ _ | .fsub _ _ _ _
  | .fmul _ _ _ _ | .ffma _ _ _ _ _ | .fmin _ _ _ _ | .fmax _ _ _ _ | .fabs _ _ _ | .fneg _ _ _ | .fcmpeq _ _ _ _
  | .fcmplt _ _ _ _ | .fcmple _ _ _ _ | .fcmpun _ _ _ _ | .frcp _ _ _ | .frsq _ _ _ | .fsqrt _ _ _ | .fexp2 _ _ _
  | .flog2 _ _ _ | .fsin _ _ _ | .fcos _ _ _ | .fscale _ _ _ _ | .fclass _ _ _ | .fdot _ _ _ _ | .fsum _ _ _
  | .fcvt _ _ _ _ | .fcvtam _ _ _ _ | .f2i _ _ _ _ | .i2f _ _ _ _ | .qpack _ _ _ _ | .qpackGs _ _ | .qpackBs _ _ _
  | .qunpk _ _ _ _ | .fpack _ _ _ _ | .funpk _ _ _ | .shfl _ _ _ | .shfliIdx _ _ _ | .shfliUp _ _ _
  | .shfliDown _ _ _ | .shfliXor _ _ _ | .voteall _ _ | .voteany _ _ | .ballot _ _ | .matchA _ _ | .scanadd _ _ _
  | .scanaddx _ _ _ | .redadd _ _ _ | .redmaxs _ _ _ | .redmaxn _ _ _ | .redmins _ _ _ | .redminn _ _ _
  | .redor _ _ _ | .fredadd _ _ _ | .fscanadd _ _ _ | .elect _ | .memb _ | .ld8 _ _ _ _ | .ld16 _ _ _ _
  | .ld32 _ _ _ _ | .ld64 _ _ _ _ | .ld128 _ _ _ _ | .ldx8 _ _ _ _ | .ldx16 _ _ _ _ | .ldx32 _ _ _ _ | .st8 _ _ _
  | .st16 _ _ _ | .st32 _ _ _ | .st64 _ _ _ | .st128 _ _ _ | .stg64 _ _ _ | .stg128 _ _ _ | .pref _ _ | .lds8 _ _ _ _
  | .lds16 _ _ _ _ | .lds32 _ _ _ _ | .lds64 _ _ _ _ | .lds128 _ _ _ _ | .sts8 _ _ _ | .sts16 _ _ _ | .sts32 _ _ _
  | .sts64 _ _ _ | .sts128 _ _ _ | .atadd32 _ _ _ _ | .atadd64 _ _ _ _ | .atmaxs32 _ _ _ _ | .atmaxn32 _ _ _ _
  | .atmins32 _ _ _ _ | .atminn32 _ _ _ _ | .ator64 _ _ _ _ | .atand64 _ _ _ _ | .atxor64 _ _ _ _ | .atxch64 _ _ _ _
  | .atcas64 _ _ _ _ | .fatadd32 _ _ _ _ | .fatmax32 _ _ _ _ | .waitv _ _ _ _ | .capinc _ _ _ | .capnrw _ _ _
  | .capperm _ _ _ | .capget _ _ | .capchk _ _ _ | .capscr _ _ _ | .capmov _ _ | .bcopy _ | .bfill _ | .bput _
  | .bget _ | .batomAdd _ _ | .batomOr _ _ | .batomXch _ _ | .batomCas _ _ | .batomMaxn _ _ | .batomFadd _ _
  | .actr _ _ _ | .waitc _ _ | .actrdBind _ _ | .actrdUnbind _ _ | .send _ _ _ | .leaseq _ _ | .mload _ | .mstream _
  | .mzero _ | .mread _ _ _ | .mscale _ | .mnorm _ | .mdrain _ _ | .mstat _ _ | .bar _ | .sbar _ | .arrive _ _
  | .await _ _ | .movs _ _ | .movsw _ _ | .stampr _ _ | .agejoin _ _ _ | .age _ _ | .agechk _ _ | .pagedoneResume _ _
  | .pagedoneMap _ _ | .pagedoneFail _ _ | .tbuf _ | .tdrop _ | .tlaunch _ | .tcopy _ | .tfill _ | .tstamp _ | .tbr _
  | .tbrc _ | .tcall _ | .tretTask _ | .twaitv _ | .tsig _ | .tmark _ | .tfence _ | .tlease _ | .trotate _ | .tport _
  | .tscope _ | .tsetk _ | .taddk _ | .tbrk _ | .tpagerRegister _ | .tpagerUnregister _ | .tctxCreate _
  | .tctxDestroy _ | .tctxHalt _ | .tctxResume _ | .tctxSetPriority _ | .tnop _ | .longLatencyComplete _ _ _
  | .enginePacket _ _ | .engineComplete _ | .sleepEnd _ _ | .slotAccept _ | .taskIssue _ _ | .taskRetire _
  | .cohortAdmit _ | .cohortStart _ | .crewRelease _ | .rendezvousStall _ _ | .waitvReread _ _ | .waitcReread _ _
  | .matrixStep _ | .updateStep _ | .twaitvReread _ _ | .waitTimeout _ _ | .poolEntryTake _ | .taskFault _
  | .freshnessFault _ | .egressRelease _ _ | .ingressConsume _ _ | .unitStopAck _ _ | .contextRestore _
  | .islandPowerDown _ | .islandPowerUp _ | .pagerRecordWrite _ _ | .stampScanVisit _ | .eftPatrolVisit _ _
  | .correctableError _ _ | .uncorrectableDataError _ _ | .coreFault _ | .coreReset _ | .matrixUnitReset _
  | .copyEngineReset _ | .windowLogicReset _ | .memrd _ | .memrdCaching _ | .memwr _ _ | .memwrptl _ _ _
  | .unsupportedRequest _ _ | .birsp _ _ | .hostSnoop _ | .hostLineFill _ _ | .getCertificate _ _ | .challenge _
  | .tickctlWrite _ | .ctx0 _ | .biascmdToHost _ | .biascmdToDevice _ | .flipComplete _ | .loadFirmwareImage _
  | .startFirmware _ | .readFirmwareVersion _ | .readCounts _ | .hostRegisterWrite _ _ | .stackRead _ _
  | .stackWrite _ _ | .stackStampRead _ _ | .stackMailbox _ _ | .timeBeat _ | .stackResponse _ _ | .flitReceive _ _
  | .replayRequest _ _ | .linkDown _ | .rekeyInterrupt _ _ | .directionStall _ | .timeSync _ | .writePacket _
  | .writeAcknowledgement _ | .readRequest _ | .readData _ | .atomicRequest _ | .atomicResult _ | .egressRecord _
  | .reject _ | .leaseRequest _ _ _ _ | .leaseGrant _ _ | .dropSlotOffer _ | .revocation _ | .leaseRelease _
  | .channelSetChange _ _ _ _ _ | .drainEnd _ _ _ | .retuneSettled _ _ _ | .tableidConfirm _ _ _ _
  | .unassignedOpcode _ | .linkUp _ | .unlistedOffsetRead _ | .nop | .ret | .exit | .fence | .mswap | .deviceTick
  | .hostLinkReset | .coldReset | .getMeasurements | .bootstGo | .featctlLock | .lkgo | .guardStart
  | .dataWindowStart | .dataWindowEnd => false

/-- How many slots an instruction takes (R148). -/
def Instr.slots : Instr → Nat
  | .mad _ _ _ _ _ | .bfi _ _ _ _ | .sel _ _ _ _ _ | .li _ _ | .lih _ _ _ | .ffma _ _ _ _ _ => 2
  | .bra _ | .bz _ _ | .bnz _ _ | .call _ | .jmpr _ | .cjoin _ | .bmask _ _ | .cleave _ | .winb _ | .rep _ _
  | .trap _ | .bkpt _ | .sleep _ | .add _ _ _ _ | .addi _ _ _ _ | .sub _ _ _ _ | .mul _ _ _ _ | .mulhs _ _ _ _
  | .mulhn _ _ _ _ | .mins _ _ _ _ | .minn _ _ _ _ | .maxs _ _ _ _ | .maxn _ _ _ _ | .abs _ _ _ | .neg _ _ _
  | .and _ _ _ | .or _ _ _ | .xor _ _ _ | .andn _ _ _ | .not _ _ | .shl _ _ _ _ | .shr _ _ _ _ | .sra _ _ _ _
  | .shli _ _ _ _ | .shri _ _ _ _ | .srai _ _ _ _ | .rotl _ _ _ _ | .popc _ _ _ | .clz _ _ _ | .brev _ _ _
  | .bfx _ _ _ | .cmpeq _ _ _ _ | .cmplts _ _ _ _ | .cmpltn _ _ _ _ | .cmples _ _ _ _ | .cmplen _ _ _ _ | .mov _ _
  | .lea _ _ _ | .fadd _ _ _ _ | .fsub _ _ _ _ | .fmul _ _ _ _ | .fmin _ _ _ _ | .fmax _ _ _ _ | .fabs _ _ _
  | .fneg _ _ _ | .fcmpeq _ _ _ _ | .fcmplt _ _ _ _ | .fcmple _ _ _ _ | .fcmpun _ _ _ _ | .frcp _ _ _ | .frsq _ _ _
  | .fsqrt _ _ _ | .fexp2 _ _ _ | .flog2 _ _ _ | .fsin _ _ _ | .fcos _ _ _ | .fscale _ _ _ _ | .fclass _ _ _
  | .fdot _ _ _ _ | .fsum _ _ _ | .fcvt _ _ _ _ | .fcvtam _ _ _ _ | .f2i _ _ _ _ | .i2f _ _ _ _ | .qpack _ _ _ _
  | .qpackGs _ _ | .qpackBs _ _ _ | .qunpk _ _ _ _ | .fpack _ _ _ _ | .funpk _ _ _ | .shfl _ _ _ | .shfliIdx _ _ _
  | .shfliUp _ _ _ | .shfliDown _ _ _ | .shfliXor _ _ _ | .voteall _ _ | .voteany _ _ | .ballot _ _ | .matchA _ _
  | .scanadd _ _ _ | .scanaddx _ _ _ | .redadd _ _ _ | .redmaxs _ _ _ | .redmaxn _ _ _ | .redmins _ _ _
  | .redminn _ _ _ | .redor _ _ _ | .fredadd _ _ _ | .fscanadd _ _ _ | .elect _ | .memb _ | .ld8 _ _ _ _
  | .ld16 _ _ _ _ | .ld32 _ _ _ _ | .ld64 _ _ _ _ | .ld128 _ _ _ _ | .ldx8 _ _ _ _ | .ldx16 _ _ _ _ | .ldx32 _ _ _ _
  | .st8 _ _ _ | .st16 _ _ _ | .st32 _ _ _ | .st64 _ _ _ | .st128 _ _ _ | .stg64 _ _ _ | .stg128 _ _ _ | .pref _ _
  | .lds8 _ _ _ _ | .lds16 _ _ _ _ | .lds32 _ _ _ _ | .lds64 _ _ _ _ | .lds128 _ _ _ _ | .sts8 _ _ _ | .sts16 _ _ _
  | .sts32 _ _ _ | .sts64 _ _ _ | .sts128 _ _ _ | .atadd32 _ _ _ _ | .atadd64 _ _ _ _ | .atmaxs32 _ _ _ _
  | .atmaxn32 _ _ _ _ | .atmins32 _ _ _ _ | .atminn32 _ _ _ _ | .ator64 _ _ _ _ | .atand64 _ _ _ _ | .atxor64 _ _ _ _
  | .atxch64 _ _ _ _ | .atcas64 _ _ _ _ | .fatadd32 _ _ _ _ | .fatmax32 _ _ _ _ | .waitv _ _ _ _ | .capinc _ _ _
  | .capnrw _ _ _ | .capperm _ _ _ | .capget _ _ | .capchk _ _ _ | .capscr _ _ _ | .capmov _ _ | .bcopy _ | .bfill _
  | .bput _ | .bget _ | .batomAdd _ _ | .batomOr _ _ | .batomXch _ _ | .batomCas _ _ | .batomMaxn _ _
  | .batomFadd _ _ | .actr _ _ _ | .waitc _ _ | .actrdBind _ _ | .actrdUnbind _ _ | .send _ _ _ | .leaseq _ _
  | .mload _ | .mstream _ | .mzero _ | .mread _ _ _ | .mscale _ | .mnorm _ | .mdrain _ _ | .mstat _ _ | .bar _
  | .sbar _ | .arrive _ _ | .await _ _ | .movs _ _ | .movsw _ _ | .stampr _ _ | .agejoin _ _ _ | .age _ _
  | .agechk _ _ | .pagedoneResume _ _ | .pagedoneMap _ _ | .pagedoneFail _ _ | .csrr _ _ _ | .csrw _ _ _
  | .stampsetReg _ _ _ | .stampsetGranule _ _ | .cmapw _ _ _ | .tlbinv _ _ | .haltcHalt _ _ | .haltcResume _ _
  | .haltcDebugHalt _ _ | .dbgstep _ | .tbuf _ | .tdrop _ | .tlaunch _ | .tcopy _ | .tfill _ | .tstamp _ | .tbr _
  | .tbrc _ | .tcall _ | .tretTask _ | .twaitv _ | .tsig _ | .tmark _ | .tfence _ | .tlease _ | .trotate _ | .tport _
  | .tscope _ | .tsetk _ | .taddk _ | .tbrk _ | .tpagerRegister _ | .tpagerUnregister _ | .tctxCreate _
  | .tctxDestroy _ | .tctxHalt _ | .tctxResume _ | .tctxSetPriority _ | .tnop _ | .longLatencyComplete _ _ _
  | .enginePacket _ _ | .engineComplete _ | .sleepEnd _ _ | .slotAccept _ | .taskIssue _ _ | .taskRetire _
  | .cohortAdmit _ | .cohortStart _ | .crewRelease _ | .rendezvousStall _ _ | .waitvReread _ _ | .waitcReread _ _
  | .matrixStep _ | .updateStep _ | .twaitvReread _ _ | .waitTimeout _ _ | .poolEntryTake _ | .taskFault _
  | .freshnessFault _ | .egressRelease _ _ | .ingressConsume _ _ | .unitStopAck _ _ | .contextRestore _
  | .islandPowerDown _ | .islandPowerUp _ | .pagerRecordWrite _ _ | .stampScanVisit _ | .eftPatrolVisit _ _
  | .correctableError _ _ | .uncorrectableDataError _ _ | .coreFault _ | .coreReset _ | .matrixUnitReset _
  | .copyEngineReset _ | .windowLogicReset _ | .memrd _ | .memrdCaching _ | .memwr _ _ | .memwrptl _ _ _
  | .unsupportedRequest _ _ | .birsp _ _ | .hostSnoop _ | .hostLineFill _ _ | .getCertificate _ _ | .challenge _
  | .tickctlWrite _ | .ctx0 _ | .biascmdToHost _ | .biascmdToDevice _ | .flipComplete _ | .loadFirmwareImage _
  | .startFirmware _ | .readFirmwareVersion _ | .readCounts _ | .hostRegisterWrite _ _ | .stackRead _ _
  | .stackWrite _ _ | .stackStampRead _ _ | .stackMailbox _ _ | .timeBeat _ | .stackResponse _ _ | .flitReceive _ _
  | .replayRequest _ _ | .linkDown _ | .rekeyInterrupt _ _ | .directionStall _ | .timeSync _ | .writePacket _
  | .writeAcknowledgement _ | .readRequest _ | .readData _ | .atomicRequest _ | .atomicResult _ | .egressRecord _
  | .reject _ | .leaseRequest _ _ _ _ | .leaseGrant _ _ | .dropSlotOffer _ | .revocation _ | .leaseRelease _
  | .channelSetChange _ _ _ _ _ | .drainEnd _ _ _ | .retuneSettled _ _ _ | .tableidConfirm _ _ _ _
  | .unassignedOpcode _ | .linkUp _ | .unlistedOffsetRead _ | .nop | .ret | .exit | .fence | .mswap | .tret
  | .deviceTick | .hostLinkReset | .coldReset | .getMeasurements | .bootstGo | .featctlLock | .lkgo | .guardStart
  | .dataWindowStart | .dataWindowEnd => 1

/-! ### Classes and clauses -/

/-- The class of an opcode (R141). -/
inductive OpClass where
  | fixedLat | longLat | holding | control
  deriving DecidableEq, Repr

/-- The class that the opcode tables of R150 give; an unassigned code counts as class F (R160). -/
def opClass (op : Nat) : OpClass :=
  if (1 ≤ op && op ≤ 7) || op == 0x0D || op == 0x0E || op == 0xE8 then .control
  else if op == 0x08 || op == 0x0F || op == 0x97 || op == 0xA6 || op == 0xC0 || op == 0xC1 || op == 0xC3 then .holding
  else if (0x4C ≤ op && op ≤ 0x52) || op == 0x5B || op == 0x5C || (0x60 ≤ op && op ≤ 0x96) || op == 0x98 || op == 0x9C
      || (0xA0 ≤ op && op ≤ 0xA5) || (0xA7 ≤ op && op ≤ 0xA9) || (0xB0 ≤ op && op ≤ 0xB8) || op == 0xE6 || op == 0xEB
      || op == 0xED then .longLat
  else .fixedLat

/-- The opcode of a word. -/
def opOf (w : BitVec 32) : Nat := w.toNat / 2 ^ 24

/-- LEN of a header, the slot count minus 1 (R139). -/
def hdrLen (h : BitVec 32) : Nat := bits h.toNat 2 0
/-- DIST of a header. -/
def hdrDist (h : BitVec 32) : Nat := bits h.toNat 5 3
/-- YIELD of a header. -/
def hdrYield (h : BitVec 32) : Bool := h.getLsbD 6
/-- WAIT of a header: bit n names flag fn. -/
def hdrWait (h : BitVec 32) : Nat := bits h.toNat 18 7
/-- SETA of a header. -/
def hdrSetA (h : BitVec 32) : Nat := bits h.toNat 22 19
/-- SETB of a header. -/
def hdrSetB (h : BitVec 32) : Nat := bits h.toNat 26 23

/-- The instruction words of a clause's slots in order, each with its slot index; the second words of L forms are skipped. -/
def instrSlots (i : Nat) : List (BitVec 32) → List (Nat × BitVec 32)
  | [] => []
  | w :: ws =>
    if isLongForm (w.extractLsb' 24 8) then
      match ws with
      | [] => [(i, w)]
      | _ :: ws' => (i, w) :: instrSlots (i + 2) ws'
    else (i, w) :: instrSlots (i + 1) ws

/-- Whether a `REP` is followed by a `REP` or by a class C, H or L instruction (R140). -/
def repMisplaced : List (Nat × BitVec 32) → Bool
  | [] => false
  | [(_, w)] => opOf w == 0x0C
  | (_, w) :: (j, x) :: rest =>
    (opOf w == 0x0C && (opOf x == 0x0C || opClass (opOf x) != .fixedLat)) || repMisplaced ((j, x) :: rest)

/-- A clause that R139 and R140 accept. -/
def clauseOk (c : Clause) : Bool :=
  let h := c.header
  let n := hdrLen h + 1
  let is := instrSlots 0 c.slots
  let flagOk := fun f => f ≤ 11 || f == 15
  bits h.toNat 31 27 == 0 && flagOk (hdrSetA h) && flagOk (hdrSetB h)
    && (is.filter (fun p => opClass (opOf p.2) == .longLat)).length ≤ 2
    && is.all (fun p =>
        (!isLongForm (p.2.extractLsb' 24 8) || p.1 + 1 < n)
          && (!(opClass (opOf p.2) == .control || opOf p.2 == 0x0B) || p.1 + 1 == n)
          && (opOf p.2 != 0x0C || p.1 + 1 < n))
    && !repMisplaced is

/-- Whether slot i of a clause is an instruction word, not the second word of an L form (R142). -/
def isInstrSlot (c : Clause) (i : Nat) : Bool := (instrSlots 0 c.slots).any (fun p => p.1 == i)

/-- The flag that the class-L instruction in slot i sets: SETA for the first of its clause, SETB for the second; 0xF sets
none (R139, R141). -/
def flagOfSlot (c : Clause) (i : Nat) : Option Nat :=
  let before := (instrSlots 0 c.slots).filter (fun p => p.1 < i && opClass (opOf p.2) == .longLat)
  let f := if before.isEmpty then hdrSetA c.header else hdrSetB c.header
  if f ≤ 11 then some f else none

/-! ### Registers -/

/-- The physical register that a field names: `wbase` + field (R144). -/
def Thread.phys (t : Thread) (f : RegField) : Nat := t.wbase.toNat + f.toNat

/-- What gz reads as (R144). -/
def Reg.zero : Reg := { v := 0#64, s := sTimeless }

/-- The register a field names; 127 is gz (R144). -/
def Thread.rd (t : Thread) (f : RegField) : Reg := if f = 127#7 then Reg.zero else t.regs.getD (t.phys f) Reg.zero

/-- The value of a register field. -/
def Thread.val (t : Thread) (f : RegField) : Word := (t.rd f).v

/-- Register i of a group or pair that starts at field f. -/
def Thread.rdAt (t : Thread) (f : RegField) (i : Nat) : Reg := t.regs.getD (t.phys f + i) Reg.zero

/-- The tag bit of the pair that a field names (R146). -/
def Thread.tagAt (t : Thread) (f : RegField) : Bool := t.tags.getD (t.phys f / 2) false

/-- The capability words of a pair. -/
def Thread.capAt (t : Thread) (f : RegField) : CapW := { lo := (t.rdAt f 0).v, hi := (t.rdAt f 1).v }

/-- The field whose register lies at or beyond the allocation, with its number `wbase` + field (R144): the first in the order
D, A, B, C, or the first of a group that includes the field 127 or passes the allocation (R251). -/
def rangeFault (t : Thread) (i : Instr) : Option Nat :=
  let past := (Instr.fields i).filter (fun v => v != 127 && decide (t.regs.length ≤ t.wbase.toNat + v))
  let overG :=
    match Instr.group i with
    | none => []
    | some (f, n) =>
      (listOf n (fun k => f + k)).filter (fun v => v ≥ 127 || decide (t.regs.length ≤ t.wbase.toNat + v))
  match past ++ overG with
  | [] => none
  | v :: _ => some (t.wbase.toNat + v)

end Sys2Proof.Machine
end

