-- ==== Sys2Proof/Machine/Ops.lean ====
section
/-!
DEFINITION. The named operations of the machine: records and registers by name, free values, the error log (R345), the table
walk (R362), page faults and parking (R31, R366, R370), taking a trap (R326) and returning from one (R327), and the loop that
issues one instruction for every thread of a bundle (R27, R154).
-/

namespace Sys2Proof.Machine

/-! ### Records -/

/-- The thread `tid` of crew `cr`. -/
def State.thread (s : State) (cr tid : Nat) : Option Thread := s.threads.find? (fun t => t.crew == cr && t.tid == tid)
/-- Write a thread back. -/
def State.setThread (s : State) (t : Thread) : State :=
  { s with threads := replaceFirst (fun u => u.crew == t.crew && u.tid == t.tid) t s.threads }
/-- Apply f to every thread. -/
def State.mapThreads (s : State) (f : Thread → Thread) : State := { s with threads := s.threads.map f }

/-- The crew with a record number. -/
def State.crew (s : State) (cr : Nat) : Option Crew := s.crews.find? (fun c => c.uid == cr)
/-- Write a crew back. -/
def State.setCrew (s : State) (c : Crew) : State := { s with crews := replaceFirst (fun d => d.uid == c.uid) c s.crews }
/-- Apply f to a crew. -/
def State.modCrew (s : State) (cr : Nat) (f : Crew → Crew) : State :=
  match s.crew cr with
  | none => s
  | some c => s.setCrew (f c)

/-- The cohort with a record number. -/
def State.cohort (s : State) (h : Nat) : Option Cohort := s.cohorts.find? (fun c => c.uid == h)
/-- Write a cohort back. -/
def State.setCohort (s : State) (c : Cohort) : State :=
  { s with cohorts := replaceFirst (fun d => d.uid == c.uid) c s.cohorts }

/-- The context with a number. -/
def State.ctx (s : State) (c : Nat) : Option Ctx := s.ctxs.find? (fun x => x.num == c)
/-- Write a context back. -/
def State.setCtx (s : State) (c : Ctx) : State := { s with ctxs := replaceFirst (fun d => d.num == c.num) c s.ctxs }
/-- Apply f to a context. -/
def State.modCtx (s : State) (c : Nat) (f : Ctx → Ctx) : State :=
  match s.ctx c with
  | none => s
  | some x => s.setCtx (f x)

/-- The window entry with a record number. -/
def Ctx.task (c : Ctx) (t : Nat) : Option Task := c.window.find? (fun x => x.uid == t)
/-- Write a window entry back. -/
def Ctx.setTask (c : Ctx) (t : Task) : Ctx := { c with window := replaceFirst (fun x => x.uid == t.uid) t c.window }
/-- The task of a context. -/
def State.task (s : State) (c t : Nat) : Option Task := (s.ctx c).bind (fun x => x.task t)
/-- Apply f to a task. -/
def State.modTask (s : State) (c t : Nat) (f : Task → Task) : State :=
  s.modCtx c (fun x => match x.task t with
    | none => x
    | some y => x.setTask (f y))

/-- The engine thread with a record number. -/
def State.engine (s : State) (e : Nat) : Option Engine := s.engines.find? (fun x => x.uid == e)
/-- Write an engine thread back. -/
def State.setEngine (s : State) (e : Engine) : State :=
  { s with engines := replaceFirst (fun x => x.uid == e.uid) e s.engines }

/-- A partition entry. -/
def State.part (s : State) (p : Nat) : Part := s.parts.getD p Part.reset
/-- Apply f to a partition entry. -/
def State.modPart (s : State) (p : Nat) (f : Part → Part) : State := { s with parts := modifyAt f p s.parts }

/-- A core's entry; a core without one has AVAIL 1 and FENCED 0 (R333). -/
def State.coreEntry (s : State) (k : Nat) : CoreEntry :=
  match s.cores.find? (fun e => e.core == k) with
  | some e => e
  | none => { core := k, fenced := false, avail := true, next := none, errors := 0 }
/-- Write a core's entry. -/
def State.setCoreEntry (s : State) (e : CoreEntry) : State :=
  if s.cores.any (fun x => x.core == e.core) then
    { s with cores := replaceFirst (fun x => x.core == e.core) e s.cores }
  else { s with cores := s.cores ++ [e] }

/-- A fresh record number. -/
def State.fresh (s : State) : Nat × State := (s.nextUid, { s with nextUid := s.nextUid + 1 })

/-- A free value below n: nothing constrains which (log 2). -/
def State.choose (s : State) (n : Nat) : Nat × State :=
  (Config.freeNat s.freeCtr % n, { s with freeCtr := s.freeCtr + 1 })

/-- A free value. -/
def State.freeVal (s : State) : Nat × State := (Config.freeNat s.freeCtr, { s with freeCtr := s.freeCtr + 1 })

/-- The die of a core (R333: core = 384 die + 8 cluster + core). -/
def dieOf (core : Nat) : Nat := core / Config.coresPerDie
/-- The cluster of a core, numbered over the package. -/
def clusterOf (core : Nat) : Nat := core / Config.coresPerCluster
/-- The partition of a die: the entry whose DIES names it (R343). -/
def State.partOfDie (s : State) (die : Nat) : Nat :=
  ((List.range 8).find? (fun p => (s.part p).dies.getLsbD die)).getD 0

/-- Bytes of usable device memory (R2, R419): 16 stacks of 4 GiB per layer of height. -/
def State.capacity (s : State) : Nat := 16 * (s.height * 2 ^ 32)

/-- Send an MSI-X vector (R408). -/
def State.sendMsix (s : State) (v : Nat) : State := { s with msix := s.msix ++ [v] }
/-- Return a message to the host. -/
def State.toHost (s : State) (m : HostMsg) : State := { s with hostOut := s.hostOut ++ [m] }

/-! ### Host lines and bias (R224, R412 to R414) -/

/-- Bytes of the bias table (R411). -/
def State.biasBytes (s : State) : Nat := s.capacity / 32768

/-- Whether n bytes at a physical address touch the bias table. -/
def State.inBiasTable (s : State) (a n : Nat) : Bool :=
  s.hl.biasSet && decide (s.hl.biasbase.toNat < a + n) && decide (a < s.hl.biasbase.toNat + s.biasBytes)

/-- Fill the host line of an address that the device does not hold: both granules take DATA at the arrival tick (R224). -/
def State.fillHost (s : State) (pa : Nat) : State :=
  let line := pa / 64
  if s.hl.lines.contains line then s
  else
    let d := clampStamp s.now (dataAt s.now)
    { s with
      hl := { s.hl with lines := s.hl.lines ++ [line] }
      hmem := (s.hmem.putStamp (2 * line) d).putStamp (2 * line + 1) d }

/-- Fill every host line that n bytes from pa touch. -/
def State.fillHostRange (s : State) (pa n : Nat) : State :=
  (listOf ((pa + n - 1) / 64 - pa / 64 + 1) (fun i => (pa / 64 + i) * 64)).foldl State.fillHost s

/-- The bias bit of a device page (R411): the table in device memory; device bias while BIASBASE is unwritten. -/
def State.hostBias (s : State) (pa : Nat) : Bool :=
  s.hl.biasSet && bit (s.mem.byte (s.hl.biasbase.toNat + pa / 32768)).toNat (pa / 4096 % 8)

/-- Whether a device access to a line may be made now: its page is not in transition and, under host bias, its snoop has been
answered (R412, R414). -/
def State.lineReady (s : State) (pa : Nat) : Bool :=
  !s.hl.flips.any (fun f => f.page == pa / 4096) && (!s.hostBias pa || s.hl.answered.contains (pa / 64))

/-- Ask the host for a line of a host-bias page (R412): BISnpData for a read, BISnpInv otherwise. -/
def State.askLine (s : State) (pa : Nat) (read : Bool) : State :=
  if s.lineReady pa || s.hl.flips.any (fun f => f.page == pa / 4096) || s.hl.snoops.contains (pa / 64) then s
  else { s with hl := { s.hl with snoops := s.hl.snoops ++ [pa / 64] } }.toHost (.snoop (pa / 64 * 64) read)

/-- As s, with the lines asked for that s1 has asked for: what an access leaves that waits for the host (R412). -/
def State.asking (s s1 : State) : State := { s with hl := { s.hl with snoops := s1.hl.snoops }, hostOut := s1.hostOut }

/-- The 64-byte lines that n bytes from pa touch. -/
def linesOf (pa n : Nat) : List Nat := listOf ((pa + n - 1) / 64 - pa / 64 + 1) (fun i => (pa / 64 + i) * 64)

/-- Note the answered lines that an access has used: the end of the move spends them, so that one answer serves all of one access, its
table nodes and the parts of a clause among them (R412). -/
def State.useLines (s : State) (pa n : Nat) : State :=
  { s with hl := { s.hl with walked := s.hl.walked ++ s.hl.answered.filter (fun l => (linesOf pa n).contains (l * 64)) } }

/-- The answers that a move has used are gone. -/
def State.spendLines (s : State) : State :=
  { s with hl := { s.hl with answered := s.hl.answered.filter (fun l => !s.hl.walked.contains l), walked := [] } }

/-- The lines that n bytes from pa touch may all be accessed now (R412, R414). -/
def State.linesReady (s : State) (pa n : Nat) : Bool := (linesOf pa n).all s.lineReady
/-- Ask the host for the lines that are not ready. -/
def State.askLines (s : State) (pa n : Nat) (read : Bool) : State := (linesOf pa n).foldl (fun s l => s.askLine l read) s

/-! ### The error log (R345) -/

/-- The four words of an error record. -/
def errorWords (cls : Nat) (ovf : Bool) (action : Nat) (ctx : Option Nat) (part unit : Nat) (virt : Bool) (addr synd count
    now : Nat) : List Byte :=
  toBytes 8 (cls * 2 ^ 56 + b2n ovf * 2 ^ 55 + action * 2 ^ 40
      + (match ctx with
          | some c => c % 64 * 2 ^ 34 + 2 ^ 30
          | none => 0)
      + part % 8 * 2 ^ 31 + unit % 4096)
    ++ toBytes 8 (b2n virt * 2 ^ 63 + addr % 2 ^ 56)
    ++ toBytes 8 (synd % 256 * 256 + min count 255)
    ++ toBytes 8 now

/-- Write a record at a physical address, or leave it among the device's own writes that wait for a line (R412). -/
def State.writeRecord (s : State) (a : Nat) (bs : List Byte) : State :=
  if !s.owed.isEmpty || !s.linesReady a bs.length then { s.askLines a bs.length false with owed := s.owed ++ [(a, bs)] }
  else { s.useLines a bs.length with mem := s.mem.engineWrite s.now a bs (fun _ => sTimeless) }

/-- Write record n of a ring in device memory: OVF is set when its position holds an unread record (R345). -/
def State.writeRing (s : State) (base logn n : Nat) (rec : Bool → List Byte) : State :=
  let a := base + 32 * (n % 2 ^ logn)
  let unread := (s.mem.readNat a 8) / 2 ^ 56 != 0
  s.writeRecord a (rec unread)

/-- Write an error record to the partition's ring, or to the host-side ring when it belongs to none. A ring whose address and
size nothing has written takes no record (log 12). -/
def State.logError (s : State) (part : Option Nat) (cls action : Nat) (ctx : Option Nat) (unit : Nat) (virt : Bool)
    (addr synd count : Nat) : State :=
  match part with
  | some p =>
    let e := s.part p
    if e.elogSet = false then s
    else (s.writeRing e.elog.toNat e.elogn.toNat e.elogNext
        (fun ovf => errorWords cls ovf action ctx p unit virt addr synd count s.now)).modPart p
          (fun e => { e with elogNext := e.elogNext + 1 })
  | none =>
    if s.hl.hlogSet = false then s
    else
      let s' := s.writeRing s.hl.hlogbase.toNat s.hl.hlogn.toNat s.hl.hlogNext
        (fun ovf => errorWords cls ovf action ctx 0 unit virt addr synd count s.now)
      { s' with hl := { s'.hl with hlogNext := s'.hl.hlogNext + 1 } }

/-- The record of a violation or data error met by a core's thread, engine or command, or by a unit without a core (R345). -/
def State.logCtx (s : State) (c : Nat) (cls action : Nat) (core : Option Nat) (virt : Bool) (addr : Nat) : State :=
  let part := (s.ctx c).map (fun x => x.part)
  s.logError part cls action (some c) (core.getD 0xFFF) virt addr 0
    (match core with
      | some k => (s.coreEntry k).errors
      | none => 0)

/-! ### Physical memory and translation (R360 to R366) -/

/-- Whether a physical address range lies in a window of the partition and in a stack (R343, R344, R419). The bias table lies outside
every window, wherever the windows are (R411; DEDUCED, log 64). -/
def State.inWindows (s : State) (part a n : Nat) : Bool :=
  a + n ≤ s.capacity && !s.inBiasTable a n && (s.part part).win.any (fun w => w.1.toNat ≤ a && a + n ≤ w.2.toNat)

/-- Whether a feature is agreed (R429, R430): 0 SWIN, 1 PAGER, 2 FABRIC, 3 ROTATE, 4 IGATE, 5 CACHE, 6 DEBUG, 7 CONTAIN. -/
def State.agreed (s : State) (n : Nat) : Bool := s.hl.features.getLsbD n

/-- Whether a host physical range is open to the partition: CACHE agreed and inside HWINBASE to HWINLIM (R418, R430). -/
def State.hostOpen (s : State) (part a n : Nat) : Bool :=
  s.agreed 5 && decide ((s.part part).hwinbase.toNat ≤ a) && decide (a + n ≤ (s.part part).hwinlim.toNat)

/-- The kind of an access for the walk and for a pager record (R362, R369). -/
inductive AccKind where
  | load | store | atomic | fetch
  deriving DecidableEq, Repr

/-- ACC bits of a pager record (R369). -/
def AccKind.acc : AccKind → Nat
  | .load => 1
  | .store => 2
  | .atomic => 4
  | .fetch => 8

/-- The result of a walk (R362): a page's address and whether it lies in host memory, a translation fault by the KIND of its
record (R369), a structure fault, a violation, a poisoned entry (R44), or a node's line that the host may hold (R412). -/
inductive Walk where
  | page (pa : Nat) (host : Bool)
  | tfault (kind : Nat)
  | structureFault (node : Nat)
  | violation (pa : Nat)
  | poison (pa : Nat)
  | wait
  deriving DecidableEq, Repr

/-- The index of a virtual address at a level (R360). -/
def walkIndex (level va : Nat) : Nat :=
  match level with
  | 3 => bits va 55 43
  | 2 => bits va 42 30
  | 1 => bits va 29 21
  | _ => bits va 20 16

/-- The low bits below a level's index (R360). -/
def levelShift (level : Nat) : Nat :=
  match level with
  | 3 => 43
  | 2 => 30
  | 1 => 21
  | _ => 16

/-- The alignment of the node that a pointer at this level names (R360). -/
def nodeAlign (level : Nat) : Nat := if level = 3 then 65536 else 4096

/-- A malformed entry (R361, R362): MBZ bits, a pointer at level 0, a leaf at level 3, a misaligned address. -/
def entryBad (level : Nat) (e : Nat) : Bool :=
  let ty := bits e 1 0
  let addr := bits e 51 12 * 4096
  bits e 63 52 != 0 || bits e 11 8 != 0
    || (ty == 1 && bits e 7 5 != 0) || (ty != 1 && bits e 4 2 != 0)
    || (ty == 1 && level == 0) || (2 ≤ ty && level == 3)
    || (ty == 1 && addr % nodeAlign level != 0)
    || (2 ≤ ty && addr % 2 ^ levelShift level != 0)

/-- Note an entry that a walk used: pointers and leaves may be cached (R364), and every thread of a bundle has the one result of its
unit (R363). -/
def State.noteEntry (s : State) (c level vpn e : Nat) : State :=
  let ty := bits e 1 0
  let entry : TlbEntry := { ctx := c, level := level, vpn := vpn, entry := BitVec.ofNat 64 e }
  let s := if (ty == 1 || ty == 2) && !s.tlb.contains entry then { s with tlb := s.tlb ++ [entry] } else s
  if s.bundle.isEmpty then s else { s with looks := s.looks ++ [((c, level, vpn), e)] }

/-- Read a table entry from memory: a poisoned granule ends the walk (R44), a host node's line is filled (R224), and a line that the
host may hold is asked for (R412). -/
def State.readEntry (s : State) (a : Nat) (host : Bool) : (Walk ⊕ Nat) × State :=
  if host then
    let s := s.fillHost a
    (if s.hmem.isPoison (a / 32) then .inl (.poison a) else .inr (s.hmem.readNat a 8), s)
  else if s.lineReady a = false then (.inl .wait, s.askLine a true)
  else (if s.mem.isPoison (a / 32) then .inl (.poison a) else .inr (s.mem.readNat a 8), s.useLines a 8)

/-- A table entry as the walk sees it: memory's, or by a free choice a cached one (R364). A node whose line the host may hold need not be
read when its entry is cached. -/
def State.tableEntry (s : State) (c level va node : Nat) (host : Bool) : (Walk ⊕ Nat) × State :=
  let a := node + 8 * walkIndex level va
  let vpn := va / 2 ^ levelShift level
  match s.looks.find? (fun l => l.1 == (c, level, vpn)) with
  | some l => (.inr l.2, s)
  | none =>
    let cached := s.tlb.filter (fun t => t.ctx == c && t.level == level && t.vpn == vpn)
    match s.readEntry a host, cached with
    | (.inl .wait, s'), [] => (.inl .wait, s')
    | (.inl .wait, _), t :: _ => (.inr t.entry.toNat, s.noteEntry c level vpn t.entry.toNat)
    | (.inl w, s'), [] => (.inl w, s')
    | (.inl w, s'), t :: _ =>
      let (k, s1) := s.choose 2
      if k = 0 then (.inl w, { s' with freeCtr := s1.freeCtr }) else (.inr t.entry.toNat, s1.noteEntry c level vpn t.entry.toNat)
    | (.inr e, s'), _ =>
      match cached.find? (fun t => t.entry.toNat != e) with
      | none => (.inr e, s'.noteEntry c level vpn e)
      | some t =>
        let (k, s1) := s.choose 2
        if k = 0 then (.inr e, { s' with freeCtr := s1.freeCtr }.noteEntry c level vpn e)
        else (.inr t.entry.toNat, s1.noteEntry c level vpn t.entry.toNat)

/-- One level of the walk (R362): where it ends, or the next node and whether that lies in host memory. -/
def State.walkEntry (s : State) (c part : Nat) (k : AccKind) (va level node : Nat) (host : Bool) : (Walk ⊕ (Nat × Bool)) × State :=
  let a := node + 8 * walkIndex level va
  if (if host then !s.hostOpen part a 8 else !s.inWindows part a 8) then (.inl (.violation a), s)
  else
    match s.tableEntry c level va node host with
    | (.inl w, s) => (.inl w, s)
    | (.inr e, s) =>
    let addr := bits e 51 12 * 4096
    if entryBad level e then (.inl (.structureFault node), s)
    else
      match bits e 1 0 with
      | 0 => (.inl (.tfault 1), s)
      | 3 => (.inl (.tfault 2), s)
      | 2 =>
        if (k = .store ∨ k = .atomic) ∧ bit e 5 = false then (.inl (.tfault 3), s)
        else if k = .fetch ∧ bit e 6 = false then (.inl (.tfault 4), s)
        else (.inl (.page (addr + va % 2 ^ levelShift level) (bit e 7)), s)
      | _ => if bit e 2 || 2 ≤ bits e 4 3 then (.inl (.structureFault addr), s) else (.inr (addr, bits e 4 3 == 1), s)

/-- The walk from a level down (R362). -/
def State.walkFrom (c part : Nat) (k : AccKind) (va : Nat) : Nat → Nat → Bool → State → Walk × State
  | 0, node, host, s =>
    match s.walkEntry c part k va 0 node host with
    | (.inl w, s) => (w, s)
    | (.inr _, s) => (.structureFault node, s)
  | level + 1, node, host, s =>
    match s.walkEntry c part k va (level + 1) node host with
    | (.inl w, s) => (w, s)
    | (.inr (next, inHost), s) => State.walkFrom c part k va level next inHost s

/-- The granules of n bytes of device memory become VACANT (R78). -/
def Memory.vacate (m : Memory) (pa n : Nat) : Memory :=
  { m with stamps := m.stamps.filter (fun p => p.1 < pa / 32 || (pa + n) / 32 ≤ p.1) }

/-- The first access of a 64 KiB unit of a fresh version that had no translation when the version was drawn finds it VACANT (R78). -/
def State.reachFresh (s : State) (c va pa : Nat) (host : Bool) : State :=
  match s.ctx c with
  | none => s
  | some x =>
    match x.unvacated.filter (fun u => u.1 / 65536 == va / 65536) with
    | [] => s
    | us =>
      let s := s.setCtx { x with unvacated := x.unvacated.filter (fun u => u.1 / 65536 != va / 65536) }
      if host then s
      else { s with mem := us.foldl (fun m u => m.vacate (pa - va % 65536 + u.1 % 65536) u.2) s.mem }

/-- The address an access of n bytes at va reaches in context c (R362, R344, R418). The scratchpad window is never translated:
entries that would map it are ignored (R216). -/
def State.translate (s : State) (c : Nat) (k : AccKind) (va n : Nat) : Walk × State :=
  match s.ctx c with
  | none => (.violation va, s)
  | some x =>
    if Config.scratchWindow ≤ va % 2 ^ 56 then (.tfault 1, s)
    else
    match State.walkFrom c x.part k va 3 x.root false s with
    | (.page pa host, s) =>
      if (if host then s.hostOpen x.part pa n else s.inWindows x.part pa n) then (.page pa host, s.reachFresh c va pa host)
      else (.violation pa, s)
    | (.wait, s1) => (.wait, s.asking s1)
    | r => r

/-! ### Fixed-latency results (R24, R123, R164) -/

/-- Write a special register or, from 1,024 on, a thread-scope CSR. -/
def Thread.putSreg (t : Thread) (n : Nat) (w : Word) : Thread :=
  match n with
  | 11 => { t with fpmode := w.setWidth 4 }
  | 13 => { t with amax := w.setWidth 32 }
  | 14 => { t with xmask := w.setWidth 32 }
  | 17 => { t with stkptr := w }
  | 19 => { t with dither := w.setWidth 6 }
  | 1025 => { t with epc := w }
  | 1028 => { t with ewbase := w }
  | 1029 => { t with erep := w }
  | 1030 => { t with ememb := w }
  | 1060 => { t with ctxsel := w.setWidth 6 }
  | 1088 => { t with dbgsel := w }
  | _ => if 33 ≤ n ∧ n ≤ 39 then { t with abs := modifyAt (fun _ => w) (n - 33) t.abs } else t

/-- Write one register; the pair's tag is written apart. -/
def Thread.putReg (t : Thread) (n : Nat) (r : Reg) : Thread := { t with regs := modifyAt (fun _ => r) n t.regs }
/-- Write one pair's tag bit. -/
def Thread.putTag (t : Thread) (n : Nat) (b : Bool) : Thread := { t with tags := modifyAt (fun _ => b) n t.tags }

/-- Make the results of one instruction visible: clears first, then sets, then the `amax` candidate (R164). -/
def Thread.apply (t : Thread) (p : Pend) : Thread :=
  let t := p.regs.foldl (fun t r => t.putReg r.1 r.2) t
  let t := p.tags.foldl (fun t r => t.putTag r.1 r.2) t
  let t := p.sregs.foldl (fun t r => t.putSreg r.1 r.2) t
  { t with
    fpstat := (t.fpstat &&& ~~~p.fclr) ||| p.fset
    stale := (t.stale &&& ~~~p.sclr) ||| p.sset
    amax := if t.amax.toNat < p.amax.toNat then p.amax else t.amax }

/-- Make every result that is due by a cycle visible. -/
def Thread.commit (cycle : Nat) (t : Thread) : Thread :=
  (t.pend.filter (fun p => p.due ≤ cycle)).foldl Thread.apply { t with pend := t.pend.filter (fun p => cycle < p.due) }

/-- Make every issued result visible: R163 and R202 finish them before the thread's state is handed over. -/
def Thread.finish (t : Thread) : Thread := t.pend.foldl Thread.apply { t with pend := [] }

/-- What an instruction issued now reads: results not yet due are old or new, each whole, by a free choice (R24). -/
def viewPending : List Pend → Thread → State → Thread × State
  | [], t, s => (t, s)
  | p :: ps, t, s =>
    let (k, s) := s.choose 2
    viewPending ps (if k = 0 then t else t.apply p) s

/-- The registers as an instruction of this cycle reads them. -/
def State.view (s : State) (t : Thread) : Thread × State := viewPending t.pend t s

/-! ### Privilege and the context of a thread -/

/-- The context number of a thread. -/
def State.ctxOf (s : State) (t : Thread) : Nat := ((s.crew t.crew).map (fun c => c.ctx)).getD 0
/-- The core of a thread. -/
def State.coreOf (s : State) (t : Thread) : Nat := ((s.crew t.crew).map (fun c => c.core)).getD 0
/-- The task of a thread. -/
def State.taskOf (s : State) (t : Thread) : Nat := ((s.crew t.crew).map (fun c => c.task)).getD 0
/-- Whether a thread's context has PRIV. -/
def State.privCtx (s : State) (t : Thread) : Bool := ((s.ctx (s.ctxOf t)).map (fun c => c.priv)).getD false
/-- The privileged state (R317). -/
def State.isPriv (s : State) (t : Thread) : Bool := t.hnd || s.privCtx t
/-- What a table marks S: the privileged state and a context with PRIV (R317). -/
def State.isS (s : State) (t : Thread) : Bool := s.isPriv t && s.privCtx t
/-- A thread's lane. -/
def Thread.lane (t : Thread) : Nat := t.tid % 32
/-- A thread's team. -/
def Thread.team (t : Thread) : Nat := t.tid / 32
/-- The partition of its core that a thread lies in (R11). -/
def Thread.partition (t : Thread) : Nat := t.team % 4

/-! ### Traps (R324 to R327, R202, R203) -/

/-- A thread cause with its details. -/
structure Trap where
  code : Nat
  sub : Nat := 0
  arg : Nat := 0
  detail : Nat
  lanes : Nat := 0
  deriving DecidableEq, Repr

/-- The key under which a write to a register that several threads share waits: the cycle it falls due, then crew slot and `tid`,
so that of the writes of one cycle the last stands (R330). -/
def writeKey (due slot tid : Nat) : Nat := due * 32768 + slot % 32 * 1024 + tid % 1024
/-- The cycle of a key. -/
def keyDue (k : Nat) : Nat := k / 32768

/-- Enter a write among those under way, in the order in which they land. -/
def addWrite (ps : List (Nat × Word)) (k : Nat) (w : Word) : List (Nat × Word) :=
  sortBy (fun a b => decide (a.1 ≤ b.1)) (ps ++ [(k, w)])

/-- A register that several threads share, with its writes under way: those due are in; the others are old or new by a free
choice (R155, R330). -/
def pendingWord (cycle : Nat) : List (Nat × Word) → Word → State → Word × State
  | [], w, s => (w, s)
  | (k, v) :: ps, w, s =>
    if keyDue k ≤ cycle then pendingWord cycle ps v s
    else
      let (n, s) := s.choose 2
      pendingWord cycle ps (if n = 0 then w else v) s

/-- A register with the writes that are due by a cycle made, and the rest kept. -/
def settleWord (cycle : Nat) (w : Word) (ps : List (Nat × Word)) : Word × List (Nat × Word) :=
  ((ps.filter (fun p => keyDue p.1 ≤ cycle)).foldl (fun _ p => p.2) w, ps.filter (fun p => cycle < keyDue p.1))

/-- Hold a fault with a task: the first to reach the window stands (R329). -/
def State.holdFault (s : State) (c t : Nat) (f : TFault) : State :=
  s.modTask c t (fun k => { k with fault := k.fault.or (some f) })

/-- The identity a fault record gives of a thread (R329). -/
def State.threadId (s : State) (t : Thread) : Option (Nat × Nat × Nat) :=
  match s.crew t.crew with
  | none => none
  | some c => (s.cohort c.cohort).map (fun h => (h.cohortid, c.crewid, t.tid))

/-- Escalate to the task: the thread is Stopped for good and its task holds the fault (R203). -/
def State.escalate (s : State) (t : Thread) (code sub thsub detail : Nat) : State :=
  (s.setThread { t with st := .escalated }).holdFault (s.ctxOf t) (s.taskOf t)
    { code := code, sub := sub, thsub := thsub, thread := s.threadId t, detail := detail }

/-- Membership of the eight convergence barriers as `ememb` shows it (R321). -/
def Crew.membership (c : Crew) (t : Thread) : Word :=
  BitVec.ofNat 64 ((List.range 8).foldl (fun n k =>
    n + b2n ((((c.cbs.getD t.team []).getD k { mask := 0#32, arr := 0#32 }).mask).getLsbD t.lane) * 2 ^ k) 0)

/-- Trap entry (R326) at a saved PC, with delivery by R325: a handler, or an escalation. Results issued before are finished
first (R202). `hbase` is the cursor of the handler capability. -/
def State.takeTrapAt (s : State) (t0 : Thread) (pc : PC) (tr : Trap) : State :=
  let t := { t0.finish with notBefore := s.cycle + 1 }
  match s.crew t.crew, s.ctx (s.ctxOf t) with
  | some cr, some cx =>
    let (tvec, s) := pendingWord s.cycle cr.pendTvec cr.tvec s
    let installed := tvec.getLsbD (31 + tr.code)
    if tr.code = 0x0E ∧ installed = false then s.escalate { t with pc := pc } 0x26 tr.sub 0x0E tr.detail
    else if t.hnd then s.escalate { t with pc := pc } 0x27 0x13 tr.code t.edetail.toNat
    else if installed = false ∨ tr.code = 0x13 ∨ tr.code = 0x14 then s.escalate { t with pc := pc } 0x27 tr.code tr.sub tr.detail
    else
      let t := { t with
        ecause := BitVec.ofNat 64 (tr.arg % 256 * 2 ^ 24 + tr.sub % 256 * 2 ^ 16 + tr.code)
        edetail := BitVec.ofNat 64 tr.detail
        elanes := BitVec.ofNat 64 tr.lanes
        epc := BitVec.ofNat 64 (pc.hdr % 2 ^ 56 * 256 + pc.slot)
        erep := t.repctr.setWidth 64
        ewbase := t.wbase.setWidth 64
        ememb := cr.membership t }
      let hwb := bits tvec.toNat 7 0
      if t.regs.length ≤ hwb then s.escalate { t with pc := pc } 0x27 0x14 0 hwb
      else
        s.setThread { t with
          wbase := BitVec.ofNat 8 hwb
          repctr := 0#7
          hnd := true
          st := if t.st = .stopped then .stopped else .running
          resume := .running
          pc := { hdr := bits cx.hcap.lo.toNat 63 8 + 64 * tr.code, slot := 0 }
          clause := none }
  | _, _ => s

/-- Trap entry precise at the thread's own PC (R202). -/
def State.takeTrap (s : State) (t : Thread) (tr : Trap) : State := s.takeTrapAt t t.pc tr

/-- Return from a handler (R327): `wbase`, `repctr` and the PC from the trap registers, HND cleared. `v` is what the
instruction reads. -/
def Thread.returnFromTrap (t v : Thread) : Thread :=
  { t with
    wbase := v.ewbase.setWidth 8
    repctr := v.erep.setWidth 7
    hnd := false
    pc := { hdr := bits v.epc.toNat 63 8, slot := bits v.epc.toNat 2 0 }
    clause := none }

/-! ### Parking (R31, R366, R370) -/

/-- The pager that covers an address of a context (R367). -/
def Ctx.pagerFor (c : Ctx) (va : Nat) : Option Pager :=
  match c.pagers.find? (fun p => p.p != 0 && decide (p.base ≤ va) && decide (va < p.limit)) with
  | some p => some p
  | none => c.pagers.find? (fun p => p.p == 0)

/-- An agent among those that have joined, with the address of its access: once. -/
def addJoiner (l : List (Joiner × Nat)) (j : Joiner) (va : Nat) : List (Joiner × Nat) :=
  if l.any (fun p => p.1 == j) then l else l ++ [(j, va)]

/-- Join an agent to the outstanding record or waiting fault of its unit, or add a waiting fault (R370). -/
def Pager.join (p : Pager) (va kind acc now : Nat) (j : Joiner) : Pager :=
  let unit := va / 65536
  if p.recs.any (fun r => r.unit == unit) then
    { p with recs := p.recs.map (fun r => if r.unit == unit then { r with joined := addJoiner r.joined j va } else r) }
  else if p.waiting.any (fun f => f.unit == unit) then
    { p with waiting := p.waiting.map (fun f => if f.unit == unit then { f with joined := addJoiner f.joined j va } else f) }
  else { p with waiting := p.waiting ++ [{ unit := unit, kind := kind, acc := acc, time := now, joined := [(j, va)] }] }

/-- Apply f to a pager of a context. -/
def Ctx.modPager (c : Ctx) (n : Nat) (f : Pager → Pager) : Ctx :=
  { c with pagers := c.pagers.map (fun p => if p.p == n then f p else p) }

/-- Join an agent's fault to the pager that covers it; the number of that pager, or none (R366, R370). -/
def State.joinPager (s : State) (c va kind acc : Nat) (j : Joiner) : Option Nat × State :=
  match (s.ctx c).bind (fun x => x.pagerFor va) with
  | none => (none, s)
  | some p => (some p.p, s.modCtx c (fun x => x.modPager p.p (fun q => q.join va kind acc s.now j)))

/-- Park a thread whose access meets a translation fault: with a pager, or until the squash of its task, which then takes code
0x22 (R31, R366). The instruction counts as not issued. -/
def State.parkThread (s : State) (t : Thread) (va kind : Nat) (k : AccKind) : State :=
  let c := s.ctxOf t
  match s.joinPager c va kind k.acc (.thread t.crew t.tid) with
  | (some p, s) => s.setThread { t with st := .parked (.pager p (va / 65536)) }
  | (none, s) =>
    (s.setThread { t with st := .parked .untilSquash }).holdFault c (s.taskOf t) { code := 0x22, sub := 0, detail := va }

/-- Park a thread at a structure fault; its task takes code 0x28 (R365). -/
def State.parkStructure (s : State) (t : Thread) (node : Nat) : State :=
  (s.setThread { t with st := .parked .untilSquash }).holdFault (s.ctxOf t) (s.taskOf t)
    { code := 0x28, sub := 0, detail := node }

/-- The data error of a thread (R44, R324): the trap, and its error record. -/
def State.dataError (s : State) (t : Thread) (sub pa : Nat) : State :=
  ((s.logCtx (s.ctxOf t) (if sub = 1 then 2 else 4) 0 (some (s.coreOf t)) false pa)).takeTrap t
    { code := 0x12, sub := sub, detail := pa }

/-- What a thread does when its access does not reach a page. -/
def State.walkFailed (s : State) (t : Thread) (va : Nat) (k : AccKind) : Walk → State
  | .page _ _ => s
  | .tfault kind => s.parkThread t va kind k
  | .structureFault node => s.parkStructure t node
  | .violation pa => s.dataError t 2 pa
  | .poison pa => s.dataError t 1 pa
  | .wait => s

/-! ### Issue -/

/-- Move past an instruction (R138, R143, R198): the next repeat while `repctr` counts, then the next slot, then the next
clause header. The issue cycle is noted (R23). -/
def Thread.advance (t : Thread) (cycle slots : Nat) : Thread :=
  let t := { t with lastIssue := some cycle, readySince := none }
  if 1 < t.repctr.toNat then { t with repctr := t.repctr - 1#7 }
  else
    let t := { t with repctr := 0#7 }
    let next := t.pc.slot + slots
    match t.clause with
    | none => { t with pc := { t.pc with slot := next } }
    | some c =>
      if hdrLen c.header < next then
        { t with pc := { hdr := (t.pc.hdr + 4 * (hdrLen c.header + 2)) % 2 ^ 56, slot := 0 }, clause := none }
      else { t with pc := { t.pc with slot := next } }

/-- The address of the next clause header (R191, R200). -/
def Thread.nextHdr (t : Thread) : Nat :=
  match t.clause with
  | none => t.pc.hdr
  | some c => (t.pc.hdr + 4 * (hdrLen c.header + 2)) % 2 ^ 56

/-- Transfer control to a header address (R142, R191). -/
def Thread.jump (t : Thread) (cycle hdr : Nat) : Thread :=
  { t with lastIssue := some cycle, readySince := none, pc := { hdr := hdr % 2 ^ 56, slot := 0 }, clause := none }

/-- The flag of the class-L instruction at the thread's slot (R141). -/
def Thread.flagHere (t : Thread) : Option Nat :=
  match t.clause with
  | none => none
  | some c => flagOfSlot c t.pc.slot

/-- Raise a flag's count by one. -/
def Thread.raise (t : Thread) : Option Nat → Thread
  | none => t
  | some f => { t with flags := modifyAt (· + 1) f t.flags }

/-- Lower a flag's count by one. -/
def Thread.lower (t : Thread) : Option Nat → Thread
  | none => t
  | some f => { t with flags := modifyAt (· - 1) f t.flags }

/-- A class-L operation completes: its results become visible and its flag falls (R141, R163). -/
def Thread.completeOp (t : Thread) (op : LOp) : Thread :=
  let t := op.regs.foldl (fun t r => t.putReg r.1 r.2) t
  let t := op.tags.foldl (fun t r => t.putTag r.1 r.2) t
  let t := t.lower op.flag
  { t with
    lops := t.lops.filter (fun x => x.id != op.id)
    fpstat := t.fpstat ||| op.fset
    stale := t.stale ||| op.sset
    dither := t.dither + BitVec.ofNat 6 op.ditherInc }

/-- The class-L arithmetic, of all a thread's operations: no access, no engine, no rendezvous. -/
def LOp.arith (op : LOp) : Bool :=
  !op.access && !op.entry && op.group.isNone && (match op.wait with
    | .ready _ => true
    | _ => false)

/-- A thread's state as it is saved or handed over: every issued class-F result is in, and so is its class-L arithmetic (R163). -/
def Thread.handOver (t : Thread) : Thread := (t.lops.filter LOp.arith).foldl Thread.completeOp t.finish

/-- A register result: nothing for gz (R144), else the register with its stamp clamped (R62). -/
def State.regOut (s : State) (v : Thread) (f : RegField) (w : Word) (st : Stamp) : List (Nat × Reg) :=
  if f = 127#7 then [] else [(v.phys f, { v := w, s := clampStamp s.now st })]

/-- The tag bit that a register result writes: clear, for the pair that holds it (R146). -/
def Thread.tagOut (v : Thread) (f : RegField) : List (Nat × Bool) := if f = 127#7 then [] else [(v.phys f / 2, false)]

/-- Both registers of a pair with its tag. -/
def State.pairOut (s : State) (v : Thread) (f : RegField) (lo hi : Reg) (tag : Bool) : List (Nat × Reg) × List (Nat × Bool) :=
  ([(v.phys f, { lo with s := clampStamp s.now lo.s }), (v.phys f + 1, { hi with s := clampStamp s.now hi.s })],
    [(v.phys f / 2, tag)])

/-- The thread of a bundle after a class-F instruction: its results fall due four cycles on (R24). -/
def State.issueF (s : State) (t : Thread) (slots : Nat) (p : Pend) : State :=
  s.setThread (({ t with pend := t.pend ++ [{ p with due := s.cycle + 4 }] }).advance s.cycle slots)

/-- The thread of a bundle after a class-L instruction: the flag rises and the operation is in flight (R141). -/
def State.issueL (s : State) (t : Thread) (op : LOp) : State :=
  let t := t.raise t.flagHere
  s.setThread (({ t with lops := t.lops ++ [{ op with flag := t.flagHere }] }).advance s.cycle 1)

/-- The thread of a bundle that a holding instruction holds (R141). -/
def State.issueH (s : State) (t : Thread) (h : Hold) : State :=
  s.setThread { (t.advance s.cycle 1) with st := .held h }

/-- The checks that R154 makes before an instruction's own: privilege, then register range. -/
def State.preCheck (s : State) (i : Instr) (v : Thread) : Option Trap :=
  if Instr.privileged i && !s.isPriv v then some { code := 3, detail := v.pc.hdr }
  else
    match rangeFault v i with
    | some n => some { code := 4, detail := n }
    | none => none

/-- What the threads of a bundle read at this issue, in the bundle's order: due results are in, the others old or new (R24). -/
def State.viewAll : List (Nat × Nat) → State → List Thread × State
  | [], s => ([], s)
  | k :: ks, s =>
    match s.thread k.1 k.2 with
    | none => State.viewAll ks s
    | some t =>
      let (v, s) := s.view (t.commit s.cycle)
      let (vs, s) := State.viewAll ks s
      (v :: vs, s)

/-- Instructions whose only effect besides the thread's own registers is one access of memory, whose place in the SC order may come
after the issue (R219); `PAGEDONE` is one event of its own. -/
def Instr.placeable (i : Instr) : Bool :=
  match i with
  | .ld8 _ _ _ _ | .ld16 _ _ _ _ | .ld32 _ _ _ _ | .ld64 _ _ _ _ | .ld128 _ _ _ _ => true
  | .ldx8 _ _ _ _ | .ldx16 _ _ _ _ | .ldx32 _ _ _ _ => true
  | .st8 _ _ _ | .st16 _ _ _ | .st32 _ _ _ | .st64 _ _ _ | .st128 _ _ _ | .stg64 _ _ _ | .stg128 _ _ _ => true
  | .lds8 _ _ _ _ | .lds16 _ _ _ _ | .lds32 _ _ _ _ | .lds64 _ _ _ _ | .lds128 _ _ _ _ => true
  | .sts8 _ _ _ | .sts16 _ _ _ | .sts32 _ _ _ | .sts64 _ _ _ | .sts128 _ _ _ => true
  | .atadd32 _ _ _ _ | .atadd64 _ _ _ _ | .atmaxs32 _ _ _ _ | .atmaxn32 _ _ _ _ | .atmins32 _ _ _ _ | .atminn32 _ _ _ _ => true
  | .ator64 _ _ _ _ | .atand64 _ _ _ _ | .atxor64 _ _ _ _ | .atxch64 _ _ _ _ | .atcas64 _ _ _ _ => true
  | .fatadd32 _ _ _ _ | .fatmax32 _ _ _ _ => true
  | .stampsetGranule _ _ => true
  | .pagedoneResume _ _ | .pagedoneMap _ _ | .pagedoneFail _ _ => true
  | _ => false

/-- Whether a thread has accesses without a place yet. -/
def State.hasLate (s : State) (t : Thread) : Bool := s.lates.any (fun l => l.crew == t.crew && l.tid == t.tid)

/-- The operation that an access leaves in flight until its place: a scratchpad access takes no entry (R241). -/
def lateEntry (t u : Thread) : Bool := if t.lops.length < u.lops.length then (u.lops.getLast?.map (fun o => o.entry)).getD true else true

/-- Issue an access of a thread without its place: the flag rises, the operation is in flight, and the access waits its turn behind the
thread's earlier ones (R219, R302). -/
def State.issueLate (s : State) (i : Instr) (t v : Thread) (vs : List Thread) (entry : Bool) : State :=
  let (id, s) := s.fresh
  { s.issueL t { id := id, flag := none, entry := entry, access := true, wait := .place } with
    lates := s.lates ++ [{ crew := t.crew, tid := t.tid, op := id, instr := i, before := t, view := v, views := vs }] }

/-- The issue of an access by a thread, whose body gave the state s': the access is made now, unless the bundle leaves it for later, a
line that the host may hold makes it wait (R412), or the thread's earlier accesses have no place yet. A trap or a page fault of a
thread without earlier ones is taken at once. -/
def State.settleAccess (s s' : State) (i : Instr) (t v : Thread) (vs : List Thread) : State :=
  let u := (s'.thread t.crew t.tid).getD t
  match s.issuing with
  | .place _ => s'
  | m =>
    if s.hasLate t then
      (if s'.issuing = .stalled then { s' with issuing := m } else s).issueLate i t v vs (lateEntry t u)
    else if s'.issuing = .stalled then { s' with issuing := m }.issueLate i t v vs true
    else if m = .late ∧ t.lops.length < u.lops.length then s.issueLate i t v vs (lateEntry t u)
    else s'

/-- A thread whose instruction would trap waits while its earlier accesses have no place yet: one of them may trap first (R202). -/
def State.holdOff (s : State) (t : Thread) : State := s.setThread { t with notBefore := s.cycle + 1, readySince := none }

/-- Whether a thread has issued in this state and goes on in its own code. -/
def State.issuedOn (s : State) (t : Thread) : Bool :=
  match s.thread t.crew t.tid with
  | some u => u.lastIssue == some s.cycle && u.hnd == t.hnd && u.st == .running
  | none => false

/-- One thread of a bundle, known by what it reads (v): its due results are made visible, the checks of R154 made, and the
instruction's body run on the thread (first) with what it reads (second). -/
def State.issueThread (i : Instr) (vs : List Thread) (body : State → Thread → Thread → State) (s : State) (v : Thread) : State :=
  match s.thread v.crew v.tid with
  | none => s
  | some t0 =>
    let t := t0.commit s.cycle
    match s.preCheck i v with
    | some tr => if s.hasLate t then s.holdOff t else s.takeTrap t tr
    | none =>
      let s' := body s t v
      if Instr.placeable i then s.settleAccess s' i t v vs
      else if s.hasLate t && !s'.issuedOn t then s.holdOff t else s'

/-- The first thread of a bundle that does not exist. -/
def State.missing (s : State) : Option (Nat × Nat) := s.bundle.find? (fun k => (s.thread k.1 k.2).isNone)

/-- Issue one instruction for every thread of the bundle, in the bundle's order, then apply `fin`, the events that R37
evaluates at the end of the cycle. The body is given what every thread of the bundle that passes the checks of R154 reads. An access that
had issued before reads what it read then. -/
def State.issueWith (s : State) (i : Instr) (body : List Thread → State → Thread → Thread → State) (fin : State → State) :
    Host.Outcome State Fault Refusal :=
  match s.missing with
  | some k => .fault (.noSuchThread k.1 k.2)
  | none =>
    let r := match s.issuing with
      | .place l => ([l.view], l.views, s)
      | _ => let r := State.viewAll s.bundle s; (r.1, r.1.filter (fun v => (r.2.preCheck i v).isNone), r.2)
    .next { fin (r.1.foldl (State.issueThread i r.2.1 (body r.2.1)) r.2.2) with bundle := [], looks := [] }

/-- Issue one instruction for every thread of the bundle, then apply `fin`. -/
def State.issueThen (s : State) (i : Instr) (body : State → Thread → Thread → State) (fin : State → State) :
    Host.Outcome State Fault Refusal :=
  s.issueWith i (fun _ => body) fin

/-- Issue one instruction for every thread of the bundle. -/
def State.issueAll (s : State) (i : Instr) (body : State → Thread → Thread → State) : Host.Outcome State Fault Refusal :=
  s.issueThen i body id

/-- A class-F instruction: `f` gives its results, or its trap, from what the thread reads (R24, R154). -/
def State.runF (s : State) (i : Instr) (f : State → Thread → Except Trap Pend) : Host.Outcome State Fault Refusal :=
  s.issueAll i (fun s t v =>
    match f s v with
    | .error tr => s.takeTrap t tr
    | .ok p => s.issueF t (Instr.slots i) p)

/-- A class-F instruction that writes one register and cannot trap: `f` gives the value and its stamp. -/
def State.runD (s : State) (i : Instr) (d : RegField) (f : State → Thread → Word × Stamp) : Host.Outcome State Fault Refusal :=
  s.runF i (fun s v => let r := f s v; .ok { due := 0, regs := s.regOut v d r.1 r.2, tags := v.tagOut d })

end Sys2Proof.Machine
end

