-- ==== Sys2Proof/Machine/Elements.lean ====
section
/-!
DEFINITION. Elements of a 64-bit register (spec/06_scalar_vector_instructions.md R161, spec/05_kelac_encoding.md R149): how a
register is cut into elements, put together again, and worked on element by element.
-/

namespace Sys2Proof.Machine

/-- Element width in bits of an integer TY (R149). -/
def intWidth (t : BitVec 3) : Nat :=
  match t.toNat % 4 with
  | 0 => 64
  | 1 => 32
  | 2 => 16
  | _ => 8

/-- TY[2] (R149). -/
def satBit (t : BitVec 3) : Bool := t.getLsbD 2

/-- na(x, j) (R161). -/
def elem (w x j : Nat) : Nat := (x >>> (w * j)) % 2 ^ w

/-- The elements of a register, element 0 first. -/
def elems (w : Nat) (x : Word) : List Nat := listOf (64 / w) (elem w x.toNat)

/-- The number whose w-bit elements are given, element 0 first; each is reduced modulo 2^w (put, R161). -/
def packElems (w : Nat) : List Nat → Nat
  | [] => 0
  | x :: xs => x % 2 ^ w + 2 ^ w * packElems w xs

/-- The register whose elements are given; elements not given are zero. -/
def putElems (w : Nat) (l : List Nat) : Word := BitVec.ofNat 64 (packElems w l)

/-- Apply f to each element. -/
def mapElems (w : Nat) (f : Nat → Nat) (a : Word) : Word := putElems w ((elems w a).map f)
/-- Apply f to each pair of elements. -/
def mapElems2 (w : Nat) (f : Nat → Nat → Nat) (a b : Word) : Word := putElems w (List.zipWith f (elems w a) (elems w b))
/-- Apply f to each triple of elements. -/
def mapElems3 (w : Nat) (f : Nat → Nat → Nat → Nat) (a b c : Word) : Word :=
  putElems w (List.zipWith (fun p z => f p.1 p.2 z) (List.zip (elems w a) (elems w b)) (elems w c))

/-- ssat (R161), as a w-bit number. -/
def ssat (w : Nat) (v : Int) : Nat :=
  ofSigned w (max (-((2 ^ (w - 1) : Nat) : Int)) (min (((2 ^ (w - 1) : Nat) : Int) - 1) v))

/-- An exact integer result, saturated or wrapped (R114, R165). -/
def intResult (sat : Bool) (w : Nat) (v : Int) : Nat := if sat then ssat w v else ofSigned w v

/-- A class-F instruction D from A: value by f, stamp by R45. -/
def State.run1 (s : State) (i : Instr) (d a : RegField) (f : Word → Word) : Host.Outcome State Fault Refusal :=
  s.runD i d (fun _ v => (f (v.val a), combineList [(v.rd a).s]))

/-- As `run1`, with an immediate as the second operand, which contributes TIMELESS (R45). DEDUCED (log 22): a K that names a
format or a width is no operand and contributes nothing. -/
def State.run1K (s : State) (i : Instr) (d a : RegField) (f : Word → Word) : Host.Outcome State Fault Refusal :=
  s.runD i d (fun _ v => (f (v.val a), combineList [(v.rd a).s, sTimeless]))

/-- A class-F instruction D from A and B. -/
def State.run2 (s : State) (i : Instr) (d a b : RegField) (f : Word → Word → Word) : Host.Outcome State Fault Refusal :=
  s.runD i d (fun _ v => (f (v.val a) (v.val b), combineList [(v.rd a).s, (v.rd b).s]))

/-- A class-F instruction D from A, B and C. -/
def State.run3 (s : State) (i : Instr) (d a b c : RegField) (f : Word → Word → Word → Word) :
    Host.Outcome State Fault Refusal :=
  s.runD i d (fun _ v => (f (v.val a) (v.val b) (v.val c), combineList [(v.rd a).s, (v.rd b).s, (v.rd c).s]))

end Sys2Proof.Machine
end

