-- ==== Sys2Proof/Machine/Access.lean ====
section
/-!
DEFINITION. How a thread reaches memory (spec/08_memory_instructions.md R215 to R224, R228 to R230, R243): the fields of a
capability, the checks of R218 in their order, the place of an access, loads and stores of both spaces, the freshness check of
R52 to R56 (spec/02_birth_times.md).
-/

namespace Sys2Proof.Machine

/-! ### Capabilities (R147, R243) -/

/-- CURSOR. -/
def CapW.cursor (c : CapW) : Nat := c.lo.toNat / 256
/-- The eight permission bits: LOAD 1, STORE 2, EXECUTE 4, ATOMIC 8, SEND 16, RESTAMP 32, PAGER 64, GLOBAL 128. -/
def CapW.perms (c : CapW) : Nat := c.lo.toNat % 256
/-- The first address of the range. -/
def CapW.base (c : CapW) : Nat := bits c.hi.toNat 63 20 * 4096
/-- The end of the range, excluded. -/
def CapW.limit (c : CapW) : Nat := c.base + (bits c.hi.toNat 15 0 + 1) * 2 ^ (12 + bits c.hi.toNat 19 16)
/-- Whether all the permissions of a mask are there. -/
def CapW.has (c : CapW) (mask : Nat) : Bool := c.perms &&& mask == mask
/-- Whether n bytes at va lie in the range, without wrap. -/
def CapW.covers (c : CapW) (va n : Nat) : Bool := decide (c.base ≤ va) && decide (va + n ≤ c.limit)

/-- LOAD. -/
def pLoad : Nat := 1
/-- STORE. -/
def pStore : Nat := 2
/-- EXECUTE. -/
def pExecute : Nat := 4
/-- ATOMIC. -/
def pAtomic : Nat := 8
/-- SEND. -/
def pSend : Nat := 16
/-- RESTAMP. -/
def pRestamp : Nat := 32
/-- PAGER. -/
def pPager : Nat := 64
/-- GLOBAL. -/
def pGlobal : Nat := 128

/-- The smallest exponent whose aligned cover of [lo, hi) has at most 65,536 units (R76, R247). -/
def capExp (lo hi : Nat) : Option Nat :=
  (List.range 16).find? (fun e => decide (alignUp hi (2 ^ (12 + e)) / 2 ^ (12 + e) - lo / 2 ^ (12 + e) ≤ 65536))

/-- A capability over the aligned cover of [lo, hi), with a cursor and permissions; none when no exponent does (R76, R247). -/
def capOver (cursor lo hi perms : Nat) : Option CapW :=
  (capExp lo hi).map (fun e =>
    let l := 2 ^ (12 + e)
    let nlo := lo / l * l
    let nhi := alignUp hi l
    { lo := BitVec.ofNat 64 (cursor % 2 ^ 56 * 256 + perms % 256)
      hi := BitVec.ofNat 64 (nlo / 4096 * 2 ^ 20 + e * 65536 + ((nhi - nlo) / l - 1)) })

/-! ### Traps of accesses -/

/-- A capability fault (R324). -/
def capTrap (sub detail : Nat) : Trap := { code := 6, sub := sub, detail := detail }
/-- An alignment trap. -/
def alignTrap (detail : Nat) : Trap := { code := 5, detail := detail }
/-- A scratchpad trap; its lanes are added by the issue that takes it (R230). -/
def scratchTrap (off : Nat) : Trap := { code := 7, detail := off }
/-- An illegal-instruction trap of a thread (R324). -/
def illegalTrap (v : Thread) : Trap := { code := 1, detail := v.pc.hdr }

/-! ### The place of an access -/

/-- Where an access goes: an offset of the crew's scratchpad or a virtual address. -/
inductive Place where
  | scratch (off : Nat)
  | virt (va : Nat)
  deriving DecidableEq, Repr

/-- The size of a thread's scratchpad allocation. -/
def State.scratchSize (s : State) (t : Thread) : Nat := ((s.crew t.crew).map (fun c => c.scrSize)).getD 0
/-- The scratchpad of a thread's crew. -/
def State.scratch (s : State) (t : Thread) : Memory := ((s.crew t.crew).map (fun c => c.scr)).getD Memory.empty
/-- Change the scratchpad of a thread's crew. -/
def State.modScratch (s : State) (t : Thread) (f : Memory → Memory) : State :=
  s.modCrew t.crew (fun c => { c with scr := f c.scr })

/-- The checks of a scratchpad access: alignment, then the allocation (R218, R230). -/
def State.scratchCheck (s : State) (v : Thread) (off n align : Nat) : Option Trap :=
  if off % align ≠ 0 then some (alignTrap off)
  else if s.scratchSize v < off + n then some (scratchTrap off)
  else none

/-- The address an A pair gives before any offset: the cursor, or the plain address of an untagged pair in the privileged
state (R217, R219). -/
def State.addrBase (s : State) (v : Thread) (a : RegField) : Nat :=
  if v.tagAt a = false ∧ s.isPriv v then (v.capAt a).lo.toNat % 2 ^ 56 else (v.capAt a).cursor

/-- Checks 1 to 6 of R218 for n bytes at an address reached through pair A: the place, or the first trap. -/
def State.memCheck (s : State) (v : Thread) (a : RegField) (perm va n align : Nat) (scratchOk : Bool) : Except Trap Place :=
  let c := v.capAt a
  let tagged := v.tagAt a
  if tagged = false ∧ s.isPriv v = false then .error (capTrap 1 va)
  else if tagged ∧ c.has perm = false then .error (capTrap 2 va)
  else if Config.scratchWindow ≤ va ∧ scratchOk = false then .error (capTrap 3 va)
  else if tagged ∧ c.covers va n = false then .error (capTrap 4 va)
  else if va % align ≠ 0 then .error (alignTrap va)
  else if Config.scratchWindow ≤ va then
    match s.scratchCheck v (va - Config.scratchWindow) n 1 with
    | some tr => .error tr
    | none => .ok (.scratch (va - Config.scratchWindow))
  else .ok (.virt va)

/-- A trap taken at this issue: a scratchpad trap records the lanes of the thread's team whose check fails so at the same
issue (R230). -/
def State.trapAt (s : State) (t v : Thread) (vs : List Thread) (failing : State → Thread → Bool) (tr : Trap) : State :=
  if tr.code = 7 then
    let same := vs.filter (fun u => u.crew == v.crew && u.team == v.team && failing s u)
    s.takeTrap t { tr with lanes := same.foldl (fun m u => m ||| 2 ^ u.lane) 0 }
  else s.takeTrap t tr

/-- Whether an outcome of checks is a scratchpad trap. -/
def isScratchTrap {α : Type} : Except Trap α → Bool
  | .error tr => tr.code == 7
  | .ok _ => false

/-- Check 7 of R218 and the space check against host memory: the physical address and whether it is host memory, or the state
in which the thread did not get there. A device line that the host may hold is asked for first, and the access waits (R412). -/
def State.reach (s : State) (t : Thread) (k : AccKind) (va n : Nat) (hostOk : Bool) : Except State (Nat × Bool × State) :=
  match s.translate (s.ctxOf t) k va n with
  | (.page pa true, s) => if hostOk then .ok (pa, true, s.fillHostRange pa n) else .error (s.takeTrap t (capTrap 3 va))
  | (.page pa false, s1) =>
    if s1.linesReady pa n then .ok (pa, false, s1.useLines pa n)
    else .error { s.asking (s1.askLines pa n (k == .load)) with issuing := .stalled }
  | (.wait, s) => .error { s with issuing := .stalled }
  | (w, s) => .error (s.walkFailed t va k w)

/-- The store that holds a physical address. -/
def State.store (s : State) (host : Bool) : Memory := if host then s.hmem else s.mem
/-- Change device or host memory. -/
def State.modStore (s : State) (host : Bool) (f : Memory → Memory) : State :=
  if host then { s with hmem := f s.hmem } else { s with mem := f s.mem }

/-! ### Freshness (R51 to R56) -/

/-- The bound that a selector names; selector 0 checks nothing. -/
def Thread.bound (v : Thread) (n : Nat) : Word := if n = 0 then 0#64 else v.abs.getD (n - 1) 0#64

/-- What a check means for the thread: it passes, it sets `stale` bits, it traps, it escalates (R53). -/
inductive Fresh where
  | ok (sset : BitVec 9)
  | trap (tr : Trap)
  | escalate (sub : Nat)
  deriving DecidableEq, Repr

/-- The check of stamps against the bound of a selector (R52 to R54). -/
def State.freshness (s : State) (v : Thread) (n : Nat) (stamps : List Stamp) (addr : Nat) : Fresh :=
  let b := v.bound n
  match (if n = 0 then none else checkStamps b s.now stamps) with
  | none => .ok 0#9
  | some r =>
    match actOf b with
    | 0 => .escalate r.sub
    | 1 => .trap { code := 0x0E, sub := r.sub, arg := n, detail := addr }
    | _ => .ok (BitVec.ofNat 9 (2 ^ n + (if r = .vacant then 256 else 0)))

/-! ### Loads -/

/-- What a load read: bytes as a number, granule stamps, and, of a 16-byte scratchpad word, its tag bit. -/
structure Loaded where
  v : Nat
  stamps : List Stamp
  tag : Bool := false
  deriving DecidableEq, Repr

/-- Finish a load: the freshness check, then the operation in flight with its result (R220). -/
def State.finishLoad (s : State) (t v : Thread) (ab addr : Nat) (mem : Bool) (stamps : List Stamp)
    (out : State → List (Nat × Reg) × List (Nat × Bool)) : State :=
  match s.freshness v ab stamps addr with
  | .escalate sub => s.escalate t 0x26 sub 0 addr
  | .trap tr => s.takeTrap t tr
  | .ok sset =>
    let (id, s) := s.fresh
    let r := out s
    s.issueL t { id := id, flag := none, entry := mem, access := true, wait := .ready (s.cycle + 1), regs := r.1, tags := r.2,
                 sset := sset }

/-- The registers a load of n bytes writes (R220, R229). -/
def loadOut (v : Thread) (d : RegField) (n : Nat) (l : Loaded) (s : State) : List (Nat × Reg) × List (Nat × Bool) :=
  let st := combineList l.stamps
  if n = 16 then
    s.pairOut v d { v := BitVec.ofNat 64 (l.v % 2 ^ 64), s := st } { v := BitVec.ofNat 64 (l.v / 2 ^ 64), s := st } l.tag
  else (s.regOut v d (BitVec.ofNat 64 l.v) st, v.tagOut d)

/-- A data error of a scratchpad access: the spec gives no physical address for it, so DETAIL is a free value (R44, R324). -/
def State.scratchPoison (s : State) (t : Thread) : State :=
  let (x, s) := s.freeVal
  s.dataError t 1 (x % 2 ^ 52)

/-- A scratchpad load of n bytes (R229, R48). -/
def State.loadScratch (s : State) (t v : Thread) (d : RegField) (ab addr off n : Nat) : State :=
  let m := s.scratch v
  if m.anyPoison off n then s.scratchPoison t
  else
    let l : Loaded := { v := m.readNat off n, stamps := m.stampsOf off n, tag := n == 16 && m.tag (off / 16) }
    s.finishLoad t v ab addr false l.stamps (loadOut v d n l)

/-- Whether a thread may still read a past of memory: within the 8,192 cycles of R308, and from after the thread's last event that
orders what it reads (R301, R302). -/
def Thread.mayRead (t : Thread) (cycle : Nat) (p : Past) : Bool :=
  decide (cycle ≤ p.cycle + 8192) && decide (t.notBefore ≤ p.cycle) && decide (t.doneAt < p.cycle)
    && decide (t.lastIssue.getD 0 < p.cycle) && decide (t.resumedAt.getD 0 < p.cycle)

/-- The store that a load of a thread reads: memory as it is, or the past that the bundle under way reads (R308). -/
def State.loadStore (s : State) (t : Thread) (host : Bool) : Memory :=
  match s.readPast with
  | none => s.store host
  | some p =>
    let born := (((s.crew t.crew).bind (fun c => s.cohort c.cohort)).bind (fun h => h.started)).getD 0
    if t.mayRead s.cycle p && decide (born < p.cycle) && t.lops.all (fun o => !o.access) then (if host then p.hmem else p.mem)
    else s.store host

/-- A load of n bytes at a virtual address (R220, R48). -/
def State.loadVirt (s : State) (t v : Thread) (d : RegField) (ab va n : Nat) : State :=
  match s.reach t .load va n true with
  | .error s => s
  | .ok (pa, host, s) =>
    let m := s.loadStore t host
    if m.anyPoison pa n then s.dataError t 1 pa
    else
      let l : Loaded := { v := m.readNat pa n, stamps := m.stampsOf pa n }
      s.finishLoad t v ab va true l.stamps (loadOut v d n l)

/-! ### Stores -/

/-- What a store writes: its bytes, the data stamp, and whether the bytes are a tagged pair with or without GLOBAL. -/
structure StoreData where
  bytes : List Byte
  s : Stamp
  tagged : Bool := false
  isGlobal : Bool := false
  deriving DecidableEq, Repr

/-- The data of a store of n bytes from D (R221). -/
def Thread.storeData (v : Thread) (d : RegField) (n : Nat) : StoreData :=
  if n = 16 then
    { bytes := toBytes 8 (v.rdAt d 0).v.toNat ++ toBytes 8 (v.rdAt d 1).v.toNat,
      s := combine (v.rdAt d 0).s (v.rdAt d 1).s, tagged := v.tagAt d, isGlobal := (v.capAt d).has pGlobal }
  else { bytes := toBytes n (v.val d).toNat, s := (v.rd d).s }

/-- The operation in flight that a store leaves. -/
def State.finishStore (s : State) (t : Thread) (mem : Bool) : State :=
  let (id, s) := s.fresh
  s.issueL t { id := id, flag := none, entry := mem, access := true, wait := .ready (s.cycle + 1) }

/-- A scratchpad store (R229, R49): a tagged pair sets the word's tag bit, anything else clears it. -/
def State.storeScratch (s : State) (t : Thread) (off : Nat) (x : StoreData) (replace : Bool) : State :=
  (s.modScratch t (fun m =>
    let m := if replace then m.storeReplace s.now off x.bytes x.s else m.store s.now off x.bytes x.s
    if x.tagged then m.putTag (off / 16) true else m)).finishStore t false

/-- A store at a virtual address (R221 to R224): a tagged pair must carry GLOBAL, and its tag is lost. -/
def State.storeVirt (s : State) (t : Thread) (va : Nat) (x : StoreData) (replace : Bool) : State :=
  if x.tagged ∧ x.isGlobal = false then s.takeTrap t (capTrap 5 va)
  else
    match s.reach t .store va x.bytes.length true with
    | .error s => s
    | .ok (pa, host, s) =>
      (s.modStore host (fun m =>
        if replace then m.storeReplace s.now pa x.bytes x.s else m.store s.now pa x.bytes x.s)).finishStore t true

end Sys2Proof.Machine
end

