-- ==== Sys2Proof/Machine/Flags.lean ====
section
/-!
DEFINITION. The sticky floating-point flags and when a rounding sets them (spec/04_number_formats.md R112, R117, R120, R121).
-/

namespace Sys2Proof.Machine

/-- Invalid operation. -/
def fNV : BitVec 6 := 1#6
/-- Division by zero. -/
def fDZ : BitVec 6 := 2#6
/-- Overflow. -/
def fOF : BitVec 6 := 4#6
/-- Underflow. -/
def fUF : BitVec 6 := 8#6
/-- Inexact. -/
def fNX : BitVec 6 := 16#6
/-- A non-finite value was produced, or was converted. -/
def fNF : BitVec 6 := 32#6

/-- A flag raised when a condition holds. -/
def fWhen (c : Bool) (f : BitVec 6) : BitVec 6 := if c then f else 0#6

/-- The union of the flags of several elements (R161). -/
def fUnion (l : List (BitVec 6)) : BitVec 6 := l.foldr (· ||| ·) 0#6

/-- Flags of a rounding that did not overflow: UF when tiny and inexact, NX when inexact (R121). -/
def fRound (tiny inexact : Bool) : BitVec 6 := fWhen (tiny && inexact) fUF ||| fWhen inexact fNX

/-- Flags of an overflow: OF with NX, and NF when the value written is not finite (R121). -/
def fOverflow (nonFinite : Bool) : BitVec 6 := fOF ||| fNX ||| fWhen nonFinite fNF

end Sys2Proof.Machine
end

