-- ==== Sys2Proof/Machine/Float.lean ====
section
/-!
DEFINITION. Floating point (spec/04_number_formats.md R110 to R122, R131 to R133, R136; R173 to R181 of
spec/06_scalar_vector_instructions.md). A value is decoded exactly, the exact result is formed, and one function rounds it.
-/

namespace Sys2Proof.Machine

/-! ### Formats -/

/-- A format: its bits, exponent bits, fraction bits, bias and largest finite pattern (R110). -/
structure Fmt where
  w : Nat
  eb : Nat
  fb : Nat
  bias : Nat
  largest : Nat
  /-- E4M3: no infinity, one NaN. -/
  noInf : Bool
  /-- E4M3 and E5M2, whose overflow follows OVN (R116). -/
  eight : Bool
  deriving DecidableEq, Repr

/-- binary32. -/
def fmtF32 : Fmt := { w := 32, eb := 8, fb := 23, bias := 127, largest := 0x7F7FFFFF, noInf := false, eight := false }
/-- binary16. -/
def fmtF16 : Fmt := { w := 16, eb := 5, fb := 10, bias := 15, largest := 0x7BFF, noInf := false, eight := false }
/-- BF16. -/
def fmtBF16 : Fmt := { w := 16, eb := 8, fb := 7, bias := 127, largest := 0x7F7F, noInf := false, eight := false }
/-- binary64. -/
def fmtF64 : Fmt := { w := 64, eb := 11, fb := 52, bias := 1023, largest := 0x7FEFFFFFFFFFFFFF, noInf := false, eight := false }
/-- E4M3. -/
def fmtE4M3 : Fmt := { w := 8, eb := 4, fb := 3, bias := 7, largest := 0x7E, noInf := true, eight := true }
/-- E5M2. -/
def fmtE5M2 : Fmt := { w := 8, eb := 5, fb := 2, bias := 15, largest := 0x7B, noInf := false, eight := true }

/-- The float format that a TY value names (R149). -/
def fmtOf (ty : Nat) : Fmt :=
  match ty with
  | 0 => fmtF32
  | 1 => fmtF16
  | 2 => fmtBF16
  | 3 => fmtF64
  | 4 => fmtE4M3
  | _ => fmtE5M2

/-- Elements of a register in a format. -/
def Fmt.n (f : Fmt) : Nat := 64 / f.w

/-- The canonical NaN of a format (R111). -/
def Fmt.nan (f : Fmt) : Nat := if f.noInf then 0x7F else (2 ^ f.eb - 1) * 2 ^ f.fb + 2 ^ (f.fb - 1)

/-- The pattern of +infinity, of a format that has it. -/
def Fmt.infBits (f : Fmt) : Nat := (2 ^ f.eb - 1) * 2 ^ f.fb

/-- The exponent of the least subnormal. -/
def Fmt.qmin (f : Fmt) : Int := 1 - (f.bias : Int) - (f.fb : Int)

/-- A pattern with a sign. -/
def Fmt.signed (f : Fmt) (neg : Bool) (mag : Nat) : Nat := if neg then 2 ^ (f.w - 1) + mag else mag

/-- The value of a pattern (R110). -/
def Fmt.decode (f : Fmt) (x : Nat) : FVal :=
  let neg := bit x (f.w - 1)
  let e := bits x (f.w - 2) f.fb
  let m := x % 2 ^ f.fb
  if f.noInf && x % 128 == 127 then .nan false
  else if e == 2 ^ f.eb - 1 && !f.noInf then
    if m == 0 then .inf neg else .nan (m < 2 ^ (f.fb - 1))
  else if e == 0 then .fin neg m f.qmin
  else .fin neg (2 ^ f.fb + m) (f.qmin + (e : Int) - 1)

/-! ### Rounding (R117, R118) -/

/-- RM of `fpmode` (R116). -/
inductive RMode where
  | rne | rtz | rdn | rup | dither
  deriving DecidableEq, Repr

/-- The rounding mode of a code. -/
def rmodeOf (n : Nat) : RMode :=
  match n % 8 with
  | 0 => .rne
  | 1 => .rtz
  | 2 => .rdn
  | 3 => .rup
  | 4 => .dither
  | _ => .rne

/-- How to round: mode, OVN, and the DITHER index plus phase, modulo 64 (R116, R118). -/
structure RCtx where
  mode : RMode
  ovn : Bool
  idx : Nat
  deriving DecidableEq, Repr

/-- RNE, as instructions with a fixed mode round. -/
def rcRne : RCtx := { mode := .rne, ovn := false, idx := 0 }
/-- The mode with DITHER acting as RNE, for instructions without an element index. -/
def RCtx.plain (r : RCtx) : RCtx := if r.mode = .dither then { r with mode := .rne } else r

/-- bitrev6 (R118). -/
def bitrev6 (v : Nat) : Nat :=
  b2n (bit v 0) * 32 + b2n (bit v 1) * 16 + b2n (bit v 2) * 8 + b2n (bit v 3) * 4 + b2n (bit v 4) * 2 + b2n (bit v 5)

/-- The threshold d of R118 times 128. -/
def ditherD (idx : Nat) : Nat := 2 * bitrev6 (idx % 64) + 1

/-- A result pattern with the flags it raises. -/
structure FRes where
  v : Nat
  fl : BitVec 6
  deriving DecidableEq, Repr

/-- Whether a magnitude that lies between n and n + 1 units goes up to n + 1: `rem` of 2^sh units remain, and something more
when `sticky`. -/
def roundsUp (r : RCtx) (neg : Bool) (n rem sh : Nat) (sticky : Bool) : Bool :=
  let inexact := rem != 0 || sticky
  match r.mode with
  | .rtz => false
  | .rdn => neg && inexact
  | .rup => !neg && inexact
  | .dither => inexact && decide (ditherD r.idx * 2 ^ sh ≤ rem * 128)
  | .rne =>
    let half := 2 ^ sh
    decide (half < 2 * rem) || (2 * rem == half && (sticky || n % 2 == 1))

/-- Round m * 2^e (and something below one unit of it when `sticky`) to a multiple of 2^q: the multiple and whether it differs. -/
def roundTo (r : RCtx) (neg : Bool) (m : Nat) (e : Int) (sticky : Bool) (q : Int) : Nat × Bool :=
  if q ≤ e then (m * 2 ^ (e - q).toNat, sticky)
  else
    let sh := (q - e).toNat
    let n := m / 2 ^ sh
    let rem := m % 2 ^ sh
    (if roundsUp r neg n rem sh sticky then n + 1 else n, rem != 0 || sticky)

/-- What an overflow gives (R117). -/
def Fmt.overflow (f : Fmt) (r : RCtx) (neg : Bool) : FRes :=
  let toInf :=
    match r.mode with
    | .rne => true
    | .dither => true
    | .rtz => false
    | .rdn => neg
    | .rup => !neg
  if (f.eight && !r.ovn) || !toInf then { v := f.signed neg f.largest, fl := fOverflow false }
  else if f.noInf then { v := f.nan, fl := fOverflow true }
  else { v := f.signed neg f.infBits, fl := fOverflow true }

/-- Round a nonzero magnitude once to a format, with its flags (R112, R117, R118, R121). -/
def Fmt.round (f : Fmt) (r : RCtx) (neg : Bool) (m : Nat) (e : Int) (sticky : Bool) : FRes :=
  let top := e + (Nat.log2 m : Int)
  let q := max (top - (f.fb : Int)) f.qmin
  let (n, inexact) := roundTo r neg m e sticky q
  let pat := (q - f.qmin).toNat * 2 ^ f.fb + n
  if f.largest < pat then f.overflow r neg
  else
    let minExp : Int := 1 - (f.bias : Int)
    let tiny :=
      if minExp ≤ top then false
      else if top = minExp - 1 then decide ((roundTo r neg m e sticky (top - (f.fb : Int))).1 < 2 ^ (f.fb + 1))
      else true
    { v := f.signed neg pat, fl := fRound tiny inexact }

/-- The canonical NaN as a result, with NF and, when invalid, NV. -/
def Fmt.nanRes (f : Fmt) (invalid : Bool) : FRes := { v := f.nan, fl := fNF ||| fWhen invalid fNV }

/-- An infinite result: in E4M3 it follows OVN (R117, R177). -/
def Fmt.infRes (f : Fmt) (r : RCtx) (neg : Bool) : FRes :=
  if f.noInf then
    if r.ovn then { v := f.nan, fl := fNF } else { v := f.signed neg f.largest, fl := 0#6 }
  else { v := f.signed neg f.infBits, fl := fNF }

/-- A zero with a sign. -/
def Fmt.zeroRes (f : Fmt) (neg : Bool) : FRes := { v := f.signed neg 0, fl := 0#6 }

/-- The sign of an exact zero sum of operands of opposite signs (R117). -/
def RCtx.zeroNeg (r : RCtx) : Bool := r.mode == .rdn

/-- A value rounded to a format; a NaN becomes canonical. -/
def Fmt.ofVal (f : Fmt) (r : RCtx) : FVal → FRes
  | .nan sig => f.nanRes sig
  | .inf neg => f.infRes r neg
  | .fin neg m e => if m = 0 then f.zeroRes neg else f.round r neg m e false

/-! ### Exact arithmetic -/

/-- Whether a value is a signalling NaN. -/
def FVal.isSig : FVal → Bool
  | .nan s => s
  | _ => false
/-- Whether a value is a NaN. -/
def FVal.isNan : FVal → Bool
  | .nan _ => true
  | _ => false
/-- Whether a value is finite. -/
def FVal.isFin : FVal → Bool
  | .fin _ _ _ => true
  | _ => false
/-- The value with its sign inverted. -/
def FVal.neg : FVal → FVal
  | .nan s => .nan s
  | .inf n => .inf (!n)
  | .fin n m e => .fin (!n) m e

/-- A finite value as a signed multiple of 2^e0, for e0 at most its exponent. -/
def scaledInt (neg : Bool) (m : Nat) (e e0 : Int) : Int :=
  let x : Int := (m * 2 ^ (e - e0).toNat : Nat)
  if neg then -x else x

/-- Round a signed multiple of 2^e; an exact zero takes the sign given. -/
def Fmt.roundInt (f : Fmt) (r : RCtx) (x : Int) (e : Int) (zeroNeg : Bool) : FRes :=
  if x = 0 then f.zeroRes zeroNeg else f.round r (decide (x < 0)) x.natAbs e false

/-- a + b, rounded once (R117, R121, R173). -/
def Fmt.add (f : Fmt) (r : RCtx) (a b : FVal) : FRes :=
  match a, b with
  | .nan s, y => f.nanRes (s || y.isSig)
  | x, .nan s => f.nanRes (s || x.isSig)
  | .inf n, .inf k => if n = k then f.infRes r n else f.nanRes true
  | .inf n, .fin _ _ _ => f.infRes r n
  | .fin _ _ _, .inf n => f.infRes r n
  | .fin n m e, .fin k p g =>
    let e0 := min e g
    f.roundInt r (scaledInt n m e e0 + scaledInt k p g e0) e0
      (if m = 0 ∧ p = 0 ∧ n = k then n else r.zeroNeg)

/-- The exact product; none is an invalid 0 times infinity. -/
def FVal.mul (a b : FVal) : Option FVal :=
  match a, b with
  | .nan s, y => some (.nan (s || y.isSig))
  | x, .nan s => some (.nan (s || x.isSig))
  | .inf n, .inf k => some (.inf (n != k))
  | .inf n, .fin k m _ => if m = 0 then none else some (.inf (n != k))
  | .fin k m _, .inf n => if m = 0 then none else some (.inf (n != k))
  | .fin n m e, .fin k p g => some (.fin (n != k) (m * p) (e + g))

/-- a * b, rounded once. -/
def Fmt.mul (f : Fmt) (r : RCtx) (a b : FVal) : FRes :=
  match FVal.mul a b with
  | none => f.nanRes true
  | some p => f.ofVal r p

/-- a * b + c, rounded once; 0 times infinity is invalid even when c is a quiet NaN (R173). -/
def Fmt.fma (f : Fmt) (r : RCtx) (a b c : FVal) : FRes :=
  match FVal.mul a b with
  | none => f.nanRes true
  | some (.nan s) => f.nanRes (s || c.isSig)
  | some p => f.add r p c

/-- a * 2^k: zeros and infinities unchanged (R136, R173). A shift beyond 4096 acts as one of 4096: either takes every nonzero
finite value of every format past its largest, or below every rounding threshold under its least. -/
def Fmt.scale (f : Fmt) (r : RCtx) (a : FVal) (k : Int) : FRes :=
  match a with
  | .nan s => f.nanRes s
  | .inf n => f.infRes r n
  | .fin n m e => if m = 0 then f.zeroRes n else f.round r n m (e + max (-4096) (min 4096 k)) false

/-- Order of two values that are not NaNs; -0 and +0 compare equal (R122). -/
def FVal.lt (a b : FVal) : Bool :=
  match a, b with
  | .fin n m e, .fin k p g => let e0 := min e g; decide (scaledInt n m e e0 < scaledInt k p g e0)
  | .inf n, .inf k => n && !k
  | .inf n, .fin _ _ _ => n
  | .fin _ _ _, .inf k => !k
  | _, _ => false

/-- Equality of two values that are not NaNs. -/
def FVal.eq (a b : FVal) : Bool :=
  match a, b with
  | .fin n m e, .fin k p g => let e0 := min e g; decide (scaledInt n m e e0 = scaledInt k p g e0)
  | .inf n, .inf k => n == k
  | _, _ => false

/-- The sign of a value. -/
def FVal.sign : FVal → Bool
  | .nan _ => false
  | .inf n => n
  | .fin n _ _ => n

/-- `FMIN` or `FMAX` of two patterns (R122, R174). DESIGN CHOICE (log 55): of a signalling NaN and a number, NV is set and the number is
returned, as R122 has it, and not the canonical NaN of R121's general sentence. -/
def Fmt.minmax (f : Fmt) (isMax : Bool) (x y : Nat) : FRes :=
  let a := f.decode x
  let b := f.decode y
  let nv := fWhen (a.isSig || b.isSig) fNV
  match a.isNan, b.isNan with
  | true, true => { v := f.nan, fl := nv ||| fNF }
  | true, false => { v := y, fl := nv ||| fWhen (!b.isFin) fNF }
  | false, true => { v := x, fl := nv ||| fWhen (!a.isFin) fNF }
  | false, false =>
    let less := a.lt b || (a.eq b && a.sign && !b.sign)
    let pickX := if isMax then !less else less || (a.eq b && a.sign == b.sign)
    let p := if pickX then x else y
    { v := p, fl := fWhen (!(f.decode p).isFin) fNF }

/-- `FABS` and `FNEG` of a pattern (R174). -/
def Fmt.setSign (f : Fmt) (invert : Bool) (x : Nat) : FRes :=
  let a := f.decode x
  match a with
  | .nan s => f.nanRes s
  | _ => { v := f.signed (if invert then !bit x (f.w - 1) else false) (x % 2 ^ (f.w - 1)), fl := fWhen (!a.isFin) fNF }

/-- A float compare (R122, R175): equality, less, less or equal, unordered. -/
inductive FRel where
  | eq | lt | le | un
  deriving DecidableEq, Repr

/-- Whether a relation holds; NV for a signalling NaN. -/
def Fmt.compare (f : Fmt) (rel : FRel) (x y : Nat) : FRes :=
  let a := f.decode x
  let b := f.decode y
  let un := a.isNan || b.isNan
  let holds :=
    match rel with
    | .un => un
    | .eq => !un && a.eq b
    | .lt => !un && a.lt b
    | .le => !un && (a.lt b || a.eq b)
  { v := if holds then 2 ^ f.w - 1 else 0, fl := fWhen (a.isSig || b.isSig) fNV }

/-- The class code of a pattern (R175). -/
def Fmt.classify (f : Fmt) (x : Nat) : FRes :=
  match f.decode x with
  | .nan true => { v := 8, fl := fNV }
  | .nan false => { v := 9, fl := 0#6 }
  | .inf n => { v := if n then 0 else 7, fl := 0#6 }
  | .fin n m _ =>
    { v := if m = 0 then (if n then 3 else 4) else if m < 2 ^ f.fb then (if n then 2 else 5) else (if n then 1 else 6), fl := 0#6 }

/-! ### Sums in a fixed order (R131 to R134) -/

/-- How the sums in a fixed order round: RNE, with an OVN (R117, R131). -/
def rcTree (ovn : Bool) : RCtx := { rcRne with ovn := ovn }

/-- Add adjacent pairs of patterns, each rounded as `r` says. -/
def Fmt.addPairs (f : Fmt) (r : RCtx) : List Nat → List Nat × BitVec 6
  | x :: y :: rest =>
    let s := f.add r (f.decode x) (f.decode y)
    let (l, fl) := f.addPairs r rest
    (s.v :: l, s.fl ||| fl)
  | l => (l, 0#6)

/-- The pairwise tree of R131 with 2^levels leaves. -/
def Fmt.tree (f : Fmt) (r : RCtx) : Nat → List Nat → Nat × BitVec 6
  | 0, l => (l.headD 0, 0#6)
  | k + 1, l =>
    let (l', fl) := f.addPairs r l
    let (v, fl') := f.tree r k l'
    (v, fl ||| fl')

/-- The sum of lanes lo to lo + 2^k - 1, as the tree's node over them. -/
def Fmt.node (f : Fmt) (r : RCtx) (lanes : List Nat) (lo k : Nat) : Nat × BitVec 6 := f.tree r k ((lanes.drop lo).take (2 ^ k))

/-- The runs of R132: the binary digits of what is left, largest first, each as its first lane and the log of its length. -/
def scanRuns : Nat → Nat → Nat → List (Nat × Nat)
  | 0, _, _ => []
  | k + 1, lo, n => if 2 ^ k ≤ n then (lo, k) :: scanRuns k (lo + 2 ^ k) (n - 2 ^ k) else scanRuns k lo n

/-- The inclusive scan's result for lane j (R132); a NaN is canonical, also where lane 0's value takes no addition (R208). -/
def Fmt.scanLane (f : Fmt) (r : RCtx) (lanes : List Nat) (j : Nat) : FRes :=
  match scanRuns 6 0 (j + 1) with
  | [] => f.zeroRes false
  | (lo, k) :: rest =>
    let first := f.node r lanes lo k
    rest.foldl (fun acc p =>
      let nd := f.node r lanes p.1 p.2
      let s := f.add r (f.decode acc.v) (f.decode nd.1)
      { v := s.v, fl := acc.fl ||| nd.2 ||| s.fl }) { v := if (f.decode first.1).isNan then f.nan else first.1, fl := first.2 }

/-- The exact sum of products rounded once (R133, R178); the result format is the one given. -/
def Fmt.dot (f : Fmt) (r : RCtx) (pairs : List (FVal × FVal)) : FRes :=
  let ps := pairs.map (fun p => FVal.mul p.1 p.2)
  let sig := pairs.any (fun p => p.1.isSig || p.2.isSig)
  let invalid := ps.any (fun p => p == none)
  let vs := ps.filterMap id
  let nan := vs.any FVal.isNan
  let pinf := vs.any (· == .inf false)
  let ninf := vs.any (· == .inf true)
  if invalid || sig || (pinf && ninf) then f.nanRes true
  else if nan then f.nanRes false
  else if pinf then f.infRes r false
  else if ninf then f.infRes r true
  else
    let e0 : Int := vs.foldl (fun a v => match v with
      | .fin _ _ e => min a e
      | _ => a) 0
    let x := vs.foldl (fun a v => match v with
      | .fin n m e => a + scaledInt n m e e0
      | _ => a) (0 : Int)
    let allZero := vs.all (fun v => match v with
      | .fin _ m _ => m == 0
      | _ => false)
    let zn := if allZero && vs.all (fun v => v.sign) then true
      else if allZero && vs.all (fun v => !v.sign) then false else r.zeroNeg
    f.roundInt r x e0 zn

/-! ### Conversions (R115, R180, R181) -/

/-- A float pattern converted between formats: a non-finite source sets NF; with OVN = 0 an infinity becomes the largest value
of E4M3 or E5M2, which differs from it, so that NX is set too (R117, R121). -/
def convert (src dst : Fmt) (r : RCtx) (x : Nat) : FRes :=
  match src.decode x with
  | .nan s => { v := dst.nan, fl := fNF ||| fWhen s fNV }
  | .inf n =>
    if dst.eight && !r.ovn then { v := dst.signed n dst.largest, fl := fNF ||| fNX }
    else if dst.noInf then { v := dst.nan, fl := fNF }
    else { v := dst.signed n dst.infBits, fl := fNF }
  | .fin n m e => if m = 0 then dst.zeroRes n else dst.round r n m e false

/-- A float value converted to a w-bit integer form (R115). -/
def toInteger (w : Nat) (natural : Bool) (r : RCtx) (v : FVal) : FRes :=
  let lo : Int := if natural then 0 else -(2 ^ (w - 1) : Nat)
  let hi : Int := if natural then ((2 ^ w : Nat) : Int) - 1 else ((2 ^ (w - 1) : Nat) : Int) - 1
  match v with
  | .nan _ => { v := 0, fl := fNV ||| fNF }
  | .inf n => { v := ofSigned w (if n then lo else hi), fl := fNV ||| fNF }
  | .fin n m e =>
    let (k, inexact) := roundTo r.plain n m e false 0
    let x : Int := if n then -(k : Int) else k
    if x < lo then { v := ofSigned w lo, fl := fNV }
    else if hi < x then { v := ofSigned w hi, fl := fNV }
    else { v := ofSigned w x, fl := fWhen inexact fNX }

/-- An integer converted to a float format (R115). -/
def Fmt.ofInteger (f : Fmt) (r : RCtx) (x : Int) : FRes := f.roundInt r x 0 false

/-- The magnitude that `FCVTAM` offers to `amax`, or none for a non-finite source (R124). -/
def amaxOf (v : FVal) : Option Nat :=
  match v with
  | .fin _ m e =>
    if m = 0 then some 0
    else
      let x := (fmtF32.round { mode := .rup, ovn := false, idx := 0 } false m e false).v
      some (if fmtF32.largest < x then fmtF32.largest else x)
  | _ => none

/-! ### Reciprocal and roots (R176, R177) -/

/-- 1 / a. -/
def Fmt.rcp (f : Fmt) (r0 : RCtx) (a : FVal) : FRes :=
  let r := r0.plain
  match a with
  | .nan s => f.nanRes s
  | .inf n => f.zeroRes n
  | .fin n m e =>
    if m = 0 then let x := f.infRes r n; { x with fl := x.fl ||| fDZ }
    else
      let k := f.fb + 4 + Nat.log2 m
      f.round r n (2 ^ k / m) (-e - (k : Int)) (2 ^ k % m != 0)

/-- The square root of a. -/
def Fmt.sqrt (f : Fmt) (r0 : RCtx) (a : FVal) : FRes :=
  let r := r0.plain
  match a with
  | .nan s => f.nanRes s
  | .inf n => if n then f.nanRes true else f.infRes r false
  | .fin n m e =>
    if m = 0 then f.zeroRes n
    else if n then f.nanRes true
    else
      let odd : Nat := if e % 2 = 0 then 0 else 1
      let k := 2 * (f.fb + 4)
      let x := m * 2 ^ (k + odd)
      let s := isqrtFrom x (Nat.log2 x / 2 + 1) 0
      f.round r false s ((e - (odd : Int) - (k : Int)) / 2) (s * s != x)

/-- 1 / the square root of a. -/
def Fmt.rsq (f : Fmt) (r0 : RCtx) (a : FVal) : FRes :=
  let r := r0.plain
  match a with
  | .nan s => f.nanRes s
  | .inf n => if n then f.nanRes true else f.zeroRes false
  | .fin n m e =>
    if m = 0 then let x := f.infRes r n; { x with fl := x.fl ||| fDZ }
    else if n then f.nanRes true
    else
      let odd : Nat := if e % 2 = 0 then 0 else 1
      let m' := m * 2 ^ odd
      let k := 2 * (f.fb + 4 + Nat.log2 m')
      let x := 2 ^ k / m'
      let s := isqrtFrom x (Nat.log2 x / 2 + 1) 0
      f.round r false s ((-(e - (odd : Int)) - (k : Int)) / 2) (s * s * m' != 2 ^ k)

/-! ### Exponential, logarithm, sine and cosine (R176, R177)

Each value that is not exact is irrational, so its binary digits decide the rounding. They are found from an enclosure in
integers scaled by 2^p; digits that both ends share are the value's own. -/

/-- Digits of working precision. -/
def workBits : Nat := 576

/-- pi times 2^640, rounded down. -/
def piBits : Nat := 0x3243f6a8885a308d313198a2e03707344a4093822299f31d0082efa98ec4e6c89452821e638d01377be5466cf34e90c6cc0ac29b7c97c50dd3f84d5b5b54709179216d5d98979fb1bd1310ba698dfb5ac

/-- The floor of the square root of a number below 2^(2 * n). -/
def floorSqrt (n x : Nat) : Nat := isqrtFrom x n 0

/-- The greatest digits that both ends of an enclosure share, as the floor of the value in coarser units: the floor, and the
number of digits dropped. Digits are dropped eight at a time. -/
def commonDigits (lo hi : Nat) : Nat → Nat → Nat × Nat
  | 0, d => (lo / 2 ^ d, d)
  | fuel + 1, d => if lo / 2 ^ d = hi / 2 ^ d then (lo / 2 ^ d, d) else commonDigits lo hi fuel (d + 8)

/-- Round a positive irrational enclosed by lo and hi in units of 2^e. -/
def Fmt.roundEnclosed (f : Fmt) (neg : Bool) (lo hi : Nat) (e : Int) : FRes :=
  let (n, d) := commonDigits lo hi 64 8
  f.round rcRne neg n (e + (d : Int)) true

/-- An enclosure of 2^x for the fraction x = 0.b1 b2 ... given as its bits: the product of 2^(2^-i) over the bits set, scaled
by 2^p; rlo and rhi enclose 2^(2^-(i-1)). -/
def exp2Bits (p : Nat) : List Bool → Nat → Nat → Nat → Nat → Nat × Nat
  | [], _, _, lo, hi => (lo, hi)
  | b :: bs, rlo, rhi, lo, hi =>
    let rlo' := floorSqrt (p + 2) (rlo * 2 ^ p)
    let rhi' := floorSqrt (p + 2) (rhi * 2 ^ p) + 1
    if b then exp2Bits p bs rlo' rhi' (lo * rlo' / 2 ^ p) (hi * rhi' / 2 ^ p + 1)
    else exp2Bits p bs rlo' rhi' lo hi

/-- 2^a (R176, R177). -/
def Fmt.exp2 (f : Fmt) (r : RCtx) (a : FVal) : FRes :=
  match a with
  | .nan s => f.nanRes s
  | .inf n => if n then f.zeroRes false else f.infRes { r with mode := .rne } false
  | .fin n m e =>
    let r := { r with mode := .rne }
    let big : Int := ((2 * (2 ^ f.eb + f.fb) : Nat) : Int)
    if m = 0 then f.round r false 1 0 false
    else
      let fr := (-e).toNat
      let whole : Int :=
        if 0 ≤ e then scaledInt n m e 0
        else
          let q : Int := ((m / 2 ^ fr : Nat) : Int)
          if n then -q - (if m % 2 ^ fr = 0 then 0 else 1) else q
      let frac := if 0 ≤ e then 0 else if n then (2 ^ fr - m % 2 ^ fr) % 2 ^ fr else m % 2 ^ fr
      if big < whole then f.round r false 1 big true
      else if whole < -big then f.round r false 1 (-big) true
      else if frac = 0 then f.round r false 1 whole false
      else if (Nat.log2 m : Int) + e < -((f.fb : Int) + 3) then
        if n then f.round r false (2 ^ (f.fb + 8) - 1) (-((f.fb : Int) + 8)) true
        else f.round r false (2 ^ (f.fb + 8)) (-((f.fb : Int) + 8)) true
      else
        let p := workBits
        let bs := (listOf fr (fun i => bit frac (fr - 1 - i)))
        let (lo, hi) := exp2Bits p bs (2 * 2 ^ p) (2 * 2 ^ p) (2 ^ p) (2 ^ p)
        f.roundEnclosed false lo hi (whole - (p : Int))

/-- The binary digits of log2 of a number in [1, 2) enclosed by lo and hi, scaled by 2^p: the digits read so far and how many. -/
def log2Digits (p : Nat) : Nat → Nat → Nat → Nat → Nat → Nat × Nat
  | 0, _, _, acc, n => (acc, n)
  | k + 1, lo, hi, acc, n =>
    let lo2 := lo * lo / 2 ^ p
    let hi2 := hi * hi / 2 ^ p + 1
    if hi2 < 2 * 2 ^ p then log2Digits p k lo2 hi2 (2 * acc) (n + 1)
    else if 2 * 2 ^ p ≤ lo2 then log2Digits p k (lo2 / 2) (hi2 / 2 + 1) (2 * acc + 1) (n + 1)
    else (acc, n)

/-- The base-2 logarithm of a (R176, R177). -/
def Fmt.log2 (f : Fmt) (r0 : RCtx) (a : FVal) : FRes :=
  let r := { r0 with mode := .rne }
  match a with
  | .nan s => f.nanRes s
  | .inf n => if n then f.nanRes true else f.infRes r false
  | .fin n m e =>
    if m = 0 then let x := f.infRes r true; { x with fl := x.fl ||| fDZ }
    else if n then f.nanRes true
    else
      let k := Nat.log2 m
      let whole : Int := e + (k : Int)
      if m = 2 ^ k then f.roundInt r whole 0 false
      else
        let p := workBits
        let y := m * 2 ^ (p - k)
        let (digits, cnt) := log2Digits p (p / 2) y y 0 0
        let v : Int := whole * ((2 ^ cnt : Nat) : Int) + (digits : Int)
        if 0 ≤ v then f.round r false v.toNat (-(cnt : Int)) true
        else f.round r true ((-v).toNat - 1) (-(cnt : Int)) true

/-- sin(pi t) / (pi t) scaled by 2^p from x2 = (pi t)^2 scaled by 2^p: the alternating series, from term k down. -/
def sincSeries (p x2 : Nat) : Nat → Nat → Nat
  | 0, _ => 2 ^ p
  | fuel + 1, j =>
    -- 1 - x2 / ((2 j) (2 j + 1)) * (the series from the next term on)
    2 ^ p - (x2 * sincSeries p x2 fuel (j + 1) / 2 ^ p) / ((2 * j) * (2 * j + 1))

/-- sin(pi t) for t = u / 2^h with 0 < t < 1/2, rounded with RNE. -/
def Fmt.sinOf (f : Fmt) (neg : Bool) (u h : Nat) : FRes :=
  let p := workBits
  -- the distance of t from 1/2, when it is small, leaves one minus less than a quarter unit
  let half := 2 ^ (h - 1)
  if (half - u) * 2 ^ (f.fb + 3) < 2 ^ h then f.round rcRne neg (2 ^ (f.fb + 8) - 1) (-((f.fb : Int) + 8)) true
  else
    let z := p - (Nat.log2 u + 1)
    let tp := if p ≤ h then u * 2 ^ z / 2 ^ (z + h - p) else u * 2 ^ (p - h)
    let pit := tp * piBits / 2 ^ 640
    let x2 := pit * pit / 2 ^ p
    let sc := sincSeries p x2 80 1
    let v := (u * 2 ^ z) * piBits / 2 ^ 640 * sc / 2 ^ p
    let err := 2 ^ 80
    f.roundEnclosed neg (v - err) (v + err) (-(h : Int) - (z : Int))

/-- sin(pi x) for x = u / 2^h in [0, 2), negated when `neg`. -/
def Fmt.sinTurn (f : Fmt) (neg : Bool) (u h : Nat) (zeroNeg : Bool) : FRes :=
  let one := 2 ^ h
  let (neg, u) := if one ≤ u then (!neg, u - one) else (neg, u)
  if u = 0 then f.zeroRes zeroNeg
  else if 2 * u = one then f.round rcRne neg 1 0 false
  else f.sinOf neg (if one < 2 * u then one - u else u) h

/-- sin(pi a) (R176, R177). -/
def Fmt.sin (f : Fmt) (a : FVal) : FRes :=
  match a with
  | .nan s => f.nanRes s
  | .inf _ => f.nanRes true
  | .fin n m e =>
    if m = 0 ∨ 0 ≤ e then f.zeroRes n
    else
      let h := (-e).toNat
      f.sinTurn n (m % 2 ^ (h + 1)) h n

/-- cos(pi a) (R176, R177): sin(pi (|a| + 1/2)). -/
def Fmt.cos (f : Fmt) (a : FVal) : FRes :=
  match a with
  | .nan s => f.nanRes s
  | .inf _ => f.nanRes true
  | .fin _ m e =>
    if m = 0 then f.round rcRne false 1 0 false
    else
      let h := (max 1 (-e)).toNat
      let u := (m * 2 ^ (e + (h : Int)).toNat) % 2 ^ (h + 1)
      f.sinTurn false ((u + 2 ^ (h - 1)) % 2 ^ (h + 1)) h false

/-! ### QN4 (R126 to R130, R184, R185) -/

/-- Level of a code times 1,024 (R126). -/
def qnLevel (code : Nat) : Int :=
  ([-1024, -706, -530, -398, -288, -190, -94, 0, 82, 164, 250, 342, 446, 566, 726, 1024] : List Int).getD code 0

/-- Whether a super-scale pattern is a NaN, infinite or signed (R128, R184). -/
def badScale (s : Nat) : Bool := bit s 31 || !(fmtF32.decode s).isFin

/-- The exact decode of a code (R128), for a super-scale that is not bad: the sign follows the level, +0 for codes 7 and up. -/
def qnValue (code c s : Nat) : FVal :=
  match fmtF32.decode s with
  | .fin _ m e => .fin (code < 7) ((qnLevel code).natAbs * c * m) (e - 10)
  | _ => .nan false

/-- The decode of a code rounded with RNE to a format (R128, R185). -/
def qnDecode (f : Fmt) (code c s : Nat) : FRes :=
  if badScale s then f.nanRes false else f.ofVal rcRne (qnValue code c s)

/-- num * 1024 compared with level * den, as signed integers: the sign of u - level/1024 for u = num/den, den > 0. -/
def qnCmp (num den : Int) (code : Nat) : Int := num * 1024 - qnLevel code * den

/-- pick(u, i) of R130 for u = num / den with den > 0. -/
def qnPick (r : RCtx) (num den : Int) : Nat :=
  if den ≤ num then 15
  else if num ≤ -den then 0
  else
    match (List.range 16).find? (fun k => qnCmp num den k == 0) with
    | some k => k
    | none =>
      -- the highest code whose level lies below u
      let lo := ((List.range 15).filter (fun k => decide (0 < qnCmp num den k))).foldl max 0
      let hi := lo + 1
      let neg := decide (num < 0)
      let a := if neg then hi else lo
      let b := if neg then lo else hi
      let dlo := qnCmp num den lo
      let dhi := -qnCmp num den hi
      match r.mode with
      | .rne => if dhi < dlo then hi else lo
      | .rtz => a
      | .rdn => lo
      | .rup => hi
      | .dither =>
        let far := (qnCmp num den a).natAbs
        let span := ((qnLevel b - qnLevel a) * den).natAbs
        if ditherD r.idx * span ≤ 128 * far then b else a

/-- The code of one element x for a scale word's C and S, with its flags (R129, R184). -/
def qnEncode (r : RCtx) (v : FVal) (c s : Nat) : FRes :=
  match fmtF32.decode s with
  | .fin _ sm se =>
    if badScale s || (sm != 0 && c == 0) then { v := 7, fl := fNV }
    else
      match v with
      | .nan _ => { v := 7, fl := fNF }
      | .inf n => { v := if n then 0 else 15, fl := fNF }
      | .fin n m e =>
        if sm = 0 then { v := 7, fl := fWhen (m != 0) fNX }
        else
          let e0 := min e se
          let num := scaledInt n m e e0
          let den := scaledInt false (c * sm) se e0
          let code := qnPick r num den
          let dec := fmtF32.decode (qnDecode fmtF32 code c s).v
          { v := code, fl := fWhen (!(dec.eq v)) fNX }
  | _ => { v := 7, fl := fNV }

/-- round_half_even(num / den) clamped to 1 to 255 (R129, R184). -/
def qnBlockCode (num den : Nat) : Nat :=
  let q := num / den
  let rem := num % den
  let n := if den < 2 * rem ∨ (2 * rem = den ∧ q % 2 = 1) then q + 1 else q
  max 1 (min 255 n)

end Sys2Proof.Machine
end

