-- ==== Sys2Proof/Machine/Atomics.lean ====
section
/-!
DEFINITION. Atomics and waiting on a value (spec/08_memory_instructions.md R234 to R239). The scope of an atomic changes only
time (R236, R238).
-/

namespace Sys2Proof.Machine

/-- What an atomic does with the old value: the new value with its data stamp, or no write, and the flags it raises. -/
structure AtomicOut where
  write : Option (Nat × Stamp)
  fl : BitVec 6 := 0#6
  deriving DecidableEq, Repr

/-- An atomic on n bytes at A.CURSOR: `f` gives the effect from what the thread reads and the old value (R234, R237). -/
def State.runAtomic (s : State) (i : Instr) (d a : RegField) (n : Nat) (f : Thread → Nat → AtomicOut) :
    Host.Outcome State Fault Refusal :=
  s.issueAll i (fun s t v =>
    let va := s.addrBase v a
    match s.memCheck v a pAtomic va n n false with
    | .error tr => s.takeTrap t tr
    | .ok _ =>
      match s.reach t .atomic va n true with
      | .error s => s
      | .ok (pa, host, s) =>
        let m := s.store host
        if m.anyPoison pa n then s.dataError t 1 pa
        else
          let old := m.readNat pa n
          let st := combineList (m.stampsOf pa n)
          let r := f v old
          let s :=
            match r.write with
            | none => s
            | some (x, sx) => s.modStore host (fun m => m.store s.now pa (toBytes n x) sx)
          let (id, s) := s.fresh
          s.issueL t { id := id, flag := none, entry := true, access := true, wait := .ready (s.cycle + 1),
                       regs := s.regOut v d (BitVec.ofNat 64 old) st, tags := v.tagOut d, fset := r.fl })

/-- An integer atomic on an n-byte word: the new value from old and operand. -/
def State.runAtomicInt (s : State) (i : Instr) (d a b : RegField) (n : Nat) (f : Nat → Nat → Nat) :
    Host.Outcome State Fault Refusal :=
  s.runAtomic i d a n (fun v old =>
    { write := some (f old ((v.val b).toNat % 2 ^ (8 * n)) % 2 ^ (8 * n), (v.rd b).s) })

/-- A floating-point atomic on an F32 word. -/
def State.runAtomicF32 (s : State) (i : Instr) (d a b : RegField) (f : Nat → Nat → FRes) :
    Host.Outcome State Fault Refusal :=
  s.runAtomic i d a 4 (fun v old =>
    let r := f old ((v.val b).toNat % 2 ^ 32)
    { write := some (r.v, (v.rd b).s), fl := r.fl })

/-- `ATADD32`. -/
def execAtadd32 (t : BitVec 2) (d a b : BitVec 7) (s : State) : Host.Outcome State Fault Refusal :=
  s.runAtomicInt (.atadd32 t d a b) d a b 4 (· + ·)
/-- `ATADD64`. -/
def execAtadd64 (t : BitVec 2) (d a b : BitVec 7) (s : State) : Host.Outcome State Fault Refusal :=
  s.runAtomicInt (.atadd64 t d a b) d a b 8 (· + ·)
/-- `ATMAXS32`. -/
def execAtmaxs32 (t : BitVec 2) (d a b : BitVec 7) (s : State) : Host.Outcome State Fault Refusal :=
  s.runAtomicInt (.atmaxs32 t d a b) d a b 4 (fun x y => if toSigned 32 x < toSigned 32 y then y else x)
/-- `ATMAXN32`. -/
def execAtmaxn32 (t : BitVec 2) (d a b : BitVec 7) (s : State) : Host.Outcome State Fault Refusal :=
  s.runAtomicInt (.atmaxn32 t d a b) d a b 4 max
/-- `ATMINS32`. -/
def execAtmins32 (t : BitVec 2) (d a b : BitVec 7) (s : State) : Host.Outcome State Fault Refusal :=
  s.runAtomicInt (.atmins32 t d a b) d a b 4 (fun x y => if toSigned 32 y < toSigned 32 x then y else x)
/-- `ATMINN32`. -/
def execAtminn32 (t : BitVec 2) (d a b : BitVec 7) (s : State) : Host.Outcome State Fault Refusal :=
  s.runAtomicInt (.atminn32 t d a b) d a b 4 min
/-- `ATOR64`. -/
def execAtor64 (t : BitVec 2) (d a b : BitVec 7) (s : State) : Host.Outcome State Fault Refusal :=
  s.runAtomicInt (.ator64 t d a b) d a b 8 (· ||| ·)
/-- `ATAND64`. -/
def execAtand64 (t : BitVec 2) (d a b : BitVec 7) (s : State) : Host.Outcome State Fault Refusal :=
  s.runAtomicInt (.atand64 t d a b) d a b 8 (· &&& ·)
/-- `ATXOR64`. -/
def execAtxor64 (t : BitVec 2) (d a b : BitVec 7) (s : State) : Host.Outcome State Fault Refusal :=
  s.runAtomicInt (.atxor64 t d a b) d a b 8 (· ^^^ ·)
/-- `ATXCH64`. -/
def execAtxch64 (t : BitVec 2) (d a b : BitVec 7) (s : State) : Host.Outcome State Fault Refusal :=
  s.runAtomicInt (.atxch64 t d a b) d a b 8 (fun _ y => y)
/-- `ATCAS64`: B.odd when the old value equals B.even, else no write. -/
def execAtcas64 (t : BitVec 2) (d a b : BitVec 7) (s : State) : Host.Outcome State Fault Refusal :=
  s.runAtomic (.atcas64 t d a b) d a 8 (fun v old =>
    { write := if old = (v.rdAt b 0).v.toNat then some ((v.rdAt b 1).v.toNat, (v.rdAt b 1).s) else none })
/-- `FATADD32`: old + b, rounded once with RNE. -/
def execFatadd32 (t : BitVec 2) (d a b : BitVec 7) (s : State) : Host.Outcome State Fault Refusal :=
  s.runAtomicF32 (.fatadd32 t d a b) d a b (fun x y => fmtF32.add rcRne (fmtF32.decode x) (fmtF32.decode y))
/-- `FATMAX32`. -/
def execFatmax32 (t : BitVec 2) (d a b : BitVec 7) (s : State) : Host.Outcome State Fault Refusal :=
  s.runAtomicF32 (.fatmax32 t d a b) d a b (fun x y => fmtF32.minmax true x y)

/-! ### `WAITV` (R239) -/

/-- A condition of R99 on w-bit values: EQ, NE, LTN, GEN, LTS, GES. -/
def condHolds (w cond x y : Nat) : Bool :=
  match cond with
  | 0 => x == y
  | 1 => x != y
  | 2 => decide (x < y)
  | 3 => decide (y ≤ x)
  | 4 => decide (toSigned w x < toSigned w y)
  | _ => decide (toSigned w y ≤ toSigned w x)

/-- The issue cycle of a waiting instruction: this one, or for a thread that is held at it, the one in which it issued. -/
def Thread.issueCycle (t : Thread) (cycle : Nat) : Option Nat :=
  match t.st with
  | .held _ => t.lastIssue
  | _ => some cycle

/-- Whether a waiting read has nothing new to read: the granule of its last read has not been written since, and a line of host memory
has not left the device (R239). -/
def State.unwritten (s : State) (seen : Option (Bool × Nat × Nat)) : Bool :=
  match seen with
  | none => false
  | some (host, pa, n) => n == (s.store host).writeCount pa 8 && (!host || s.hl.lines.contains (pa / 64))

/-- Hold a thread at its `WAITV`, whose last read was of `seen`. -/
def Thread.holdWaitv (t : Thread) (cycle : Nat) (d : Option Nat) (va cond : Nat) (b : Word) (seen : Option (Bool × Nat × Nat)) : Thread :=
  { t with st := .held (.waitv d va cond b seen), lastIssue := t.issueCycle cycle, readySince := none }

/-- One read of a `WAITV` at a virtual address: the satisfying read writes D and the thread goes on, poison ends the wait, any
other value holds the thread at the instruction until its granule is written. Each attempt takes a table entry (R241). -/
def State.waitvRead (s : State) (t0 : Thread) (d : Option Nat) (va cond : Nat) (b : Word) : State :=
  let t := { t0 with triedAt := some s.cycle }
  match s.reach t .load va 8 true with
  | .error s' =>
    if s'.issuing = .stalled then { s' with issuing := s.issuing }.setThread (t.holdWaitv s.cycle d va cond b none) else s'
  | .ok (pa, host, s) =>
    let m := s.store host
    if m.anyPoison pa 8 then s.dataError { t with st := .running } 1 pa
    else
      let x := m.readNat pa 8
      if condHolds 64 cond x b.toNat then
        let t := match d with
          | none => t
          | some n => (t.putReg n { v := BitVec.ofNat 64 x, s := clampStamp s.now (combineList (m.stampsOf pa 8)) }).putTag (n / 2) false
        s.setThread { (t.advance s.cycle 1) with st := .running, notBefore := s.cycle + 1, lastIssue := t.issueCycle s.cycle }
      else s.setThread (t.holdWaitv s.cycle d va cond b (some (host, pa, m.writeCount pa 8)))

/-- `WAITV`. -/
def execWaitv (t : BitVec 3) (d a b : BitVec 7) (s : State) : Host.Outcome State Fault Refusal :=
  s.issueAll (.waitv t d a b) (fun s th v =>
    let va := s.addrBase v a
    match s.memCheck v a pLoad va 8 8 false with
    | .error tr => s.takeTrap th tr
    | .ok _ =>
      let dn := if d = 127#7 then none else some (v.phys d)
      s.waitvRead th dn va t.toNat (v.val b))

/-- Whether a held thread's rendezvous is one of `MLOAD` or `MSTREAM`, for which it holds an entry (R278). -/
def State.rdvEntry (s : State) (t : Thread) : Bool :=
  match t.st with
  | .held (.rendezvous id) =>
    ((s.crew t.crew).map (fun c => c.rdvs.any (fun r => r.id == id && (match r.instr with
      | .mload _ => true
      | .mstream _ => true
      | _ => false)))).getD false
  | _ => false

/-- Entries of a core's outstanding-transaction table in use: operations in flight, rendezvous that hold one, and the `WAITV` attempts of
this cycle (R241). -/
def State.entriesUsed (s : State) (core : Nat) : Nat :=
  ((s.threads.filter (fun t => s.coreOf t == core)).map (fun t =>
    (t.lops.filter (fun o => o.entry)).length + b2n (s.rdvEntry t) + b2n (t.triedAt == some s.cycle))).foldl (· + ·) 0

/-- `WAITV_REREAD`: a held `WAITV` whose granule has been written reads again, when an entry is free. A thread that is not held at one is
left as it is. -/
def execWaitvReread (cr tid : Nat) (s : State) : Host.Outcome State Fault Refusal :=
  match s.thread cr tid with
  | some t =>
    match t.st with
    | .held (.waitv dn va cond b seen) =>
      if s.unwritten seen || decide (Config.otEntries ≤ s.entriesUsed (s.coreOf t)) then .next s
      else .next (s.waitvRead (t.commit s.cycle) dn va cond b)
    | _ => .next s
  | none => .next s

end Sys2Proof.Machine
end

