-- ==== Sys2Proof/Machine/EngineOps.lean ====
section
/-!
DEFINITION. How an engine (a copy engine, a fabric sender, the matrix engine, the update unit) reaches memory: page by page,
whole or not at all (spec/09_async_and_egress.md R260; R366 of spec/17_translation_and_pagers.md; R44 of
spec/02_birth_times.md).
-/

namespace Sys2Proof.Machine

/-- Why an engine access does not happen: a translation fault holds it, a structure fault, a violation or a poisoned granule
ends it, so does host memory for a command that may not reach it, and a line that the host may hold makes it wait. -/
inductive EngFail where
  | held (va kind : Nat)
  | struct (node : Nat)
  | violation (pa : Nat)
  | poison (pa : Nat)
  | host (va : Nat)
  | wait
  deriving DecidableEq, Repr

/-- A run of physical bytes. -/
structure Seg where
  pa : Nat
  n : Nat
  host : Bool
  deriving DecidableEq, Repr

/-- Cut n bytes at va at 64 KiB boundaries. -/
def pagePieces : Nat → Nat → Nat → List (Nat × Nat)
  | 0, _, _ => []
  | fuel + 1, va, n =>
    if n = 0 then []
    else
      let k := min n (65536 - va % 65536)
      (va, k) :: pagePieces fuel (va + k) (n - k)

/-- Translate the pieces of an access. -/
def State.mapPieces (c : Nat) (k : AccKind) : List (Nat × Nat) → State → Except EngFail (List Seg) × State
  | [], s => (.ok [], s)
  | (va, n) :: rest, s =>
    match s.translate c k va n with
    | (.page pa host, s) =>
      match State.mapPieces c k rest s with
      | (.ok l, s) => (.ok ({ pa := pa, n := n, host := host } :: l), s)
      | r => r
    | (.tfault kind, s) => (.error (.held va kind), s)
    | (.structureFault node, s) => (.error (.struct node), s)
    | (.violation pa, s) => (.error (.violation pa), s)
    | (.poison pa, s) => (.error (.poison pa), s)
    | (.wait, s) => (.error .wait, s)

/-- Translate n bytes at va for an engine of context c; device lines that the host may hold are asked for first, and nothing else happens
until they are all there (R412). -/
def State.engMap (s0 : State) (c : Nat) (k : AccKind) (va n : Nat) : Except EngFail (List Seg) × State :=
  match State.mapPieces c k (pagePieces (n / 65536 + 2) va n) s0 with
  | (.ok l, s) =>
    let dev := l.filter (fun g => !g.host)
    if dev.all (fun g => s.linesReady g.pa g.n) then
      let s := dev.foldl (fun s g => s.useLines g.pa g.n) s
      (.ok l, (l.filter (fun g => g.host)).foldl (fun s g => s.fillHostRange g.pa g.n) s)
    else (.error .wait, s0.asking (dev.foldl (fun s g => s.askLines g.pa g.n (k == .load || k == .fetch)) s))
  | (.error .wait, s) => (.error .wait, s0.asking s)
  | r => r

/-- The bytes of mapped runs. -/
def State.segBytes (s : State) (l : List Seg) : List Byte := l.flatMap (fun g => (s.store g.host).read g.pa g.n)
/-- The granule stamps of mapped runs, in order. -/
def State.segStamps (s : State) (l : List Seg) : List Stamp := l.flatMap (fun g => (s.store g.host).stampsOf g.pa g.n)
/-- The first byte of runs that lies in a poisoned granule. -/
def State.segPoison (s : State) (l : List Seg) : Option Nat :=
  l.findSome? (fun g => ((granules g.pa g.n).find? (s.store g.host).isPoison).map (fun k => max g.pa (32 * k)))

/-- An engine read: bytes and granule stamps. -/
def State.engRead (s : State) (c va n : Nat) : Except EngFail (List Byte × List Stamp) × State :=
  match s.engMap c .load va n with
  | (.error e, s) => (.error e, s)
  | (.ok l, s) =>
    match s.segPoison l with
    | some pa => (.error (.poison pa), s)
    | none => (.ok (s.segBytes l, s.segStamps l), s)

/-- Write bytes over mapped runs, each granule with the stamp given for its place from the first granule on. -/
def State.segWrite (l : List Seg) (bs : List Byte) (f : Nat → Stamp) (s : State) : State :=
  match l with
  | [] => s
  | g :: rest =>
    let s := s.modStore g.host (fun m => m.engineWrite s.now g.pa (bs.take g.n) (fun k => f (k - g.pa / 32)))
    State.segWrite rest (bs.drop g.n) (fun k => f (k + ((g.pa + g.n - 1) / 32 - g.pa / 32 + 1))) s

/-- An engine write at va: granule i counted from the first takes stamp f i. -/
def State.engWrite (s : State) (c va : Nat) (bs : List Byte) (f : Nat → Stamp) : Except EngFail Unit × State :=
  match s.engMap c .store va bs.length with
  | (.error e, s) => (.error e, s)
  | (.ok l, s) => (.ok (), State.segWrite l bs f s)

/-! ### Undo copies (R87, R88) -/

/-- Read n bytes for an undo copy, with the stamp and the poison of every granule. DEDUCED (log 23): the copy carries poison along, as
save and restore do (R44), and consumes none. -/
def State.undoRead (s : State) (c va n : Nat) : Except EngFail (List Byte × List (Stamp × Bool)) × State :=
  match s.engMap c .load va n with
  | (.error e, s) => (.error e, s)
  | (.ok l, s) =>
    (.ok (s.segBytes l, l.flatMap (fun g => (granules g.pa g.n).map (fun k => ((s.store g.host).stamp k, (s.store g.host).isPoison k)))), s)

/-- Give the granules from va on their stamps, and the poison that they carry. -/
def State.putAttrs (c va : Nat) : List (Stamp × Bool) → State → State
  | [], s => s
  | (st, p) :: rest, s =>
    let s := match s.engMap c .store va 1 with
      | (.ok (g :: _), s) =>
        s.modStore g.host (fun m => (m.putStamp (g.pa / 32) (clampStamp s.now st)).putPoison (g.pa / 32) (p || m.isPoison (g.pa / 32)))
      | (_, s) => s
    State.putAttrs c (va + 32) rest s

/-- Restore one row of a region from its undo version, which begins at `base`: the declared bytes, and the stamp of every granule
that holds one. None while a line that the host may hold is awaited; a row that no access reaches stays as it is (log 23). -/
def State.restoreRow (s : State) (c src base dst off n : Nat) : Option State × State :=
  let lo := alignDown off 32
  match s.undoRead c (src + lo - base) (alignUp (off + n) 32 - lo) with
  | (.error .wait, s1) => (none, s.asking s1)
  | (.error _, s) => (some s, s)
  | (.ok (bs, at'), s1) =>
    match s1.engMap c .store (dst + off) n with
    | (.error .wait, s2) => (none, s.asking s2)
    | (.error _, s) => (some s, s)
    | (.ok segs, s) =>
      (some (State.putAttrs c (dst + lo) at' (State.segWrite segs ((bs.drop (off - lo)).take n) (fun _ => sVacant) s)), s)

/-! ### Device memory alone (R218, R282) -/

/-- An engine read of bytes that must lie in device memory (R218). -/
def State.devMap (s : State) (c : Nat) (k : AccKind) (va n : Nat) : Except EngFail (List Seg) × State :=
  match s.engMap c k va n with
  | (.error e, s) => (.error e, s)
  | (.ok l, s) => if l.any (fun g => g.host) then (.error (.host va), s) else (.ok l, s)

/-! ### Granules read or written ahead (R304) -/

/-- Bytes that have stamps. -/
def knownStamps (l : List (Byte × Stamp)) : List (Byte × Option Stamp) := l.map (fun b => (b.1, some b.2))

/-- What an agent has read ahead of a granule of virtual addresses (R304). -/
def State.earlyOf (s : State) (j : Joiner) (g : Nat) : Option (List (Byte × Option Stamp)) :=
  (s.early.find? (fun e => e.1 == j && e.2.1 == g)).map (fun e => e.2.2)

/-- Cut a run at granule boundaries. -/
def granuleRuns (va n : Nat) : List (Nat × Nat) :=
  listOf ((va + n - 1) / 32 - va / 32 + 1) (fun i =>
    let lo := max va (32 * (va / 32 + i))
    (lo, min (va + n) (32 * (va / 32 + i + 1)) - lo))

/-- The runs of an agent: granule by granule once it has read some ahead. -/
def State.earlyRuns (s : State) (j : Joiner) (rs : List (Nat × Nat)) : List (Nat × Nat) :=
  if s.early.any (fun e => e.1 == j) then rs.flatMap (fun r => granuleRuns r.1 r.2) else rs

/-- Read runs of virtual addresses for an agent by `rd`; a granule that it has read ahead keeps what that read gave. -/
def State.readRuns (rd : State → Nat → Nat → Except EngFail (List (Byte × Option Stamp)) × State) (j : Joiner) :
    List (Nat × Nat) → State → Except EngFail (List (Byte × Option Stamp)) × State
  | [], s => (.ok [], s)
  | (va, n) :: rest, s =>
    let r := match s.earlyOf j (va / 32) with
      | some l => (Except.ok ((l.drop (va % 32)).take n), s)
      | none => rd s va n
    match r with
    | (.error e, s) => (.error e, s)
    | (.ok x, s) =>
      match State.readRuns rd j rest s with
      | (.ok l, s) => (.ok (x ++ l), s)
      | q => q

/-- The runs at va that an agent has still to write: all at once, or granule by granule once it has written some ahead (R304). -/
def State.wroteRuns (s : State) (j : Joiner) (va n : Nat) : List (Nat × Nat) :=
  if s.wrote.any (fun w => w.1 == j) then (granuleRuns va n).filter (fun r => !s.wrote.contains (j, r.1 / 32)) else [(va, n)]

/-- Write runs of virtual addresses for an agent by `wr`; the granules of those written are noted. -/
def State.writeRuns (wr : State → Nat → Nat → Except EngFail Unit × State) (j : Joiner) :
    List (Nat × Nat) → State → Except EngFail Unit × State
  | [], s => (.ok (), s)
  | (va, n) :: rest, s =>
    match wr s va n with
    | (.error f, s) => (.error f, s)
    | (.ok _, s) => State.writeRuns wr j rest { s with wrote := s.wrote ++ [(j, va / 32)] }

/-- Bytes as they arrive at a tick: those without a stamp take it (R46, R47). -/
def arriveAt (now : Nat) (l : List (Byte × Option Stamp)) : List (Byte × Stamp) := l.map (fun b => (b.1, b.2.getD (dataAt now)))

/-- An agent is done: what it had read and written ahead is of no more use. -/
def State.endEarly (s : State) (j : Joiner) : State :=
  { s with early := s.early.filter (fun e => e.1 != j), wrote := s.wrote.filter (fun e => e.1 != j) }

/-! ### Commands (R282) -/

/-- A read of n bytes by a crew's matrix or update command: the scratchpad through its window, else device memory (R282). -/
def State.cmdRead (s : State) (c cr va n : Nat) : Except EngFail (List Byte × List Stamp) × State :=
  if Config.scratchWindow ≤ va then
    let m := ((s.crew cr).map (fun x => x.scr)).getD Memory.empty
    let off := va - Config.scratchWindow
    if m.anyPoison off n then
      let (x, s) := s.freeVal
      (.error (.poison (x % 2 ^ 52)), s)
    else (.ok (m.read off n, m.stampsOf off n), s)
  else
    match s.devMap c .load va n with
    | (.error e, s) => (.error e, s)
    | (.ok l, s) =>
      match s.segPoison l with
      | some pa => (.error (.poison pa), s)
      | none => (.ok (s.segBytes l, s.segStamps l), s)

/-- A read of a run by a command, granule by granule once it has read some ahead: bytes, and the stamps of the granules. -/
def State.cmdPieces (c cr : Nat) (j : Joiner) : List (Nat × Nat) → State → Except EngFail (List Byte × List Stamp) × State
  | [], s => (.ok ([], []), s)
  | (va, n) :: rest, s =>
    let r : Except EngFail (List Byte × List Stamp) × State := match s.earlyOf j (va / 32) with
      | some l =>
        let x : List (Byte × Option Stamp) := (l.drop (va % 32)).take n
        (.ok (x.map (fun b => b.1), (x.head?.bind (fun b => b.2)).toList), s)
      | none => s.cmdRead c cr va n
    match r with
    | (.error e, s) => (.error e, s)
    | (.ok x, s) =>
      match State.cmdPieces c cr j rest s with
      | (.ok y, s) => (.ok (x.1 ++ y.1, x.2 ++ y.2), s)
      | q => q

/-- Hold an engine access that met a translation fault (R260, R366): joined to the pager that covers it, or its task takes
code 0x22. -/
def State.engHold (s : State) (c task va kind : Nat) (j : Joiner) : State :=
  match s.joinPager c va kind 16 j with
  | (some _, s) => s
  | (none, s) => s.holdFault c task { code := 0x22, sub := 0, detail := va }

end Sys2Proof.Machine
end

