-- ==== Sys2Proof/Machine/Link.lean ====
section
/-!
DEFINITION. How a fabric packet leaves the package and how one is read from flits (spec/18_optical_fabric.md R391, R392, R395
to R402): the bytes of a packet, the flits that carry it, and what holds it back.
-/

namespace Sys2Proof.Machine

/-! ### Packets as bytes (R396) -/

/-- Whether a packet of a kind carries the remote capability. -/
def kindHasCap (k : Nat) : Bool := k == 1 || k == 3 || k == 5

/-- Words 1 and 2 of a packet: the capability, or the requester's transfer number. Word 2 of an egress record names the sending
port (DESIGN CHOICE, log 13). -/
def Packet.mid (p : Packet) : CapW :=
  if kindHasCap p.kind then p.cap else { lo := BitVec.ofNat 64 p.xfer, hi := BitVec.ofNat 64 (if p.kind = 7 then p.sport else 0) }

/-- The bytes of a packet: header, stamp runs, payload. -/
def Packet.bytes (p : Packet) : List Byte :=
  toBytes 8 (p.kind % 16 * 2 ^ 60 + p.dcn % 64 * 2 ^ 54 + p.tag % 256 * 2 ^ 46 + b2n p.ten * 2 ^ 45 + p.aop % 32 * 2 ^ 40
      + p.runs.length % 256 * 2 ^ 32 + p.length % 2 ^ 32)
    ++ toBytes 8 p.mid.lo.toNat ++ toBytes 8 p.mid.hi.toNat ++ toBytes 8 p.offset
    ++ p.runs.flatMap (fun r => toBytes 8 (r.1 % 2 ^ 32 * 2 ^ 32 + r.2.toNat)) ++ p.data

/-- Payload bytes that follow the header of a packet: a read request's LENGTH is what it asks for (DESIGN CHOICE, log 13). -/
def payloadLen (kind length : Nat) : Nat := if kind = 3 then 0 else length

/-- The bytes of a whole packet by its first word, or none for a header that R396 does not allow. -/
def packetSize (w0 : Nat) : Option Nat :=
  let kind := bits w0 63 60
  let runs := bits w0 39 32
  let len := bits w0 31 0
  if kind = 0 ∨ 8 < kind ∨ 128 < runs ∨ 4096 < len then none else some (32 + 8 * runs + payloadLen kind len)

/-- Read stamp runs. -/
def runsOfBytes : Nat → List Byte → List (Nat × Stamp)
  | 0, _ => []
  | n + 1, bs =>
    let w := ofBytes (bs.take 8)
    (w / 2 ^ 32, BitVec.ofNat 32 w) :: runsOfBytes n (bs.drop 8)

/-- The packet that whole bytes hold; what the wire does not carry is given. -/
def packetOfBytes (id src dst xfer dalign : Nat) (bs : List Byte) : Packet :=
  let w0 := ofBytes (bs.take 8)
  let w1 := ofBytes ((bs.drop 8).take 8)
  let w2 := ofBytes ((bs.drop 16).take 8)
  let runs := bits w0 39 32
  let kind := bits w0 63 60
  { id := id, kind := kind, src := src, dst := dst, xfer := if kindHasCap kind then xfer else w1, dalign := dalign,
    sport := w2 % 64, dcn := bits w0 59 54, tag := bits w0 53 46, ten := bit w0 45, aop := bits w0 44 40,
    length := bits w0 31 0, cap := { lo := BitVec.ofNat 64 w1, hi := BitVec.ofNat 64 w2 },
    offset := ofBytes ((bs.drop 24).take 8), runs := runsOfBytes runs (bs.drop 32),
    data := (bs.drop (32 + 8 * runs)).take (payloadLen kind (bits w0 31 0)) }

/-- Stamps as runs of equal stamps. -/
def runsOf : List Stamp → List (Nat × Stamp)
  | [] => []
  | x :: xs =>
    match runsOf xs with
    | (n, y) :: rest => if x = y then (n + 1, x) :: rest else (1, x) :: (n, y) :: rest
    | [] => [(1, x)]

/-- The stamps that runs stand for. -/
def stampsOfRuns (l : List (Nat × Stamp)) : List Stamp := l.flatMap (fun r => List.replicate (min r.1 4096) r.2)

/-- Flits a packet takes (R396). -/
def Packet.flits (p : Packet) : Nat := (p.bytes.length + 239) / 240

/-! ### Flits (R395, R397, R398, R401) -/

/-- Cut bytes into payloads of at most 240 bytes. -/
def payloads : Nat → List Byte → List (List Byte)
  | 0, _ => []
  | n + 1, bs => if bs.isEmpty then [] else bs.take 240 :: payloads n (bs.drop 240)

/-- The nonce of flit n: sender, receiver, epoch, number (R401). -/
def nonceOf (src dst epoch n : Nat) : BitVec 96 :=
  BitVec.ofNat 96 (src % 64 * 2 ^ 90 + dst % 64 * 2 ^ 84 + epoch % 2 ^ 36 * 2 ^ 48 + n % 2 ^ 48)

/-- HEAD of a flit. -/
def flitHead (type valid ack : Nat) : List Byte := toBytes 4 (type % 16 * 2 ^ 28 + valid % 256 * 2 ^ 20 + ack % 65536)

/-- Combine bytes with a key stream. -/
def xorBytes (bs ks : List Byte) : List Byte := List.zipWith (fun (a b : Byte) => a ^^^ b) bs ks

/-- The key stream of a flit as bytes. -/
def keyStream (k : LinkKey) (nonce : BitVec 96) : List Byte := toBytes 240 (Config.gcmStream k.key nonce).toNat

/-- The 256 bytes of flit n of a direction. -/
def flitBytes (k : LinkKey) (src dst n type ack : Nat) (payload : List Byte) : List Byte :=
  let head := flitHead type payload.length ack
  let plain := payload ++ List.replicate (240 - payload.length) 0#8
  let nonce := nonceOf src dst k.epoch n
  let cipher := xorBytes plain (keyStream k nonce)
  let body := head ++ cipher ++ toBytes 8 (Config.gcmTag k.key nonce head cipher).toNat
  body ++ toBytes 4 (Config.crc32 (n % 2 ^ 32) body).toNat

/-- The link to a peer. -/
def Fabric.link (f : Fabric) (q : Nat) : Option Link := f.links.find? (fun l => l.peer == q)
/-- Write a link back, or enter it. -/
def Fabric.setLink (f : Fabric) (l : Link) : Fabric :=
  if f.links.any (fun x => x.peer == l.peer) then { f with links := replaceFirst (fun x => x.peer == l.peer) l f.links }
  else { f with links := f.links ++ [l] }
/-- A link that nothing has keyed: down, numbers at 0. -/
def Link.fresh (q : Nat) : Link :=
  { peer := q, up := false, tx := none, rx := none, txNext := none, rxNext := none, txN := 0, rxN := 0, stall := false,
    txRekey := false, rxRekey := false, replay := [], rxHeld := [], rxBad := none, ackDue := false, failN := 0, fails := 0, rxFails := 0,
    planesTx := [], planesRx := [], changes := [], partBytes := [], waiting := [] }
/-- The link to a peer, fresh when nothing has keyed it. -/
def Fabric.linkOr (f : Fabric) (q : Nat) : Link := (f.link q).getD (Link.fresh q)
/-- Change the link to a peer. -/
def State.modLink (s : State) (q : Nat) (f : Link → Link) : State :=
  { s with fab := s.fab.setLink (f (s.fab.linkOr q)) }

/-- The base plane of an ordered pair (R376). -/
def basePlane (p q : Nat) : Nat := (p + q) % 64

/-- Whether a peer can be reached: FABRIC is agreed (R430), and it is this package itself, or one present in the domain with its
link up (R255, R400). -/
def State.reachable (s : State) (q : Nat) : Bool :=
  s.agreed 2 && (q == s.devid || (s.fab.present.contains q && ((s.fab.link q).map (fun l => l.up)).getD false))

/-! ### Rotation: slots, windows and time (R387 to R392) -/

/-- Nanoseconds of a tick (R61, R410). -/
def State.tickNs (s : State) : Nat := 2 ^ bits s.hl.tickctl.toNat 4 0
/-- A nanosecond of device time as an event of this tick finds it: a free place within the tick. -/
def State.nsNow (s : State) : Nat × State :=
  let (d, s) := s.choose s.tickNs
  (s.now * s.tickNs + d, s)
/-- The last nanosecond of this tick. -/
def State.nsHigh (s : State) : Nat := s.now * s.tickNs + s.tickNs - 1

/-- Nanoseconds from the start of a table's cycle to the guard of slot k. -/
def RotTable.offset (t : RotTable) (k : Nat) : Nat := ((t.slots.take k).map (fun x => (x.guard + x.dur) * 100)).foldl (· + ·) 0
/-- The period of a table (R389). -/
def RotTable.period (t : RotTable) : Nat := t.offset t.slots.length

/-- When the guard of slot k of the running cycle begins. -/
def Fabric.guardAt (f : Fabric) (k : Nat) : Nat := f.rotBase + ((f.rot.map (fun t => t.offset k)).getD 0)
/-- When the data window of slot k of the running cycle begins. -/
def Fabric.windowAt (f : Fabric) (k : Nat) : Nat :=
  f.guardAt k + (((f.rot.bind (fun t => t.slots[k]?)).map (fun x => x.guard * 100)).getD 0)

/-- Whether rotation runs: cycle 0 has begun. -/
def Fabric.rotating (f : Fabric) : Bool := f.rot.isSome && f.rotPhase != .before

/-- Whether lease requests are suspended (R390): rotation runs, or its cycle 0 is so near that the leased channels drain for it, a
microsecond before (DESIGN CHOICE, log 45). -/
def State.leasesSuspended (s : State) : Bool :=
  s.fab.rotating || s.fab.rotNext.any (fun t => !t.slots.isEmpty && decide (t.begins ≤ s.nsHigh + 1000 + s.tickNs))

/-- The channels a slot uses to a peer: the smaller count, once the peer has confirmed the table (R390). -/
def Fabric.slotChannels (f : Fabric) (k q : Nat) : Nat :=
  match f.rot with
  | none => 0
  | some t =>
    match t.slots[k]?, f.confirms.find? (fun c => c.peer == q && c.id == t.id) with
    | some sl, some c => min (sl.txn.getD q 0) (c.rxn.getD k 0)
    | _, _ => 0

/-- The channels a slot uses from a peer. -/
def Fabric.slotFrom (f : Fabric) (k q : Nat) : Nat :=
  match f.rot with
  | none => 0
  | some t =>
    match t.slots[k]?, f.confirms.find? (fun c => c.peer == q && c.id == t.id) with
    | some sl, some c => min (sl.rxn.getD q 0) (c.txn.getD k 0)
    | _, _ => 0

/-- The planes of n channels of a slot between two packages (R388). -/
def slotPlanes (p q n : Nat) : List Nat := listOf n (fun i => (basePlane p q + i + 1) % 64)

/-- Whether a peer has a usable slot in the running table (R392). -/
def Fabric.hasSlot (f : Fabric) (q : Nat) : Bool :=
  match f.rot with
  | none => false
  | some t => (List.range t.slots.length).any (fun k => decide (1 ≤ f.slotChannels k q))

/-- The channels to a peer that are open in the phase the rotation is in. -/
def Fabric.windowChannels (f : Fabric) (q : Nat) : Nat :=
  match f.rotPhase with
  | .window k => f.slotChannels k q
  | _ => 0

/-- The channels from a peer that are open in the phase the rotation is in. -/
def Fabric.windowRx (f : Fabric) (q : Nat) : Nat :=
  match f.rotPhase with
  | .window k => f.slotFrom k q
  | _ => 0

/-- Whether a packet waits for a data window (R390 to R392). -/
def Fabric.needsWindow (f : Fabric) (q : Nat) : Bool := f.rotating && f.hasSlot q

/-! ### Sending flits (R385, R395, R397, R399) -/

/-- A set of planes, in ascending order, with one plane in it or not. -/
def withPlane (js : List Nat) (j : Nat) (join : Bool) : List Nat :=
  let rest := js.filter (fun x => x != j)
  if join then sortBy (fun a b => decide (a ≤ b)) (rest ++ [j]) else rest

/-- The announced changes whose flit number has come take effect (R385, R397). -/
def Link.applyChanges (l : Link) : Link :=
  let due := l.changes.filter (fun c => decide (c.2.2 ≤ l.txN))
  { l with
    planesTx := due.foldl (fun js c => withPlane js c.1 c.2.1) l.planesTx
    changes := l.changes.filter (fun c => decide (l.txN < c.2.2)) }

/-- The channel set that a flit of a TYPE goes on: base and leased channels; while rotation runs, the slot's channels for the data of a
peer that it serves, and the base channel for all else (R376, R390, R392). -/
def State.txSet (s : State) (q type : Nat) : List Nat :=
  let b := basePlane s.devid q
  if type = 1 ∧ s.fab.needsWindow q then sortBy (fun a b => decide (a ≤ b)) (slotPlanes s.devid q (s.fab.windowChannels q))
  else if s.fab.rotating then [b]
  else withPlane ((s.fab.linkOr q).planesTx) b true

/-- The plane of flit n (R397). -/
def State.flitPlane (s : State) (q type n : Nat) : Nat :=
  let js := s.txSet q type
  js.getD (n % js.length) (basePlane s.devid q)

/-- Hand something to the wire. -/
def State.toFabric (s : State) (m : FabOut) : State := { s with fabOut := s.fabOut ++ [m] }

/-- Whether a link may number a further flit: keyed, not stalled, its counter and its replay buffer not full (R399), and past the rekey
threshold only once the next epoch is agreed (R402). -/
def Link.canSend (l : Link) : Bool :=
  l.up && l.tx.isSome && !l.stall && decide (l.txN < 2 ^ 48) && (l.txRekey || decide (l.txN < 2 ^ 48 - 2 ^ 20))
    && decide (l.replay.length < Config.replayFlits)

/-- Whether a flit of a TYPE has channels to go on now: data for a peer that rotation serves has them in its windows alone (R390, R393). -/
def State.mayCarry (s : State) (q type : Nat) : Bool := type != 1 || !s.fab.needsWindow q || s.fab.windowChannels q != 0

/-- Send one flit; it is kept for replay. -/
def State.sendFlit (s : State) (q : Nat) (f : OutFlit) : State :=
  let s := s.modLink q Link.applyChanges
  let l := s.fab.linkOr q
  match l.tx with
  | none => s
  | some k =>
    let bs := flitBytes k s.devid q l.txN f.type l.rxN f.payload
    (s.modLink q (fun l => { l with
        txN := l.txN + 1, ackDue := false, replay := l.replay ++ [{ n := l.txN, epoch := k.epoch, out := f, bytes := bs }] })).toFabric
      (.flit q (s.flitPlane q f.type l.txN) bs)

/-- Send the flits that wait for a direction, as far as it may. -/
def State.sendWaiting (q : Nat) : Nat → State → State
  | 0, s => s
  | fuel + 1, s =>
    let l := s.fab.linkOr q
    match takeFirst (fun f => s.mayCarry q f.type) l.waiting with
    | none => s
    | some (w, rest) =>
      if l.canSend then State.sendWaiting q fuel ((s.modLink q (fun l => { l with waiting := rest })).sendFlit q w) else s

/-- Give flits to a link: they are accepted in order and leave as it allows. -/
def State.giveFlits (s : State) (q : Nat) (fs : List OutFlit) : State :=
  let s := s.modLink q (fun l => { l with waiting := l.waiting ++ fs })
  State.sendWaiting q ((s.fab.linkOr q).waiting.length) s

/-- The data flits of a packet; an egress record is known by its last one. -/
def Packet.outFlits (p : Packet) : List OutFlit :=
  let bs := p.bytes
  let ps := payloads (bs.length / 240 + 1) bs
  List.zipWith (fun i x => { type := 1, payload := x, egress := if p.kind = 7 ∧ i + 1 = ps.length then some p.dcn else none })
    (List.range ps.length) ps

/-- Give a packet to its link. -/
def State.linkPacket (s : State) (p : Packet) : State := s.giveFlits p.dst p.outFlits

/-- A message as the numbers that its flit's payload is made of. -/
def FabOut.words : FabOut → List Nat
  | .flit _ _ _ => []
  | .leaseRequest _ planes want tick => [1, planes.toNat, want, tick]
  | .leaseGrant _ planes => [2, planes.toNat]
  | .offer _ j => [3, j]
  | .revoke _ j => [4, j]
  | .release _ j => [5, j]
  | .setChange _ j join n => [6, j, b2n join, n]
  | .replayFrom _ n => [7, n]
  | .tableId _ id txn rxn => [8, id.toNat] ++ txn ++ rxn
  | .timeRequest _ t1 => [9, t1]
  | .timeReply _ t1 t2 t3 => [10, t1, t2, t3]
  | .keyNext _ rx e => [11, b2n rx, e]

/-- Tell a peer something: the message, in a control or time flit of the link when that is up (R376, R395). -/
def State.tell (s : State) (q : Nat) (m : FabOut) : State :=
  let type := match m with
    | .timeRequest _ _ => 3
    | .timeReply _ _ _ _ => 3
    | _ => 2
  let s := s.toFabric m
  if ((s.fab.link q).map (fun l => l.up)).getD false then
    s.giveFlits q [{ type := type, payload := (Config.ctlPayload m.words).take 240 }]
  else s

/-- An idle flit leaves when the direction may send. -/
def State.sendIdle (s : State) (q : Nat) : State :=
  if (s.fab.linkOr q).canSend then s.sendFlit q { type := 0, payload := [] } else s

/-! ### What leaves when (R390 to R393) -/

/-- Send the packets to a peer that the base channel or its leased channels carry, in order. -/
def State.pumpPeer (s : State) (q : Nat) : State :=
  if s.fab.needsWindow q ∨ ((s.fab.link q).map (fun l => l.up)).getD false = false then s
  else
    let go := s.fab.outPk.filter (fun p => p.dst == q)
    go.foldl State.linkPacket { s with fab := { s.fab with outPk := s.fab.outPk.filter (fun p => p.dst != q) } }

/-- Nanoseconds that f flits take on n channels (R391). -/
def flitTime (f n : Nat) : Nat := (f + n - 1) / n * 32

/-- When the channels of a peer's open window are free, from a time on. -/
def Fabric.freeAt (f : Fabric) (q t : Nat) : Nat := max t (((f.busy.find? (fun b => b.1 == q)).map (fun b => b.2)).getD 0)
/-- The channels of a peer's window are taken up to a time. -/
def Fabric.takenTo (f : Fabric) (q t : Nat) : Fabric := { f with busy := f.busy.filter (fun b => b.1 != q) ++ [(q, t)] }

/-- When the open data window ends. -/
def Fabric.windowEnd (f : Fabric) : Nat :=
  match f.rotPhase with
  | .window k => f.guardAt (k + 1)
  | _ => 0

/-- Send packets to a peer in an open data window, from a time on, while their last flit leaves before the window ends (R391). -/
def State.pumpWindow (q chans : Nat) : Nat → Nat → State → State
  | 0, _, s => s
  | fuel + 1, t, s =>
    match takeFirst (fun p => p.dst == q) s.fab.outPk with
    | none => s
    | some (p, rest) =>
      let t := s.fab.freeAt q t + flitTime p.flits chans
      if s.fab.windowEnd < t then s
      else State.pumpWindow q chans fuel t ({ s with fab := { s.fab with outPk := rest }.takenTo q t }.linkPacket p)

/-- A packet that its engine has made ready. One for this package itself arrives at its own receiver (R255). One that becomes
ready in an open window leaves in it when it still fits, and no packet before it waits (R391). -/
def State.postPacket (s : State) (p : Packet) : State :=
  if p.dst = s.devid then { s with fab := { s.fab with inPk := s.fab.inPk ++ [p] } }
  else
    let waits := s.fab.outPk.any (fun x => x.dst == p.dst)
    let s := { s with fab := { s.fab with outPk := s.fab.outPk ++ [p] } }
    if s.fab.needsWindow p.dst then
      if waits ∨ s.fab.windowChannels p.dst = 0 ∨ (s.fab.linkOr p.dst).up = false then s
      else
        let (t, s) := s.nsNow
        State.pumpWindow p.dst (s.fab.windowChannels p.dst) 1 t s
    else s.pumpPeer p.dst

/-! ### Replies of a receiver (R257, R264, R265) -/

/-- A received packet. -/
def State.inPacket (s : State) (n : Nat) : Option Packet := s.fab.inPk.find? (fun p => p.id == n)
/-- Whether packets of a record that a port of this package has released are still on their way. -/
def State.recordUnderWay (s : State) (mark : Nat) : Bool :=
  (s.fab.inPk ++ s.fab.outPk).any (fun p => p.kind == 7 && p.src == s.devid && p.mark == mark)

/-- A received packet is done with. -/
def State.dropPacket (s : State) (n : Nat) : State :=
  { s with fab := { s.fab with inPk := s.fab.inPk.filter (fun p => p.id != n) } }

/-- Answer a request: a packet of a kind back to its sender under its transfer number. -/
def State.answer (s : State) (p : Packet) (kind aop : Nat) (runs : List (Nat × Stamp)) (data : List Byte) : State :=
  let (id, s) := s.fresh
  s.postPacket { id := id, kind := kind, src := s.devid, dst := p.src, xfer := p.xfer, dalign := 0, sport := 0, dcn := p.dcn,
                 tag := 0, ten := false, aop := aop, length := data.length, cap := { lo := 0#64, hi := 0#64 }, offset := 0,
                 runs := runs, data := data }

/-- Refuse a request with the SUB of the bulk fault that its sender takes, carried in AOP (DESIGN CHOICE, log 13). An egress record has
no requester: it is dropped. -/
def State.refusePacket (s : State) (p : Packet) (sub : Nat) : State :=
  (if p.kind = 7 then s else s.answer p 8 sub [] []).dropPacket p.id

/-- Reject a packet under R264: the violation is logged with its address (R344), in the paired context when there is one. -/
def State.rejectPacket (s : State) (p : Packet) (sub va : Nat) : State :=
  let c := s.ctxs.find? (fun x => x.dcn == p.dcn)
  (s.logError (c.map (fun x => x.part)) 4 0 (c.map (fun x => x.num)) 0xFFF true va 0 0).refusePacket p sub

/-- Reject a received packet that a pager failed. -/
def State.rejectHeld (s : State) (n va : Nat) : State :=
  match s.inPacket n with
  | none => s
  | some p => s.rejectPacket p 1 va

end Sys2Proof.Machine
end

