-- ==== Sys2Proof/Machine/Integer.lean ====
section
/-!
DEFINITION. Integer arithmetic, logic, shifts, bit fields, compares, moves and literals
(spec/06_scalar_vector_instructions.md R165 to R172).
-/

namespace Sys2Proof.Machine

/-! ### Arithmetic (R165) -/

/-- `ADD`. -/
def execAdd (t : BitVec 3) (d a b : BitVec 7) (s : State) : Host.Outcome State Fault Refusal :=
  let w := intWidth t
  s.run2 (.add t d a b) d a b (mapElems2 w (fun x y => intResult (satBit t) w (toSigned w x + toSigned w y)))

/-- `ADDI`: K is signed. -/
def execAddi (t : BitVec 3) (d a k : BitVec 7) (s : State) : Host.Outcome State Fault Refusal :=
  let w := intWidth t
  s.run1K (.addi t d a k) d a (mapElems w (fun x => intResult (satBit t) w (toSigned w x + toSigned 7 k.toNat)))

/-- `SUB`. -/
def execSub (t : BitVec 3) (d a b : BitVec 7) (s : State) : Host.Outcome State Fault Refusal :=
  let w := intWidth t
  s.run2 (.sub t d a b) d a b (mapElems2 w (fun x y => intResult (satBit t) w (toSigned w x - toSigned w y)))

/-- `MUL`. -/
def execMul (t : BitVec 3) (d a b : BitVec 7) (s : State) : Host.Outcome State Fault Refusal :=
  let w := intWidth t
  s.run2 (.mul t d a b) d a b (mapElems2 w (fun x y => intResult (satBit t) w (toSigned w x * toSigned w y)))

/-- `MULHS`: the floor of the signed product over 2^w. -/
def execMulhs (t : BitVec 3) (d a b : BitVec 7) (s : State) : Host.Outcome State Fault Refusal :=
  let w := intWidth t
  s.run2 (.mulhs t d a b) d a b
    (mapElems2 w (fun x y => ofSigned w (Int.fdiv (toSigned w x * toSigned w y) ((2 ^ w : Nat) : Int))))

/-- `MULHN`. -/
def execMulhn (t : BitVec 3) (d a b : BitVec 7) (s : State) : Host.Outcome State Fault Refusal :=
  let w := intWidth t
  s.run2 (.mulhn t d a b) d a b (mapElems2 w (fun x y => x * y / 2 ^ w))

/-- `MAD`: one clamp. -/
def execMad (t : BitVec 3) (d a b c : BitVec 7) (s : State) : Host.Outcome State Fault Refusal :=
  let w := intWidth t
  s.run3 (.mad t d a b c) d a b c
    (mapElems3 w (fun x y z => intResult (satBit t) w (toSigned w x * toSigned w y + toSigned w z)))

/-- `MINS`. -/
def execMins (t : BitVec 3) (d a b : BitVec 7) (s : State) : Host.Outcome State Fault Refusal :=
  let w := intWidth t
  s.run2 (.mins t d a b) d a b (mapElems2 w (fun x y => if toSigned w x ≤ toSigned w y then x else y))

/-- `MINN`. -/
def execMinn (t : BitVec 3) (d a b : BitVec 7) (s : State) : Host.Outcome State Fault Refusal :=
  s.run2 (.minn t d a b) d a b (mapElems2 (intWidth t) (fun x y => min x y))

/-- `MAXS`. -/
def execMaxs (t : BitVec 3) (d a b : BitVec 7) (s : State) : Host.Outcome State Fault Refusal :=
  let w := intWidth t
  s.run2 (.maxs t d a b) d a b (mapElems2 w (fun x y => if toSigned w x ≤ toSigned w y then y else x))

/-- `MAXN`. -/
def execMaxn (t : BitVec 3) (d a b : BitVec 7) (s : State) : Host.Outcome State Fault Refusal :=
  s.run2 (.maxn t d a b) d a b (mapElems2 (intWidth t) (fun x y => max x y))

/-- `ABS`. -/
def execAbs (t : BitVec 3) (d a : BitVec 7) (s : State) : Host.Outcome State Fault Refusal :=
  let w := intWidth t
  s.run1 (.abs t d a) d a (mapElems w (fun x => intResult (satBit t) w ((toSigned w x).natAbs : Int)))

/-- `NEG`. -/
def execNeg (t : BitVec 3) (d a : BitVec 7) (s : State) : Host.Outcome State Fault Refusal :=
  let w := intWidth t
  s.run1 (.neg t d a) d a (mapElems w (fun x => intResult (satBit t) w (-(toSigned w x))))

/-! ### Logic (R166) -/

/-- `AND`. -/
def execAnd (d a b : BitVec 7) (s : State) : Host.Outcome State Fault Refusal := s.run2 (.and d a b) d a b (· &&& ·)
/-- `OR`. -/
def execOr (d a b : BitVec 7) (s : State) : Host.Outcome State Fault Refusal := s.run2 (.or d a b) d a b (· ||| ·)
/-- `XOR`. -/
def execXor (d a b : BitVec 7) (s : State) : Host.Outcome State Fault Refusal := s.run2 (.xor d a b) d a b (· ^^^ ·)
/-- `ANDN`. -/
def execAndn (d a b : BitVec 7) (s : State) : Host.Outcome State Fault Refusal :=
  s.run2 (.andn d a b) d a b (fun x y => x &&& ~~~y)
/-- `NOT`. -/
def execNot (d a : BitVec 7) (s : State) : Host.Outcome State Fault Refusal := s.run1 (.not d a) d a (~~~ ·)

/-! ### Shifts and bits (R167) -/

/-- A left shift of a w-bit element. -/
def shiftLeft (w x n : Nat) : Nat := x * 2 ^ n % 2 ^ w
/-- An arithmetic right shift of a w-bit element: the floor of the signed quotient. -/
def shiftArith (w x n : Nat) : Nat := ofSigned w (Int.fdiv (toSigned w x) ((2 ^ n : Nat) : Int))

/-- `SHL`. -/
def execShl (t : BitVec 3) (d a b : BitVec 7) (s : State) : Host.Outcome State Fault Refusal :=
  let w := intWidth t
  s.run2 (.shl t d a b) d a b (mapElems2 w (fun x y => shiftLeft w x (y % w)))
/-- `SHR`. -/
def execShr (t : BitVec 3) (d a b : BitVec 7) (s : State) : Host.Outcome State Fault Refusal :=
  let w := intWidth t
  s.run2 (.shr t d a b) d a b (mapElems2 w (fun x y => x / 2 ^ (y % w)))
/-- `SRA`. -/
def execSra (t : BitVec 3) (d a b : BitVec 7) (s : State) : Host.Outcome State Fault Refusal :=
  let w := intWidth t
  s.run2 (.sra t d a b) d a b (mapElems2 w (fun x y => shiftArith w x (y % w)))
/-- `SHLI`. -/
def execShli (t : BitVec 3) (d a : BitVec 7) (k : BitVec 6) (s : State) : Host.Outcome State Fault Refusal :=
  let w := intWidth t
  s.run1K (.shli t d a k) d a (mapElems w (fun x => shiftLeft w x k.toNat))
/-- `SHRI`. -/
def execShri (t : BitVec 3) (d a : BitVec 7) (k : BitVec 6) (s : State) : Host.Outcome State Fault Refusal :=
  s.run1K (.shri t d a k) d a (mapElems (intWidth t) (fun x => x / 2 ^ k.toNat))
/-- `SRAI`. -/
def execSrai (t : BitVec 3) (d a : BitVec 7) (k : BitVec 6) (s : State) : Host.Outcome State Fault Refusal :=
  let w := intWidth t
  s.run1K (.srai t d a k) d a (mapElems w (fun x => shiftArith w x k.toNat))
/-- `ROTL`. -/
def execRotl (t : BitVec 3) (d a b : BitVec 7) (s : State) : Host.Outcome State Fault Refusal :=
  let w := intWidth t
  s.run2 (.rotl t d a b) d a b (mapElems2 w (fun x y => (x * 2 ^ (y % w) + x / 2 ^ (w - y % w)) % 2 ^ w))

/-- The number of one bits among the first n of x. -/
def popCount : Nat → Nat → Nat
  | 0, _ => 0
  | n + 1, x => x % 2 + popCount n (x / 2)
/-- The first n bits of x in reverse order. -/
def bitReverse : Nat → Nat → Nat
  | 0, _ => 0
  | n + 1, x => (x % 2) * 2 ^ n + bitReverse n (x / 2)

/-- `POPC`. -/
def execPopc (t : BitVec 3) (d a : BitVec 7) (s : State) : Host.Outcome State Fault Refusal :=
  let w := intWidth t
  s.run1 (.popc t d a) d a (mapElems w (popCount w))
/-- `CLZ`. -/
def execClz (t : BitVec 3) (d a : BitVec 7) (s : State) : Host.Outcome State Fault Refusal :=
  let w := intWidth t
  s.run1 (.clz t d a) d a (mapElems w (fun x => if x = 0 then w else w - 1 - Nat.log2 x))
/-- `BREV`. -/
def execBrev (t : BitVec 3) (d a : BitVec 7) (s : State) : Host.Outcome State Fault Refusal :=
  let w := intWidth t
  s.run1 (.brev t d a) d a (mapElems w (bitReverse w))

/-! ### Bit fields (R168) -/

/-- L of a control word. -/
def fieldLen (c : Nat) : Nat := min (bits c 13 6) (64 - bits c 5 0)

/-- `BFX` on a register and its control word. -/
def bitExtract (x c : Word) : Word :=
  let l := fieldLen c.toNat
  let f := x.toNat / 2 ^ (bits c.toNat 5 0) % 2 ^ l
  if l = 0 then 0#64
  else if c.getLsbD 14 then BitVec.ofInt 64 (toSigned l f) else BitVec.ofNat 64 f

/-- `BFI` on a register, the value to insert and the control word. -/
def bitInsert (x y c : Word) : Word :=
  let l := fieldLen c.toNat
  let p := bits c.toNat 5 0
  let old := x.toNat / 2 ^ p % 2 ^ l
  BitVec.ofNat 64 (x.toNat - old * 2 ^ p + y.toNat % 2 ^ l * 2 ^ p)

/-- `BFX`. -/
def execBfx (d a b : BitVec 7) (s : State) : Host.Outcome State Fault Refusal := s.run2 (.bfx d a b) d a b bitExtract
/-- `BFI`. -/
def execBfi (d a b c : BitVec 7) (s : State) : Host.Outcome State Fault Refusal :=
  s.run3 (.bfi d a b c) d a b c bitInsert

/-! ### Compare, select, move, literals (R169 to R172) -/

/-- All ones or zero in an element. -/
def maskElem (w : Nat) (b : Bool) : Nat := if b then 2 ^ w - 1 else 0

/-- `CMPEQ`. -/
def execCmpeq (t : BitVec 3) (d a b : BitVec 7) (s : State) : Host.Outcome State Fault Refusal :=
  let w := intWidth t
  s.run2 (.cmpeq t d a b) d a b (mapElems2 w (fun x y => maskElem w (x == y)))
/-- `CMPLTS`. -/
def execCmplts (t : BitVec 3) (d a b : BitVec 7) (s : State) : Host.Outcome State Fault Refusal :=
  let w := intWidth t
  s.run2 (.cmplts t d a b) d a b (mapElems2 w (fun x y => maskElem w (decide (toSigned w x < toSigned w y))))
/-- `CMPLTN`. -/
def execCmpltn (t : BitVec 3) (d a b : BitVec 7) (s : State) : Host.Outcome State Fault Refusal :=
  let w := intWidth t
  s.run2 (.cmpltn t d a b) d a b (mapElems2 w (fun x y => maskElem w (decide (x < y))))
/-- `CMPLES`. -/
def execCmples (t : BitVec 3) (d a b : BitVec 7) (s : State) : Host.Outcome State Fault Refusal :=
  let w := intWidth t
  s.run2 (.cmples t d a b) d a b (mapElems2 w (fun x y => maskElem w (decide (toSigned w x ≤ toSigned w y))))
/-- `CMPLEN`. -/
def execCmplen (t : BitVec 3) (d a b : BitVec 7) (s : State) : Host.Outcome State Fault Refusal :=
  let w := intWidth t
  s.run2 (.cmplen t d a b) d a b (mapElems2 w (fun x y => maskElem w (decide (x ≤ y))))

/-- `SEL`. -/
def execSel (t : BitVec 3) (d a b c : BitVec 7) (s : State) : Host.Outcome State Fault Refusal :=
  s.run3 (.sel t d a b c) d a b c (mapElems3 (intWidth t) (fun x y z => if x = 0 then z else y))

/-- `MOV`. -/
def execMov (d a : BitVec 7) (s : State) : Host.Outcome State Fault Refusal := s.run1 (.mov d a) d a id

/-- `LI`. -/
def execLi (d : BitVec 7) (lit : BitVec 32) (s : State) : Host.Outcome State Fault Refusal :=
  s.runD (.li d lit) d (fun _ _ => (lit.signExtend 64, sTimeless))

/-- `LIH`. -/
def execLih (d a : BitVec 7) (lit : BitVec 32) (s : State) : Host.Outcome State Fault Refusal :=
  s.runD (.lih d a lit) d (fun _ v =>
    (BitVec.ofNat 64 (lit.toNat * 2 ^ 32 + (v.val a).toNat % 2 ^ 32), combine (v.rd a).s sTimeless))

/-- A cursor moved by a signed byte offset, modulo 2^56; the permissions stay (R172, R246). -/
def moveCursor (lo off : Word) : Word :=
  BitVec.ofNat 64 ((lo.toNat / 256 + off.toNat) % 2 ^ 56 * 256 + lo.toNat % 256)

/-- `LEA`: the result is untagged. -/
def execLea (d a b : BitVec 7) (s : State) : Host.Outcome State Fault Refusal :=
  s.runF (.lea d a b) (fun s v =>
    let r := s.pairOut v d { v := moveCursor (v.rdAt a 0).v (v.val b), s := (v.rdAt a 0).s } (v.rdAt a 1) false
    .ok { due := 0, regs := r.1, tags := r.2 })

end Sys2Proof.Machine
end

