-- ==== Sys2Proof/Machine/CapInstrs.lean ====
section
/-!
DEFINITION. The capability instructions (spec/08_memory_instructions.md R243 to R250; R76 of spec/03_task_stream.md for the
capability of a region).
-/

namespace Sys2Proof.Machine

/-- The task of a thread, as the window holds it. -/
def State.taskRec (s : State) (t : Thread) : Option Task := s.task (s.ctxOf t) (s.taskOf t)
/-- The launch of a thread. -/
def State.launchOf (s : State) (t : Thread) : Option Launch := (s.taskRec t).bind (fun k => k.launch)
/-- The kernel code capability of a thread (R138). -/
def State.codeCap (s : State) (t : Thread) : CapW := ((s.launchOf t).map (fun l => l.code)).getD { lo := 0#64, hi := 0#64 }

/-- The bytes from a region's first declared byte to one past its last (R74). -/
def Region.extent (r : Region) : Nat := (r.rows - 1) * r.pitch + r.rowb

/-- The permissions a region's kind gives (R76): IN, OUT, UPD, SHARED. -/
def regionPerms (kind : Nat) : Nat :=
  match kind with
  | 0 => pLoad
  | 1 => pLoad ||| pStore ||| pRestamp
  | _ => pLoad ||| pStore ||| pAtomic ||| pRestamp

/-- Whether a logical buffer of a context holds the queue of a registered pager that the context serves (R369). -/
def State.isPagerQueue (s : State) (c lb : Nat) : Bool := s.ctxs.any (fun x => x.pagers.any (fun p => p.sctx == c && p.qlb == lb))

/-- The capability of a region (R76), with PAGER when `pager` holds (R369). -/
def Region.cap (pager : Bool) (r : Region) : Option CapW :=
  let lo := r.ver.va + r.off
  capOver lo lo (lo + r.extent) (regionPerms r.kind ||| (if pager && decide (2 ≤ r.kind) then pPager else 0))

/-- `CAPGET`: class L. An index that the launch does not have is a bounds fault, for whose DETAIL the spec names no value. -/
def execCapget (d : BitVec 7) (k : BitVec 4) (s : State) : Host.Outcome State Fault Refusal :=
  s.issueAll (.capget d k) (fun s t v =>
    let cap := ((s.taskRec v).bind (fun x => x.regions[k.toNat]?)).bind (fun r => r.cap (s.isPagerQueue (s.ctxOf v) r.lb))
    match cap with
    | none =>
      let (x, s) := s.freeVal
      s.takeTrap t (capTrap 4 (x % 2 ^ 64))
    | some c =>
      let (id, s) := s.fresh
      let r := s.pairOut v d { v := c.lo, s := sTimeless } { v := c.hi, s := sTimeless } true
      s.issueL t { id := id, flag := none, entry := false, wait := .ready (s.cycle + 1), regs := r.1, tags := r.2 })

/-- `CAPINC` (R246). -/
def execCapinc (d a b : BitVec 7) (s : State) : Host.Outcome State Fault Refusal :=
  s.runF (.capinc d a b) (fun s v =>
    let c := v.capAt a
    let lo := moveCursor c.lo (v.val b)
    let cur := lo.toNat / 256
    let keep := v.tagAt a && decide (c.base ≤ cur) && decide (cur ≤ c.limit)
    let r := s.pairOut v d { v := lo, s := (v.rdAt a 0).s } (v.rdAt a 1) keep
    .ok { due := 0, regs := r.1, tags := r.2 })

/-- The capability that `CAPNRW` makes, or none for a bounds fault (R247). -/
def narrowCap (c : CapW) (n : Nat) : Option CapW :=
  if n = 0 then none
  else
    match capOver c.cursor c.cursor (c.cursor + n) c.perms with
    | none => none
    | some x => if x.base < c.base ∨ c.limit < x.limit then none else some { lo := c.lo, hi := x.hi }

/-- `CAPNRW` (R247). -/
def execCapnrw (d a b : BitVec 7) (s : State) : Host.Outcome State Fault Refusal :=
  s.runF (.capnrw d a b) (fun s v =>
    let c := v.capAt a
    if v.tagAt a = false then .error (capTrap 1 c.cursor)
    else
      match narrowCap c (v.val b).toNat with
      | none => .error (capTrap 4 c.cursor)
      | some x =>
        let r := s.pairOut v d { v := x.lo, s := (v.rdAt a 0).s } { v := x.hi, s := (v.rdAt a 1).s } true
        .ok { due := 0, regs := r.1, tags := r.2 })

/-- `CAPPERM` (R248). -/
def execCapperm (d a b : BitVec 7) (s : State) : Host.Outcome State Fault Refusal :=
  s.runF (.capperm d a b) (fun s v =>
    let lo := (v.rdAt a 0).v &&& (v.val b ||| 0xFFFFFFFFFFFFFF00#64)
    let r := s.pairOut v d { v := lo, s := (v.rdAt a 0).s } (v.rdAt a 1) (v.tagAt a)
    .ok { due := 0, regs := r.1, tags := r.2 })

/-- `CAPCHK` (R249). -/
def execCapchk (d a b : BitVec 7) (s : State) : Host.Outcome State Fault Refusal :=
  s.runD (.capchk d a b) d (fun _ v =>
    let c := v.capAt a
    let n := bits (v.val b).toNat 37 0
    let need := bits (v.val b).toNat 63 56
    (BitVec.ofNat 64 (b2n (!v.tagAt a) + 2 * b2n (!c.has need) + 4 * b2n (n != 0 && !c.covers c.cursor n)), sTimeless))

/-- The capability that `CAPSCR` makes from an offset and a control word (R245). -/
def State.scrCap (s : State) (v : Thread) (off ctl : Nat) : Except Trap CapW :=
  let n := bits ctl 37 0
  let code := s.codeCap v
  let src := bits ctl 63 62
  if 2 ≤ src then .error (capTrap 3 off)
  else
    let sb := if src = 0 then Config.scratchWindow else code.base
    let sz := if src = 0 then s.scratchSize v else code.limit - code.base
    let perms := if src = 0 then pLoad ||| pStore else pLoad ||| pExecute
    if n = 0 ∨ sz < off + n then .error (capTrap 4 ((sb + off) % 2 ^ 56))
    else
      match capOver (sb + off) (sb + off) (sb + off + n) perms with
      | none => .error (capTrap 4 ((sb + off) % 2 ^ 56))
      | some c =>
        if src = 1 ∧ (c.base < code.base ∨ code.limit < c.limit) then .error (capTrap 4 ((sb + off) % 2 ^ 56)) else .ok c

/-- `CAPSCR` (R245). -/
def execCapscr (d a b : BitVec 7) (s : State) : Host.Outcome State Fault Refusal :=
  s.runF (.capscr d a b) (fun s v =>
    match s.scrCap v (v.val a).toNat (v.val b).toNat with
    | .error tr => .error tr
    | .ok c =>
      let r := s.pairOut v d { v := c.lo, s := sTimeless } { v := c.hi, s := sTimeless } true
      .ok { due := 0, regs := r.1, tags := r.2 })

/-- `CAPMOV` (R250). -/
def execCapmov (d a : BitVec 7) (s : State) : Host.Outcome State Fault Refusal :=
  s.runF (.capmov d a) (fun s v =>
    let r := s.pairOut v d (v.rdAt a 0) (v.rdAt a 1) (v.tagAt a)
    .ok { due := 0, regs := r.1, tags := r.2 })

end Sys2Proof.Machine
end

