-- ==== Sys2Proof/Machine/Collective.lean ====
section
/-!
DEFINITION. What the cross-lane instructions deliver to each joined thread of a completed rendezvous
(spec/07_control_and_crosslane.md R204 to R209; R131, R132 of spec/04_number_formats.md for the order of sums).
-/

namespace Sys2Proof.Machine

/-- The lane of a joined thread. -/
def RJoin.lane (j : RJoin) : Nat := j.tid % 32

/-- The contribution of a lane, if it joined. -/
def laneJoin (js : List RJoin) (l : Nat) : Option RJoin := js.find? (fun j => j.lane == l)

/-- A result with its stamp and the flags it raises. -/
structure COut where
  w : Word
  s : Stamp
  fl : BitVec 6 := 0#6
  deriving DecidableEq, Repr

/-- combine(TIMELESS, the A stamps of the given lanes) (R204). -/
def joinStamp (js : List RJoin) : Stamp := combineList (sTimeless :: js.map (fun j => j.a.s))

/-- The A of lane l: 0 TIMELESS for a lane that did not join (R205). -/
def shuffleFrom (js : List RJoin) (l : Nat) : COut :=
  match laneJoin js l with
  | some j => { w := j.a.v, s := joinStamp [j] }
  | none => { w := 0#64, s := sTimeless }

/-- The mask of the lanes that satisfy p. -/
def laneMask (js : List RJoin) (p : RJoin → Bool) : Word :=
  BitVec.ofNat 64 ((js.filter p).foldl (fun m j => m ||| 2 ^ j.lane) 0)

/-- All ones or zero. -/
def allOnes (b : Bool) : Word := if b then 0xFFFFFFFFFFFFFFFF#64 else 0#64

/-- An integer fold over the given lanes, element by element, from an identity (R207). -/
def intFold (w : Nat) (f : Nat → Nat → Nat) (unit : Nat) (js : List RJoin) : COut :=
  { w := putElems w (listOf (64 / w) (fun j => (js.map (fun x => elem w x.a.v.toNat j)).foldl f unit)), s := joinStamp js }

/-- Whether x is below y as signed w-bit numbers. -/
def slt (w x y : Nat) : Bool := decide (toSigned w x < toSigned w y)

/-- Element j of the 32 lanes; lanes that did not join contribute +0 (R131, R208). -/
def lanesOf (f : Fmt) (js : List RJoin) (j : Nat) : List Nat :=
  listOf 32 (fun l => ((laneJoin js l).map (fun x => elem f.w x.a.v.toNat j)).getD 0)

/-- The sum over all lanes (R131). DEDUCED (log 22): the OVN that governs a joined thread's result is that thread's own. -/
def floatReduce (f : Fmt) (r : RCtx) (js : List RJoin) : COut :=
  let rs := listOf f.n (fun j => f.tree r 5 (lanesOf f js j))
  { w := putElems f.w (rs.map (fun r => r.1)), s := joinStamp js, fl := fUnion (rs.map (fun r => r.2)) }

/-- The inclusive scan for lane l (R132). -/
def floatScan (f : Fmt) (r : RCtx) (js : List RJoin) (l : Nat) : COut :=
  let rs := listOf f.n (fun j => f.scanLane r (lanesOf f js j) l)
  { w := putElems f.w (rs.map FRes.v), s := joinStamp (js.filter (fun x => x.lane ≤ l)), fl := fUnion (rs.map FRes.fl) }

/-- The width of a reduction's TY. -/
def redWidth (t : BitVec 2) : Nat := intWidth (t.setWidth 3)

/-- What a cross-lane instruction delivers to the joined thread `me`, of the joined threads `js` (R204 to R209). -/
def crossOut (i : Instr) (js : List RJoin) (me : RJoin) : COut :=
  let l := me.lane
  match i with
  | .shfl _ _ _ => shuffleFrom js (me.b.v.toNat % 32)
  | .shfliIdx _ _ k => shuffleFrom js k.toNat
  | .shfliUp _ _ k => shuffleFrom js (if k.toNat ≤ l then l - k.toNat else l)
  | .shfliDown _ _ k => shuffleFrom js (if l + k.toNat ≤ 31 then l + k.toNat else l)
  | .shfliXor _ _ k => shuffleFrom js (l ^^^ k.toNat)
  | .voteall _ _ => { w := allOnes (js.all (fun j => j.a.v != 0#64)), s := joinStamp js }
  | .voteany _ _ => { w := allOnes (js.any (fun j => j.a.v != 0#64)), s := joinStamp js }
  | .ballot _ _ => { w := laneMask js (fun j => j.a.v != 0#64), s := joinStamp js }
  | .matchA _ _ => { w := laneMask js (fun j => j.a.v == me.a.v), s := joinStamp js }
  | .scanadd t _ _ => intFold (intWidth t) (· + ·) 0 (js.filter (fun x => x.lane ≤ l))
  | .scanaddx t _ _ => intFold (intWidth t) (· + ·) 0 (js.filter (fun x => x.lane < l))
  | .redadd t _ _ => intFold (intWidth t) (· + ·) 0 js
  | .redor t _ _ => intFold (intWidth t) (· ||| ·) 0 js
  | .redmaxs t _ _ => let w := redWidth t; intFold w (fun x y => if slt w x y then y else x) (2 ^ (w - 1)) js
  | .redmaxn t _ _ => intFold (redWidth t) max 0 js
  | .redmins t _ _ => let w := redWidth t; intFold w (fun x y => if slt w y x then y else x) (2 ^ (w - 1) - 1) js
  | .redminn t _ _ => let w := redWidth t; intFold w min (2 ^ w - 1) js
  | .fredadd t _ _ => floatReduce (fmtOf t.toNat) (rcTree me.ovn) js
  | .fscanadd t _ _ => floatScan (fmtOf t.toNat) (rcTree me.ovn) js l
  | .elect _ => { w := if js.all (fun x => l ≤ x.lane) then 1#64 else 0#64, s := sTimeless }
  | .memb _ => { w := laneMask js (fun _ => true), s := sTimeless }
  | _ => { w := 0#64, s := sTimeless }

end Sys2Proof.Machine
end

