-- ==== Sys2Proof/Machine/MatrixQueue.lean ====
section
/-!
DEFINITION. How matrix and update commands enter a crew's queue (spec/10_matrix_and_update.md R277 to R284, R286, R292): the
fields of the operand words, their checks, and the vote of a team-collective command.
-/

namespace Sys2Proof.Machine

/-! ### Operand words -/

/-- A matrix-operand trap with the offending word (R324). -/
def matTrap (w : Word) : Trap := { code := 0x10, detail := w.toNat }

/-- EXP, two's complement, of a tile or stream word. -/
def wordExp (w : Word) : Int := toSigned 8 (bits w.toNat 63 56)
/-- M of a tile or stream word. -/
def wordRows (w : Word) : Nat := bits w.toNat 48 39 + 1
/-- The byte offset of the tile that a tile or stream word names. -/
def wordTile (w : Word) : Nat := bits w.toNat 38 26 * 512

/-- Whether the tile of a word lies in the allotment (R280). -/
def tileFits (w : Word) (acc : Nat) : Bool := decide (wordTile w + 512 * (wordRows w + 1) ≤ acc)

/-- A tile word that breaks its layout or limits; EXP counts where it is used (R281). -/
def tileWordBad (w : Word) (useExp : Bool) (acc : Nat) : Bool :=
  bits w.toNat 55 49 != 0 || bits w.toNat 25 0 != 0 || (useExp && bits w.toNat 63 56 == 128) || !tileFits w acc

/-- WFMT of a format word. -/
def fwFmt (w : Word) : Nat := bits w.toNat 2 0
/-- PITCH in bytes of a format word. -/
def fwPitch (w : Word) : Nat := bits w.toNat 31 8 * 32
/-- Bytes of a weight row in a format: 128 elements. -/
def fwRowBytes (fmt : Nat) : Nat := if fmt = 4 ∨ fmt = 5 then 128 else 256

/-- A format word that breaks its layout or limits (R283, R284). -/
def fmtWordBad (w : Word) : Bool :=
  bits w.toNat 63 32 != 0 || bit w.toNat 7 || bit w.toNat 3 || !([1, 2, 4, 5, 6].contains (fwFmt w))
    || (if fwFmt w = 6 then fwPitch w != 0 else decide (fwPitch w < fwRowBytes (fwFmt w)))

/-- AFMT of a stream word. -/
def swFmt (w : Word) : Nat := bits w.toNat 54 52
/-- Bytes of an activation. -/
def swWidth (w : Word) : Nat := if swFmt w = 4 ∨ swFmt w = 5 then 1 else 2
/-- APITCH. -/
def swPitch (w : Word) : Nat := bits w.toNat 17 0

/-- The register of `MSTREAM` that breaks its layout or limits: the stream word, or the activation offset (R284, R286). -/
def streamBad (off w : Word) (scr acc : Nat) : Option Word :=
  if off.toNat % 32 ≠ 0 then some off
  else if bit w.toNat 55 || bits w.toNat 25 18 != 0 || !([1, 2, 4, 5].contains (swFmt w)) || bits w.toNat 63 56 == 128
      || swPitch w % 32 != 0 || decide (swPitch w < 128 * swWidth w) || !tileFits w acc
      || decide (scr < off.toNat + (wordRows w - 1) * swPitch w + 128 * swWidth w) then some w
  else none

/-! ### Checks of a capability over several runs of bytes -/

/-- Checks 1 to 6 of R218 for the runs of bytes (offset from the cursor, length) that a command reaches through pair A; the
cursor is aligned. Plain addresses are for the instructions of R217 alone. -/
def State.groupCheck (s : State) (v : Thread) (a : RegField) (perm align : Nat) (runs : List (Nat × Nat)) (scratchOk : Bool) :
    Option Trap :=
  let c := v.capAt a
  let inWindow := decide (Config.scratchWindow ≤ c.cursor)
  if v.tagAt a = false then some (capTrap 1 c.cursor)
  else if c.has perm = false then some (capTrap 2 c.cursor)
  else if inWindow && !scratchOk then some (capTrap 3 c.cursor)
  else if !runs.all (fun r => c.covers (c.cursor + r.1) r.2) then some (capTrap 4 c.cursor)
  else if c.cursor % align ≠ 0 then some (alignTrap c.cursor)
  else if inWindow then
    match runs.find? (fun r => decide (s.scratchSize v < c.cursor - Config.scratchWindow + r.1 + r.2)) with
    | some r => some (scratchTrap (c.cursor - Config.scratchWindow + r.1))
    | none => none
  else none

/-! ### The queue -/

/-- The accumulator allotment of a thread's cohort, 0 without one. -/
def State.accSize (s : State) (t : Thread) : Nat :=
  ((s.crew t.crew).bind (fun c => (s.cohort c.cohort).map (fun h => h.accBytes))).getD 0

/-- Put a command into its crew's queue: commands of one cycle stand in ascending `tid` (R278). -/
def enterQueue (m : MCmd) : List MCmd → List MCmd
  | [] => [m]
  | x :: xs => if x.born == m.born && decide (m.tid < x.tid) then m :: x :: xs else x :: enterQueue m xs

/-- Enqueue a command. -/
def State.enqueue (s : State) (cr : Nat) (m : MCmd) : State := s.modCrew cr (fun c => { c with mq := enterQueue m c.mq })

/-- Whether a command rules out the replay of its crew alone (R298). -/
def noCrewReplay (i : Instr) : Bool :=
  match i with
  | .mnorm _ => true
  | .mdrain _ _ => true
  | .mzero _ => true
  | _ => false

/-- Issue a single-thread command: its operation is in flight until the command completes (R278). -/
def State.issueCommand (s : State) (t v : Thread) (i : Instr) (words : List Reg) (srcs : List (Nat × CapW)) (dreg : Option Nat) :
    State :=
  let (cid, s) := s.fresh
  let (oid, s) := s.fresh
  let s := s.issueL t { id := oid, flag := none, entry := true, wait := .command cid }
  (s.modCrew t.crew (fun c => { c with drained := c.drained || noCrewReplay i })).enqueue t.crew
    { id := cid, instr := i, born := s.cycle, tid := t.tid, issuers := [(t.tid, oid)], words := words, srcs := srcs,
      bounds := [], dreg := dreg, fpmode := v.fpmode, phase := v.dither.toNat, done := 0 }

/-! ### Team-collective commands -/

/-- A joined thread leaves the Held state with an operation in flight (R33). -/
def State.joinDone (s : State) (cr : Nat) (j : RJoin) (op : LOp) : State :=
  match s.thread cr j.tid with
  | none => s
  | some t =>
    let t := { t with lops := t.lops ++ [{ op with flag := j.flag }] }
    s.setThread (match t.st with
      | .held _ => { t with st := .running, notBefore := s.cycle + 1 }
      | _ => { t with resume := .running, notBefore := s.cycle + 1 })

/-- A joined thread takes a trap precise at the collective instruction, which has not executed; its flag increment is undone
(R35, R284). -/
def State.joinTrap (s : State) (cr : Nat) (pc : PC) (j : RJoin) (tr : Trap) : State :=
  match s.thread cr j.tid with
  | none => s
  | some t => s.takeTrapAt ((t.commit s.cycle).lower j.flag) pc tr

/-- The registers a collective command votes on (R284). -/
def votes (i : Instr) (j : RJoin) : List Word :=
  match i with
  | .mload _ => [j.c.v]
  | _ => [j.a.v, j.b.v]

/-- The joined lane of lowest number. -/
def lowestJoin (js : List RJoin) : Option RJoin := js.find? (fun j => js.all (fun k => j.tid ≤ k.tid))

/-- Complete the rendezvous of `MLOAD` or `MSTREAM`: the vote, then the checks of the agreed words, then the queue (R284). -/
def State.completeCommand (s : State) (cr : Crew) (r : Rdv) (i : Instr) : State :=
  match lowestJoin r.joins with
  | none => s
  | some j0 =>
    if r.joins.any (fun j => votes i j != votes i j0) then
      let m := (laneMask r.joins (fun _ => true)).toNat
      r.joins.foldl (fun s j => s.joinTrap cr.uid r.pc j { code := 0x0F, detail := m }) s
    else
      let acc := ((s.cohort cr.cohort).map (fun h => h.accBytes)).getD 0
      let bad :=
        match i with
        | .mload _ => if fmtWordBad j0.c.v then some j0.c.v else none
        | _ => streamBad j0.a.v j0.b.v cr.scrSize acc
      match bad with
      | some w => r.joins.foldl (fun s j => s.joinTrap cr.uid r.pc j (matTrap w)) s
      | none =>
        let (cid, s) := s.fresh
        let step := r.joins.foldl (fun (p : State × List (Nat × Nat)) j =>
          let (oid, s) := p.1.fresh
          (s.joinDone cr.uid j { id := oid, flag := none, entry := true, wait := .command cid }, p.2 ++ [(j.tid, oid)])) (s, [])
        step.1.enqueue cr.uid
          { id := cid, instr := i, born := s.cycle, tid := j0.tid, issuers := step.2, words := [j0.a, j0.b, j0.c],
            srcs := r.joins.map (fun j => (j.lane, { lo := j.a.v, hi := j.b.v })),
            bounds := r.joins.map (fun j => (j.lane, j.bound)), dreg := none, fpmode := 0#4, phase := 0, done := 0 }

end Sys2Proof.Machine
end

