-- ==== Sys2Proof/Machine/Settle.lean ====
section
/-!
DEFINITION. The events that are evaluated at the end of a cycle (spec/01_machine_model.md R29 to R37;
spec/07_control_and_crosslane.md R210, R212, R214): release of convergence barriers, completion of rendezvous, release of
crew barriers and scope-group barriers.
-/

namespace Sys2Proof.Machine

/-- Let the held threads that satisfy p go on in the next cycle; a stopped one goes on when it is resumed. -/
def State.releaseHeld (s : State) (p : Thread → Hold → Bool) : State :=
  s.mapThreads (fun t =>
    match t.st, t.resume with
    | .held h, _ => if p t h then { t with st := .running, notBefore := s.cycle + 1 } else t
    | .stopped, .held h => if p t h then { t with resume := .running, notBefore := s.cycle + 1 } else t
    | _, _ => t)

/-! ### Convergence barriers (R29, R30) -/

/-- A barrier of a team. -/
def Crew.cb (c : Crew) (team k : Nat) : CBar := (c.cbs.getD team []).getD k { mask := 0#32, arr := 0#32 }
/-- Change a barrier of a team. -/
def Crew.modCb (c : Crew) (team k : Nat) (f : CBar → CBar) : Crew := { c with cbs := modifyAt (modifyAt f k) team c.cbs }

/-- Whether a barrier holds threads and every member has arrived. -/
def CBar.releases (b : CBar) : Bool := b.arr != 0#32 && (b.mask &&& ~~~b.arr == 0#32)

/-- Release barrier k of a team when it is to be released. -/
def State.settleCb (s : State) (cr team k : Nat) : State :=
  match s.crew cr with
  | none => s
  | some c =>
    if (c.cb team k).releases then
      (s.setCrew (c.modCb team k (fun b => { b with arr := 0#32 }))).releaseHeld
        (fun t h => t.crew == cr && t.team == team && h == .cjoin k)
    else s

/-- Release every convergence barrier of a crew that is to be released. -/
def State.settleCbs (s : State) (c : Crew) : State :=
  (List.range c.cbs.length).foldl (fun s team => (List.range 8).foldl (fun s k => s.settleCb c.uid team k) s) s

/-! ### Rendezvous (R32 to R35) -/

/-- Whether a lane of a team has exited. -/
def State.laneExited (s : State) (cr team l : Nat) : Bool :=
  match s.thread cr (32 * team + l) with
  | some t => t.st == .exited
  | none => false

/-- Whether every lane in the mask has joined or exited (R33). -/
def State.rdvComplete (s : State) (cr : Nat) (r : Rdv) : Bool :=
  (List.range 32).all (fun l =>
    !r.mask.getLsbD l || (laneJoin r.joins l).isSome || s.laneExited cr r.team l)

/-- Complete a cross-lane rendezvous: the results of all joined threads are written together, no earlier than the next cycle
(R34, R204). -/
def State.completeCross (s : State) (cr : Crew) (r : Rdv) (i : Instr) : State :=
  let (g, s) := s.fresh
  r.joins.foldl (fun s j =>
    let o := crossOut i r.joins j
    let (id, s) := s.fresh
    let (regs, tags) :=
      match j.d with
      | none => ([], [])
      | some n => ([(n, ({ v := o.w, s := clampStamp s.now o.s } : Reg))], [(n / 2, false)])
    s.joinDone cr.uid j
      { id := id, flag := none, entry := false, wait := .ready (s.cycle + 1), regs := regs, tags := tags, fset := o.fl,
        group := some g }) s

/-- Complete a rendezvous when it is complete, and dissolve it. -/
def State.settleRdv (s : State) (cr : Nat) (r : Rdv) : State :=
  match s.crew cr with
  | none => s
  | some c =>
    if s.rdvComplete cr r then
      let s := s.setCrew { c with rdvs := c.rdvs.filter (fun x => x.id != r.id) }
      match r.instr with
      | .mload _ => s.completeCommand c r r.instr
      | .mstream _ => s.completeCommand c r r.instr
      | i => s.completeCross c r i
    else s

/-- Complete every rendezvous of a crew that is complete. -/
def State.settleRdvs (s : State) (c : Crew) : State := c.rdvs.foldl (fun s r => s.settleRdv c.uid r) s

/-! ### Crew barriers (R210) -/

/-- Whether every thread of a crew has arrived at a barrier or exited, and some thread waits for the release. DESIGN CHOICE (log 53): a
thread whose arrival is on record counts whatever state it is in since, as its arrival is unchanged by what it does (R210). -/
def State.barReady (s : State) (cr : Nat) (b : CrewBar) : Bool :=
  !b.arrived.isEmpty && s.threads.all (fun t => t.crew != cr || t.st == .exited || b.arrived.contains t.tid)

/-- Release crew barrier k when it is to be released. -/
def State.settleBar (s : State) (cr k : Nat) : State :=
  match s.crew cr with
  | none => s
  | some c =>
    match c.bars[k]? with
    | none => s
    | some b =>
      if s.barReady cr b then
        let gen := b.gen + 1#32
        (s.setCrew { c with bars := modifyAt (fun _ => { gen := gen, arrived := [], released := some s.cycle }) k c.bars }).releaseHeld
          (fun t h => t.crew == cr && (match h with
            | .bar n g => n == k && g != gen
            | .await n g => n == k && g != gen
            | _ => false))
      else s

/-- Release every crew barrier of a crew that is to be released. -/
def State.settleBars (s : State) (c : Crew) : State := (List.range 16).foldl (fun s k => s.settleBar c.uid k) s

/-! ### Scope-group barriers (R212) -/

/-- Whether every thread, not exited, of every crew of a launch resident on a core of the group has arrived; an arrival on record counts
as at a crew barrier (log 53). -/
def State.sbarReady (s : State) (x : Ctx) (b : SBar) : Bool :=
  let cores := ((x.groups.find? (fun g => g.1 == b.group)).map (fun g => g.2)).getD []
  let crews := s.crews.filter (fun c => c.ctx == x.num && c.task == b.task && cores.contains c.core)
  !b.arrived.isEmpty
    && s.threads.all (fun t => !crews.any (fun c => c.uid == t.crew) || t.st == .exited || b.arrived.contains (t.crew, t.tid))

/-- Release a scope-group barrier when it is to be released. -/
def State.settleSbar (s : State) (cn : Nat) (b : SBar) : State :=
  match s.ctx cn with
  | none => s
  | some x =>
    if s.sbarReady x b then
      (s.setCtx { x with sbars := x.sbars.map (fun y =>
          if y.task == b.task && y.group == b.group then
            { y with gen := y.gen + 1, arrived := [], released := some s.cycle }
          else y) }).releaseHeld
        (fun t h => b.arrived.contains (t.crew, t.tid) && (match h with
          | .sbar g n => g == b.group && n == b.gen
          | _ => false))
    else s

/-- Release every scope-group barrier of a context that is to be released. -/
def State.settleSbars (s : State) (x : Ctx) : State := x.sbars.foldl (fun s b => s.settleSbar x.num b) s

/-- Evaluate everything that the end of a cycle evaluates but the stall timers (R37, R214). -/
def State.settle (s : State) : State :=
  let s := s.crews.foldl State.settleCbs s
  let s := s.crews.foldl State.settleRdvs s
  let s := s.crews.foldl State.settleBars s
  s.ctxs.foldl State.settleSbars s

end Sys2Proof.Machine
end

