-- ==== Sys2Proof/Machine/CrossLane.lean ====
section
/-!
DEFINITION. Joining a rendezvous, the cross-lane instructions, and a rendezvous that stalls (spec/01_machine_model.md R32 to
R36; spec/07_control_and_crosslane.md R204 to R209).
-/

namespace Sys2Proof.Machine

/-- `rzlimit` in cycles: 2^n of `ctxctl`, with the writes of it that are due (R36, R323). -/
def State.rzLimit (s : State) (t : Thread) : Nat :=
  match s.ctx (s.ctxOf t) with
  | none => 0
  | some x => 2 ^ bits (settleWord s.cycle x.ctl x.pendCtl).1.toNat 4 0

/-- Join a rendezvous of the crew, or begin one: its team, PC and mask name it (R32). -/
def Crew.joinRdv (c : Crew) (i : Instr) (team : Nat) (pc : PC) (mask : BitVec 32) (cycle limit id : Nat) (j : RJoin) : Crew :=
  if c.rdvs.any (fun r => r.team == team && r.pc == pc && r.mask == mask) then
    { c with rdvs := c.rdvs.map (fun r =>
        if r.team == team && r.pc == pc && r.mask == mask then { r with joins := r.joins ++ [j] } else r) }
  else
    { c with rdvs := c.rdvs ++ [{ id := id, team := team, pc := pc, mask := mask, instr := i, joins := [j], born := cycle,
                                  timer := 0, limit := limit }] }

/-- The rendezvous a thread would join. -/
def Crew.rdvId (c : Crew) (team : Nat) (pc : PC) (mask : BitVec 32) (id : Nat) : Nat :=
  ((c.rdvs.find? (fun r => r.team == team && r.pc == pc && r.mask == mask)).map (fun r => r.id)).getD id

/-- Issue a team-collective instruction for one thread: the collective-mask trap, or the join (R32). Its flag rises at issue. -/
def State.joinCollective (s : State) (i : Instr) (t v : Thread) (j : RJoin) : State :=
  if v.xmask.getLsbD v.lane = false then s.takeTrap t { code := 8, detail := v.xmask.toNat }
  else
    match s.crew t.crew with
    | none => s
    | some c =>
      let (id, s) := s.fresh
      let rid := c.rdvId t.team t.pc v.xmask id
      let flag := t.flagHere
      (s.setCrew (c.joinRdv i t.team t.pc v.xmask s.cycle (s.rzLimit t) id { j with flag := flag })).setThread
        { ((t.raise flag).advance s.cycle 1) with st := .held (.rendezvous rid) }

/-- A cross-lane instruction with inputs A and B. -/
def State.runCross (s : State) (i : Instr) (d a b : RegField) : Host.Outcome State Fault Refusal :=
  s.issueThen i (fun s t v =>
    s.joinCollective i t v
      { tid := t.tid, a := v.rd a, b := v.rd b, c := Reg.zero, bound := 0#64,
        d := if d = 127#7 then none else some (v.phys d), flag := none, ovn := v.fpmode.getLsbD 3 }) State.settle

/-- `SHFL`. -/
def execShfl (d a b : BitVec 7) (s : State) : Host.Outcome State Fault Refusal := s.runCross (.shfl d a b) d a b
/-- `SHFLI` from a fixed lane. -/
def execShfliIdx (d a : BitVec 7) (k : BitVec 5) (s : State) : Host.Outcome State Fault Refusal :=
  s.runCross (.shfliIdx d a k) d a 127#7
/-- `SHFLI` from a lower lane. -/
def execShfliUp (d a : BitVec 7) (k : BitVec 5) (s : State) : Host.Outcome State Fault Refusal :=
  s.runCross (.shfliUp d a k) d a 127#7
/-- `SHFLI` from a higher lane. -/
def execShfliDown (d a : BitVec 7) (k : BitVec 5) (s : State) : Host.Outcome State Fault Refusal :=
  s.runCross (.shfliDown d a k) d a 127#7
/-- `SHFLI` from the lane XOR a mask. -/
def execShfliXor (d a : BitVec 7) (k : BitVec 5) (s : State) : Host.Outcome State Fault Refusal :=
  s.runCross (.shfliXor d a k) d a 127#7
/-- `VOTEALL`. -/
def execVoteall (d a : BitVec 7) (s : State) : Host.Outcome State Fault Refusal := s.runCross (.voteall d a) d a 127#7
/-- `VOTEANY`. -/
def execVoteany (d a : BitVec 7) (s : State) : Host.Outcome State Fault Refusal := s.runCross (.voteany d a) d a 127#7
/-- `BALLOT`. -/
def execBallot (d a : BitVec 7) (s : State) : Host.Outcome State Fault Refusal := s.runCross (.ballot d a) d a 127#7
/-- `MATCH`. -/
def execMatchA (d a : BitVec 7) (s : State) : Host.Outcome State Fault Refusal := s.runCross (.matchA d a) d a 127#7
/-- `SCANADD`. -/
def execScanadd (t : BitVec 3) (d a : BitVec 7) (s : State) : Host.Outcome State Fault Refusal :=
  s.runCross (.scanadd t d a) d a 127#7
/-- `SCANADDX`. -/
def execScanaddx (t : BitVec 3) (d a : BitVec 7) (s : State) : Host.Outcome State Fault Refusal :=
  s.runCross (.scanaddx t d a) d a 127#7
/-- `REDADD`. -/
def execRedadd (t : BitVec 3) (d a : BitVec 7) (s : State) : Host.Outcome State Fault Refusal :=
  s.runCross (.redadd t d a) d a 127#7
/-- `REDMAX`, signed. -/
def execRedmaxs (t : BitVec 2) (d a : BitVec 7) (s : State) : Host.Outcome State Fault Refusal :=
  s.runCross (.redmaxs t d a) d a 127#7
/-- `REDMAX`, natural. -/
def execRedmaxn (t : BitVec 2) (d a : BitVec 7) (s : State) : Host.Outcome State Fault Refusal :=
  s.runCross (.redmaxn t d a) d a 127#7
/-- `REDMIN`, signed. -/
def execRedmins (t : BitVec 2) (d a : BitVec 7) (s : State) : Host.Outcome State Fault Refusal :=
  s.runCross (.redmins t d a) d a 127#7
/-- `REDMIN`, natural. -/
def execRedminn (t : BitVec 2) (d a : BitVec 7) (s : State) : Host.Outcome State Fault Refusal :=
  s.runCross (.redminn t d a) d a 127#7
/-- `REDOR`. -/
def execRedor (t : BitVec 3) (d a : BitVec 7) (s : State) : Host.Outcome State Fault Refusal :=
  s.runCross (.redor t d a) d a 127#7
/-- `FREDADD`. -/
def execFredadd (t : BitVec 3) (d a : BitVec 7) (s : State) : Host.Outcome State Fault Refusal :=
  s.runCross (.fredadd t d a) d a 127#7
/-- `FSCANADD`. -/
def execFscanadd (t : BitVec 3) (d a : BitVec 7) (s : State) : Host.Outcome State Fault Refusal :=
  s.runCross (.fscanadd t d a) d a 127#7
/-- `ELECT`. -/
def execElect (d : BitVec 7) (s : State) : Host.Outcome State Fault Refusal := s.runCross (.elect d) d 127#7 127#7
/-- `MEMB`. -/
def execMemb (d : BitVec 7) (s : State) : Host.Outcome State Fault Refusal := s.runCross (.memb d) d 127#7 127#7

/-! ### Stalls (R35) -/

/-- Dissolve a rendezvous: every joined thread takes a rendezvous-stall trap precise at the instruction. -/
def State.stallRdv (s : State) (c : Crew) (r : Rdv) : State :=
  r.joins.foldl (fun s j => s.joinTrap c.uid r.pc j { code := 9, detail := r.mask.toNat })
    (s.setCrew { c with rdvs := c.rdvs.filter (fun x => x.id != r.id) })

/-- Whether no core has a partition left to issue in this cycle. -/
def State.cycleIssued (s : State) : Bool :=
  s.crews.all (fun c => (List.range 4).all (fun p => s.issuedNow.contains (c.core, p)))

/-- `RENDEZVOUS_STALL`: a rendezvous whose timer has reached its limit is dissolved, at the end of a cycle whose joins and exits have
been applied (R37). -/
def execRendezvousStall (cr rid : Nat) (s0 : State) : Host.Outcome State Fault Refusal :=
  if s0.cycleIssued = false then .next s0
  else
    let s := s0.settle
    match s.crew cr with
    | none => .next s0
    | some c =>
      match c.rdvs.find? (fun r => r.id == rid && decide (r.limit ≤ r.timer)) with
      | none => .next s0
      | some r => .next (s.stallRdv c r)

end Sys2Proof.Machine
end

