-- ==== Sys2Proof/Machine/FloatInstrs.lean ====
section
/-!
DEFINITION. The floating-point instructions (spec/06_scalar_vector_instructions.md R173 to R185).
-/

namespace Sys2Proof.Machine

/-! ### Shared shapes -/

/-- How element j of n rounds for a thread (R116, R118). -/
def Thread.rc (v : Thread) (n j : Nat) : RCtx :=
  { mode := rmodeOf v.fpmode.toNat, ovn := v.fpmode.getLsbD 3, idx := (v.lane * n + j + v.dither.toNat) % 64 }

/-- Number the elements of a list. -/
def numbered {α β : Type} (f : Nat → α → β) (l : List α) : List β := List.zipWith f (List.range l.length) l

/-- The elements of a register in a format. -/
def Fmt.elems (f : Fmt) (x : Word) : List Nat := Sys2Proof.Machine.elems f.w x

/-- What a floating-point instruction gives: the register, the flags of all its elements, the `amax` candidate. -/
structure FOut where
  w : Word
  fl : BitVec 6
  amax : Nat := 0
  deriving DecidableEq, Repr

/-- Element results as one register of w-bit elements (R161). -/
def fOut (w : Nat) (l : List FRes) : FOut := { w := putElems w (l.map FRes.v), fl := fUnion (l.map FRes.fl) }

/-- A class-F floating-point instruction (R163). -/
def State.runFloatF (s : State) (i : Instr) (d : RegField) (srcs : List RegField) (f : Thread → FOut) :
    Host.Outcome State Fault Refusal :=
  s.runF i (fun s v =>
    let r := f v
    .ok { due := 0, regs := s.regOut v d r.w (combineList (srcs.map (fun x => (v.rd x).s))), tags := v.tagOut d, fset := r.fl,
          amax := BitVec.ofNat 32 r.amax })

/-- A class-L floating-point instruction: it completes no earlier than four cycles on (R163). -/
def State.runFloatL (s : State) (i : Instr) (d : RegField) (srcs : List RegField) (ditherInc : Nat) (f : Thread → FOut) :
    Host.Outcome State Fault Refusal :=
  s.issueAll i (fun s t v =>
    let r := f v
    let (id, s) := s.fresh
    s.issueL t
      { id := id, flag := none, entry := false, wait := .ready (s.cycle + 4),
        regs := s.regOut v d r.w (combineList (srcs.map (fun x => (v.rd x).s))), tags := v.tagOut d, fset := r.fl,
        ditherInc := ditherInc })

/-- Element by element from A. -/
def float1 (f : Fmt) (g : RCtx → Nat → FRes) (a : RegField) (v : Thread) : FOut :=
  fOut f.w (numbered (fun j x => g (v.rc f.n j) x) (f.elems (v.val a)))
/-- Element by element from A and B. -/
def float2 (f : Fmt) (g : RCtx → Nat → Nat → FRes) (a b : RegField) (v : Thread) : FOut :=
  fOut f.w (numbered (fun j p => g (v.rc f.n j) p.1 p.2) (List.zip (f.elems (v.val a)) (f.elems (v.val b))))

/-! ### Arithmetic (R173, R174) -/

/-- `FADD`. -/
def execFadd (t : BitVec 3) (d a b : BitVec 7) (s : State) : Host.Outcome State Fault Refusal :=
  let f := fmtOf t.toNat
  s.runFloatF (.fadd t d a b) d [a, b] (float2 f (fun r x y => f.add r (f.decode x) (f.decode y)) a b)
/-- `FSUB`. -/
def execFsub (t : BitVec 3) (d a b : BitVec 7) (s : State) : Host.Outcome State Fault Refusal :=
  let f := fmtOf t.toNat
  s.runFloatF (.fsub t d a b) d [a, b] (float2 f (fun r x y => f.add r (f.decode x) (f.decode y).neg) a b)
/-- `FMUL`. -/
def execFmul (t : BitVec 3) (d a b : BitVec 7) (s : State) : Host.Outcome State Fault Refusal :=
  let f := fmtOf t.toNat
  s.runFloatF (.fmul t d a b) d [a, b] (float2 f (fun r x y => f.mul r (f.decode x) (f.decode y)) a b)
/-- `FFMA`. -/
def execFfma (t : BitVec 3) (d a b c : BitVec 7) (s : State) : Host.Outcome State Fault Refusal :=
  let f := fmtOf t.toNat
  s.runFloatF (.ffma t d a b c) d [a, b, c] (fun v =>
    fOut f.w (numbered (fun j p => f.fma (v.rc f.n j) (f.decode p.1.1) (f.decode p.1.2) (f.decode p.2))
      (List.zip (List.zip (f.elems (v.val a)) (f.elems (v.val b))) (f.elems (v.val c)))))
/-- `FSCALE`: B's element is a signed integer of element width. -/
def execFscale (t : BitVec 3) (d a b : BitVec 7) (s : State) : Host.Outcome State Fault Refusal :=
  let f := fmtOf t.toNat
  s.runFloatF (.fscale t d a b) d [a, b] (float2 f (fun r x y => f.scale r (f.decode x) (toSigned f.w y)) a b)
/-- `FMIN`. -/
def execFmin (t : BitVec 3) (d a b : BitVec 7) (s : State) : Host.Outcome State Fault Refusal :=
  let f := fmtOf t.toNat
  s.runFloatF (.fmin t d a b) d [a, b] (float2 f (fun _ x y => f.minmax false x y) a b)
/-- `FMAX`. -/
def execFmax (t : BitVec 3) (d a b : BitVec 7) (s : State) : Host.Outcome State Fault Refusal :=
  let f := fmtOf t.toNat
  s.runFloatF (.fmax t d a b) d [a, b] (float2 f (fun _ x y => f.minmax true x y) a b)
/-- `FABS`. -/
def execFabs (t : BitVec 3) (d a : BitVec 7) (s : State) : Host.Outcome State Fault Refusal :=
  let f := fmtOf t.toNat
  s.runFloatF (.fabs t d a) d [a] (float1 f (fun _ x => f.setSign false x) a)
/-- `FNEG`. -/
def execFneg (t : BitVec 3) (d a : BitVec 7) (s : State) : Host.Outcome State Fault Refusal :=
  let f := fmtOf t.toNat
  s.runFloatF (.fneg t d a) d [a] (float1 f (fun _ x => f.setSign true x) a)

/-! ### Compare and classify (R175) -/

/-- `FCMPEQ`. -/
def execFcmpeq (t : BitVec 3) (d a b : BitVec 7) (s : State) : Host.Outcome State Fault Refusal :=
  let f := fmtOf t.toNat
  s.runFloatF (.fcmpeq t d a b) d [a, b] (float2 f (fun _ x y => f.compare .eq x y) a b)
/-- `FCMPLT`. -/
def execFcmplt (t : BitVec 3) (d a b : BitVec 7) (s : State) : Host.Outcome State Fault Refusal :=
  let f := fmtOf t.toNat
  s.runFloatF (.fcmplt t d a b) d [a, b] (float2 f (fun _ x y => f.compare .lt x y) a b)
/-- `FCMPLE`. -/
def execFcmple (t : BitVec 3) (d a b : BitVec 7) (s : State) : Host.Outcome State Fault Refusal :=
  let f := fmtOf t.toNat
  s.runFloatF (.fcmple t d a b) d [a, b] (float2 f (fun _ x y => f.compare .le x y) a b)
/-- `FCMPUN`. -/
def execFcmpun (t : BitVec 3) (d a b : BitVec 7) (s : State) : Host.Outcome State Fault Refusal :=
  let f := fmtOf t.toNat
  s.runFloatF (.fcmpun t d a b) d [a, b] (float2 f (fun _ x y => f.compare .un x y) a b)
/-- `FCLASS`. -/
def execFclass (t : BitVec 3) (d a : BitVec 7) (s : State) : Host.Outcome State Fault Refusal :=
  let f := fmtOf t.toNat
  s.runFloatF (.fclass t d a) d [a] (float1 f (fun _ x => f.classify x) a)

/-! ### Reciprocal, roots, transcendental (R176, R177) -/

/-- `FRCP`. -/
def execFrcp (t : BitVec 3) (d a : BitVec 7) (s : State) : Host.Outcome State Fault Refusal :=
  let f := fmtOf t.toNat
  s.runFloatL (.frcp t d a) d [a] 0 (float1 f (fun r x => f.rcp r (f.decode x)) a)
/-- `FRSQ`. -/
def execFrsq (t : BitVec 3) (d a : BitVec 7) (s : State) : Host.Outcome State Fault Refusal :=
  let f := fmtOf t.toNat
  s.runFloatL (.frsq t d a) d [a] 0 (float1 f (fun r x => f.rsq r (f.decode x)) a)
/-- `FSQRT`. -/
def execFsqrt (t : BitVec 3) (d a : BitVec 7) (s : State) : Host.Outcome State Fault Refusal :=
  let f := fmtOf t.toNat
  s.runFloatL (.fsqrt t d a) d [a] 0 (float1 f (fun r x => f.sqrt r (f.decode x)) a)
/-- `FEXP2`. -/
def execFexp2 (t : BitVec 3) (d a : BitVec 7) (s : State) : Host.Outcome State Fault Refusal :=
  let f := fmtOf t.toNat
  s.runFloatL (.fexp2 t d a) d [a] 0 (float1 f (fun r x => f.exp2 r (f.decode x)) a)
/-- `FLOG2`. -/
def execFlog2 (t : BitVec 3) (d a : BitVec 7) (s : State) : Host.Outcome State Fault Refusal :=
  let f := fmtOf t.toNat
  s.runFloatL (.flog2 t d a) d [a] 0 (float1 f (fun r x => f.log2 r (f.decode x)) a)
/-- `FSIN`. -/
def execFsin (t : BitVec 3) (d a : BitVec 7) (s : State) : Host.Outcome State Fault Refusal :=
  let f := fmtOf t.toNat
  s.runFloatL (.fsin t d a) d [a] 0 (float1 f (fun _ x => f.sin (f.decode x)) a)
/-- `FCOS`. -/
def execFcos (t : BitVec 3) (d a : BitVec 7) (s : State) : Host.Outcome State Fault Refusal :=
  let f := fmtOf t.toNat
  s.runFloatL (.fcos t d a) d [a] 0 (float1 f (fun _ x => f.cos (f.decode x)) a)

/-! ### Dot products and sums (R178, R179) -/

/-- `FDOT`: the result format is F64 for TY 3 and F32 otherwise. -/
def execFdot (t : BitVec 3) (d a b : BitVec 7) (s : State) : Host.Outcome State Fault Refusal :=
  let f := fmtOf t.toNat
  let g := if t = 3#3 then fmtF64 else fmtF32
  s.runFloatF (.fdot t d a b) d [a, b] (fun v =>
    fOut 64 [g.dot (v.rc 1 0).plain (List.zipWith (fun x y => (f.decode x, f.decode y)) (f.elems (v.val a)) (f.elems (v.val b)))])

/-- `FSUM`. -/
def execFsum (t : BitVec 3) (d a : BitVec 7) (s : State) : Host.Outcome State Fault Refusal :=
  let f := fmtOf t.toNat
  s.runFloatF (.fsum t d a) d [a] (fun v =>
    let r := f.tree (rcTree (v.fpmode.getLsbD 3)) (Nat.log2 f.n) (f.elems (v.val a))
    { w := BitVec.ofNat 64 r.1, fl := r.2 })

/-! ### Conversions (R180 to R183) -/

/-- One element converted between formats; between equal formats only NaNs change (R180). -/
def convertElem (src dst : Fmt) (r : RCtx) (x : Nat) : FRes :=
  if src = dst then
    match src.decode x with
    | .nan s => { v := dst.nan, fl := fNF ||| fWhen s fNV }
    | .inf _ => { v := x, fl := fNF }
    | .fin _ _ _ => { v := x, fl := 0#6 }
  else convert src dst r x

/-- The low elements that a conversion between formats converts (R180). -/
def cvtElems (src dst : Fmt) (x : Word) : List Nat := (src.elems x).take (min src.n dst.n)

/-- `FCVT`. -/
def execFcvt (t : BitVec 3) (d a : BitVec 7) (k : BitVec 3) (s : State) : Host.Outcome State Fault Refusal :=
  let dst := fmtOf t.toNat
  let src := fmtOf k.toNat
  s.runFloatF (.fcvt t d a k) d [a] (fun v =>
    let l := cvtElems src dst (v.val a)
    fOut dst.w (numbered (fun j x => convertElem src dst (v.rc l.length j) x) l))

/-- `FCVTAM`: `FCVT` with the `amax` update of R124. -/
def execFcvtam (t : BitVec 3) (d a : BitVec 7) (k : BitVec 3) (s : State) : Host.Outcome State Fault Refusal :=
  let dst := fmtOf t.toNat
  let src := fmtOf k.toNat
  s.runFloatF (.fcvtam t d a k) d [a] (fun v =>
    let l := cvtElems src dst (v.val a)
    { fOut dst.w (numbered (fun j x => convertElem src dst (v.rc l.length j) x) l) with
      amax := (l.filterMap (fun x => amaxOf (src.decode x))).foldl max 0 })

/-- `F2I`. -/
def execF2i (t : BitVec 3) (d a : BitVec 7) (k : BitVec 3) (s : State) : Host.Outcome State Fault Refusal :=
  let src := fmtOf t.toNat
  let w := intWidth k
  s.runFloatF (.f2i t d a k) d [a] (fun v =>
    let l := (src.elems (v.val a)).take (min src.n (64 / w))
    fOut w (l.map (fun x => toInteger w (satBit k) (v.rc 1 0).plain (src.decode x))))

/-- An element read as a natural or a signed number. -/
def intValue (natural : Bool) (w x : Nat) : Int := if natural then Int.ofNat x else toSigned w x

/-- `I2F`. -/
def execI2f (t : BitVec 3) (d a : BitVec 7) (k : BitVec 3) (s : State) : Host.Outcome State Fault Refusal :=
  let dst := fmtOf t.toNat
  let w := intWidth k
  s.runFloatF (.i2f t d a k) d [a] (fun v =>
    let l := (elems w (v.val a)).take (min dst.n (64 / w))
    fOut dst.w (numbered (fun j x =>
      dst.ofInteger (v.rc l.length j) (intValue (satBit k) w x)) l))

/-- The source format of `FPACK` (R182). -/
def packSource (t : Nat) : Fmt :=
  match t with
  | 0 => fmtF64
  | 1 => fmtF32
  | 2 => fmtF32
  | _ => fmtF16

/-- `FPACK`. -/
def execFpack (t : BitVec 3) (d a b : BitVec 7) (s : State) : Host.Outcome State Fault Refusal :=
  let dst := fmtOf t.toNat
  let src := packSource t.toNat
  s.runFloatF (.fpack t d a b) d [a, b] (fun v =>
    fOut dst.w (numbered (fun j x => convert src dst (v.rc dst.n j) x) (src.elems (v.val a) ++ src.elems (v.val b))))

/-- The destination format of `FUNPK` (R183). -/
def unpackDest (t : Nat) : Fmt :=
  match t with
  | 0 => fmtF64
  | 1 => fmtF32
  | 2 => fmtF32
  | _ => fmtF16

/-- `FUNPK`: the high half of A, widened exactly. -/
def execFunpk (t : BitVec 3) (d a : BitVec 7) (s : State) : Host.Outcome State Fault Refusal :=
  let src := fmtOf t.toNat
  let dst := unpackDest t.toNat
  s.runFloatF (.funpk t d a) d [a] (fun v =>
    fOut dst.w (((src.elems (v.val a)).drop (src.n / 2)).map (fun x => convert src dst rcRne x)))

/-! ### QN4 (R184, R185) -/

/-- S, C and IDX of a scale word (R184). -/
def scaleS (x : Word) : Nat := bits x.toNat 31 0
/-- C of a scale word. -/
def scaleC (x : Word) : Nat := bits x.toNat 39 32
/-- IDX of a scale word. -/
def scaleIdx (x : Word) : Nat := bits x.toNat 45 40

/-- `QPACK` encode: TY 0, 1 and 2. -/
def execQpack (t : BitVec 3) (d a b : BitVec 7) (s : State) : Host.Outcome State Fault Refusal :=
  let f := fmtOf t.toNat
  s.runFloatL (.qpack t d a b) d [a, b] 1 (fun v =>
    let w := v.val b
    fOut 4 (numbered (fun j x =>
      qnEncode { (v.rc 1 0) with idx := (scaleIdx w + j) % 64 + v.dither.toNat } (f.decode x) (scaleC w) (scaleS w))
      (f.elems (v.val a))))

/-- `QPACK` group scale: |g| / 255 rounded with RNE. -/
def qnGroupScale (x : Nat) : FRes :=
  match fmtF32.decode x with
  | .fin n m e =>
    if n && m != 0 then { v := fmtF32.nan, fl := fNV ||| fNF }
    else if m = 0 then { v := 0, fl := 0#6 }
    else
      let k : Nat := 56
      fmtF32.round rcRne false (m * 2 ^ k / 255) (e - (k : Int)) (m * 2 ^ k % 255 != 0)
  | _ => { v := fmtF32.nan, fl := fNV ||| fNF }

/-- `QPACK_GS`. -/
def execQpackGs (d a : BitVec 7) (s : State) : Host.Outcome State Fault Refusal :=
  s.runFloatL (.qpackGs d a) d [a] 1 (fun v => fOut 32 [qnGroupScale (bits (v.val a).toNat 31 0)])

/-- `QPACK` block scale code. -/
def qnBlockScale (x y : Nat) : FRes :=
  match fmtF32.decode x, fmtF32.decode y with
  | .fin n m e, .fin k p g =>
    if (n && m != 0) || (k && p != 0) then { v := 1, fl := fNV }
    else if p = 0 then { v := 1, fl := 0#6 }
    else
      let e0 := min e g
      { v := qnBlockCode (m * 2 ^ (e - e0).toNat) (p * 2 ^ (g - e0).toNat), fl := 0#6 }
  | _, _ => { v := 1, fl := fNV }

/-- `QPACK_BS`. -/
def execQpackBs (d a b : BitVec 7) (s : State) : Host.Outcome State Fault Refusal :=
  s.runFloatL (.qpackBs d a b) d [a, b] 1 (fun v =>
    fOut 64 [qnBlockScale (bits (v.val a).toNat 31 0) (bits (v.val b).toNat 31 0)])

/-- `QUNPK`. -/
def execQunpk (t : BitVec 3) (d a b : BitVec 7) (s : State) : Host.Outcome State Fault Refusal :=
  let f := fmtOf t.toNat
  s.runFloatL (.qunpk t d a b) d [a, b] 0 (fun v =>
    let w := v.val b
    fOut f.w ((listOf f.n (elem 4 (v.val a).toNat)).map (fun c => qnDecode f c (scaleC w) (scaleS w))))

end Sys2Proof.Machine
end

