-- ==== Sys2Proof/Machine/Stops.lean ====
section
/-!
DEFINITION. Stopping a context (spec/16_scheduling_hardware.md R353, R354; spec/15_privileged_state_and_traps.md R334, R335,
R338): which units hold its work, how its threads stop at clause boundaries, how they go on; and the device's own writes
through a context's tables (R46, R64, R329).
-/

namespace Sys2Proof.Machine

/-! ### The device's own accesses through a context's tables -/

/-- Make a write of the device's own: none while a line that the host may hold is awaited; a violation is logged (R344), and any other
failure performs nothing. Its interrupt follows it. -/
def State.tryWrite (s : State) (c : Nat) (w : Owed) : Option State × State :=
  match w with
  | .restore src base dst off n => s.restoreRow c src base dst off n
  | .write va bs vec =>
    let done := fun (s : State) => match vec with
      | some n => s.sendMsix n
      | none => s
    match s.engMap c .store va bs.length with
    | (.ok l, s) => (some (done (State.segWrite l bs (fun _ => sTimeless) s)), s)
    | (.error .wait, s) => (none, s)
    | (.error (.violation pa), s) => (some (done (s.logCtx c 4 0 none false pa)), s)
    | (.error _, s) => (some (done s), s)

/-- Make a write of the device's own, or leave it until the host has answered, behind those of its context that wait already (R412,
R415). -/
def State.owe (s : State) (c : Nat) (w : Owed) : State :=
  if ((s.ctx c).map (fun x => x.owed.isEmpty)).getD true then
    match s.tryWrite c w with
    | (some s, _) => s
    | (none, s) => s.modCtx c (fun x => { x with owed := [w] })
  else s.modCtx c (fun x => { x with owed := x.owed ++ [w] })

/-- Write bytes the device itself writes at a virtual address of a context, TIMELESS by R49 (R46). -/
def State.ctxWrite (s : State) (c va : Nat) (bs : List Byte) : State := s.owe c (.write va bs none)

/-- The first of a context's own writes that wait is tried again; without a context, the first error record that waits. -/
def State.payOwed (s : State) (c : Option Nat) : State :=
  match c with
  | some c =>
    match (s.ctx c).bind (fun x => x.owed.head?) with
    | none => s
    | some w =>
      match s.tryWrite c w with
      | (some s, _) => s.modCtx c (fun x => { x with owed := x.owed.drop 1 })
      | (none, s) => s
  | none =>
    match s.owed with
    | [] => s
    | (a, bs) :: rest =>
      if s.linesReady a bs.length then
        { s.useLines a bs.length with mem := s.mem.engineWrite s.now a bs (fun _ => sTimeless), owed := rest }
      else s.askLines a bs.length false

/-! ### Stops -/

/-- The units that hold work of a context: its cores, its clusters' engines, its engine threads, its window (R353). -/
def State.unitsOf (s : State) (c : Nat) : List StopUnit :=
  let crews := s.crews.filter (fun x => x.ctx == c)
  let cores := (crews.map (fun x => x.core)).eraseDups
  let clusters := (crews.map (fun x => clusterOf x.core)).eraseDups
  let engines := s.engines.filter (fun e => e.ctx == c)
  cores.map .core ++ clusters.map .matrix ++ clusters.map .update
    ++ engines.map (fun e => match e.kind with
        | .bput => .sender e.uid
        | .bget => .sender e.uid
        | .batom _ => .sender e.uid
        | _ => .copy e.uid)
    ++ [.window]

/-- Whether a unit may still work for a context: no stop is under way, or the unit has not acknowledged it. -/
def Ctx.unitRuns (x : Ctx) (u : StopUnit) : Bool :=
  match x.stop with
  | some st => st.waiting.contains u
  | none => !x.halted && !x.saved

/-- Whether a context's threads stop at their clause boundaries. -/
def Ctx.stopping (x : Ctx) : Bool := x.dhalt || x.stop.isSome || x.halted || x.saved

/-- A thread that stands at a clause boundary stops, and keeps what it will resume in; escalated and exited threads stay. -/
def Thread.stopHere (t : Thread) : Thread :=
  if t.pc.slot = 0 then
    match t.st with
    | .running => { t.handOver with st := .stopped, resume := .running }
    | .held h => { t.handOver with st := .stopped, resume := .held h }
    | .parked p => { t.handOver with st := .stopped, resume := .parked p }
    | .sleeping n => { t.handOver with st := .stopped, resume := .sleeping n }
    | _ => t
  else t

/-- Stop the threads of the contexts that are being stopped, at their clause boundaries (R338, R353). -/
def State.sweepStops (s : State) : State :=
  s.mapThreads (fun t =>
    match s.ctx (s.ctxOf t) with
    | some x => if x.stopping then t.stopHere else t
    | none => t)

/-- Begin a pre-emption, a halt or a destruction of a resident context; a second one merges with the first (R353, R354). -/
def State.beginStop (s : State) (c : Nat) (kind : StopKind) (tasks : List (Nat × Nat)) : State :=
  let units := s.unitsOf c
  s.modCtx c (fun x =>
    match x.stop with
    | some st =>
      let kind := if st.kind = .destroy ∨ kind = .destroy then StopKind.destroy
        else if st.kind = .halt ∨ kind = .halt then StopKind.halt else .preempt
      { x with stop := some { st with kind := kind, tasks := st.tasks ++ tasks } }
    | none => if x.saved then x else { x with stop := some { kind := kind, waiting := units, resumeAsked := false, tasks := tasks } })

/-- Halt a context: one that is saved already has nothing left to stop. -/
def State.askHalt (s : State) (x : Ctx) (tasks : List (Nat × Nat)) : State :=
  if x.halted then s
  else if x.saved then s.modCtx x.num (fun x => { x with halted := true })
  else s.beginStop x.num .halt tasks

/-- The state that a thread resumes in: a waiting read reads again (R239, R268). -/
def TState.reread (st : TState) : TState :=
  match st with
  | .held (.waitv d a k b _) => .held (.waitv d a k b none)
  | .held (.waitc o x _) => .held (.waitc o x none)
  | st => st

/-- Let the stopped threads that satisfy p go on from the next cycle. -/
def State.wakeWhere (s : State) (p : Thread → Bool) : State :=
  s.mapThreads (fun t =>
    if t.st == .stopped && p t then { t with st := t.resume.reread, notBefore := s.cycle + 1, readySince := none } else t)

/-- Let the stopped threads of a context go on from the next cycle. -/
def State.wakeThreads (s : State) (c : Nat) : State := s.wakeWhere (fun t => s.ctxOf t == c)

/-- Start a debug halt: from the end of this cycle on, every thread of the context stops at its next clause boundary; `who`
stopped it; a context that is in a debug halt stays in that one (R338). -/
def State.debugHalt (s : State) (c : Nat) (who : Word) : State :=
  s.modCtx c (fun x => if x.dhalt then x else { x with dhalt := true, dbgwho := who })

/-- The selector of a thread (R338). -/
def State.selector (s : State) (t : Thread) : Word :=
  match s.crew t.crew with
  | none => 0#64
  | some cr =>
    let h := ((s.cohort cr.cohort).map (fun h => h.cohortid)).getD 0
    BitVec.ofNat 64 (cr.ctx % 64 * 2 ^ 58 + h % 2 ^ 24 * 2 ^ 34 + cr.crewid % 8 * 2 ^ 31 + t.tid % 1024)

end Sys2Proof.Machine
end

