-- ==== Sys2Proof/Machine/Matrix.lean ====
section
/-!
DEFINITION. The matrix engine (spec/10_matrix_and_update.md R277 to R291; R134, R137 of spec/04_number_formats.md): issue of
its commands, and the step that the engine takes for the next crew of its cluster.
-/

namespace Sys2Proof.Machine

/-! ### Issue -/

/-- A crew without an accumulator allotment: a matrix-operand trap, for whose offending word the spec names none (R277). -/
def State.noAllotment (s : State) (t : Thread) : State :=
  let (x, s) := s.freeVal
  s.takeTrap t { code := 0x10, detail := x % 2 ^ 64 }

/-- The runs of bytes lane l reads for `MLOAD`, from its cursor (R282). -/
def loadRuns (fw : Word) (l : Nat) : List (Nat × Nat) :=
  if fwFmt fw = 6 then [(256 * l, 256), (0x2000 + 8 * l, 8), (0x2100, 4)]
  else listOf 4 (fun i => ((4 * l + i) * fwPitch fw, fwRowBytes (fwFmt fw)))

/-- The checks a thread makes when it issues `MLOAD` (R282). -/
def mloadCheck (a : RegField) (s : State) (v : Thread) : Option Trap :=
  s.groupCheck v a pLoad 32 (loadRuns (v.rdAt a 2).v v.lane) true

/-- `MLOAD`. -/
def execMload (a : BitVec 7) (s : State) : Host.Outcome State Fault Refusal :=
  s.issueWith (.mload a) (fun vs s t v =>
    let fw := v.rdAt a 2
    let join : RJoin := { tid := t.tid, a := v.rdAt a 0, b := v.rdAt a 1, c := fw, bound := v.bound (bits fw.v.toNat 6 4),
                          d := none, flag := none }
    if v.xmask.getLsbD v.lane = false then s.joinCollective (.mload a) t v join
    else if s.accSize v = 0 then s.noAllotment t
    else
      match mloadCheck a s v with
      | some tr => s.trapAt t v vs (fun s u => ((mloadCheck a s u).map (fun x => x.code == 7)).getD false) tr
      | none => s.joinCollective (.mload a) t v join) State.settle

/-- `MSTREAM`. -/
def execMstream (a : BitVec 7) (s : State) : Host.Outcome State Fault Refusal :=
  s.issueThen (.mstream a) (fun s t v =>
    let w := v.rdAt a 1
    let join : RJoin := { tid := t.tid, a := v.rdAt a 0, b := w, c := Reg.zero, bound := v.bound (bits w.v.toNat 51 49),
                          d := none, flag := none }
    if v.xmask.getLsbD v.lane = false then s.joinCollective (.mstream a) t v join
    else if s.accSize v = 0 then s.noAllotment t
    else s.joinCollective (.mstream a) t v join) State.settle

/-- A single-thread matrix command whose operand word A is checked by `bad`. -/
def State.runCommand (s : State) (i : Instr) (a : RegField) (d : Option RegField) (bad : State → Thread → Bool) :
    Host.Outcome State Fault Refusal :=
  s.issueAll i (fun s t v =>
    if s.accSize v = 0 then s.noAllotment t
    else if bad s v then s.takeTrap t (matTrap (v.val a))
    else
      let dreg := d.bind (fun f => if f = 127#7 then none else some (v.phys f))
      s.issueCommand t v i [v.rd a] [] dreg)

/-- `MSWAP`. -/
def execMswap (s : State) : Host.Outcome State Fault Refusal := s.runCommand .mswap 127#7 none (fun _ _ => false)
/-- `MZERO`. -/
def execMzero (a : BitVec 7) (s : State) : Host.Outcome State Fault Refusal :=
  s.runCommand (.mzero a) a none (fun s v => tileWordBad (v.val a) true (s.accSize v))
/-- `MSCALE`. -/
def execMscale (a : BitVec 7) (s : State) : Host.Outcome State Fault Refusal :=
  s.runCommand (.mscale a) a none (fun s v => tileWordBad (v.val a) true (s.accSize v))

/-- Bytes that `MREAD` reads: 2, 4 or 8 F32 elements (R290). -/
def mreadBytes (t : BitVec 3) : Nat := if t = 0#3 then 8 else if t.toNat ≤ 3 then 16 else 32

/-- `MREAD`. -/
def execMread (t : BitVec 3) (d a : BitVec 7) (s : State) : Host.Outcome State Fault Refusal :=
  s.runCommand (.mread t d a) a (some d) (fun s v =>
    (v.val a).toNat % mreadBytes t != 0 || decide (s.accSize v < (v.val a).toNat + mreadBytes t))
/-- `MSTAT`. -/
def execMstat (c : BitVec 1) (d : BitVec 7) (s : State) : Host.Outcome State Fault Refusal :=
  s.runCommand (.mstat c d) 127#7 (some d) (fun _ _ => false)

/-! ### Tiles (R280, R137) -/

/-- The header word of a tile. -/
def tileHeader (m : Memory) (off : Nat) : Nat := m.readNat off 8
/-- EXP of a header. -/
def headerExp (h : Nat) : Int := toSigned 8 (bits h 7 0)
/-- Whether the tile of a header is live with M rows. -/
def headerOk (h rows : Nat) : Bool := bit h 18 && bits h 17 8 + 1 == rows
/-- A header word. -/
def headerWord (rows : Nat) (e : Int) : Nat := 2 ^ 18 + (rows - 1) * 256 + ofSigned 8 e

/-- Write the header row: its word, zeros, TIMELESS granules. -/
def putHeader (now : Nat) (m : Memory) (off rows : Nat) (e : Int) : Memory :=
  m.engineWrite now off (toBytes 8 (headerWord rows e) ++ List.replicate 504 0#8) (fun _ => sTimeless)

/-- Offset of element (m, n) of a tile. -/
def elemOff (off m n : Nat) : Nat := off + 512 * (m + 1) + 4 * n

/-- One element rescaled by 2^k (R137): its bits and flags. -/
def rescaleElem (x : Nat) (k : Int) : FRes :=
  match fmtF32.decode x with
  | .fin neg m e =>
    if m = 0 then { v := x, fl := 0#6 }
    else
      let r := fmtF32.round rcRne neg m (e + k) false
      { r with fl := r.fl ||| fWhen (r.v % 2 ^ 31 < 2 ^ 23) fUF }
  | _ => { v := x, fl := 0#6 }

/-- Rescale a tile to an exponent: elements, header, flags; granule stamps stay. -/
def rescaleTile (now : Nat) (m : Memory) (off rows : Nat) (e : Int) : Memory × BitVec 6 :=
  let h := tileHeader m off
  let k := e - headerExp h
  if k = 0 then (m, 0#6)
  else
    let rs := listOf (128 * rows) (fun i => rescaleElem (m.readNat (off + 512 + 4 * i) 4) k)
    (putHeader now (m.putBytes (off + 512) (rs.flatMap (fun r => toBytes 4 r.v))) off rows e, fUnion (rs.map FRes.fl))

/-! ### Products and sums (R134) -/

/-- An exact product as the engine forms it: 0 times infinity and a signalling NaN set NV. -/
def matProduct (a b : FVal) : FVal × BitVec 6 :=
  match FVal.mul a b with
  | none => (.nan false, fNV)
  | some (.nan s) => (.nan false, fWhen s fNV)
  | some x => (x, 0#6)

/-- Add adjacent pairs, each sum rounded to F32 with RNE. -/
def addPairVals : List FVal → List FVal × BitVec 6
  | x :: y :: rest =>
    let s := fmtF32.add rcRne x y
    let (l, fl) := addPairVals rest
    (fmtF32.decode s.v :: l, s.fl ||| fl)
  | l => (l, 0#6)

/-- The pairwise tree over 2^k values. -/
def treeVals : Nat → List FVal → FVal × BitVec 6
  | 0, l => (l.headD (.fin false 0 0), 0#6)
  | k + 1, l =>
    let (l', fl) := addPairVals l
    let (v, fl') := treeVals k l'
    (v, fl ||| fl')

/-- The seven-level tree over 128 products. -/
def dotTree (xs ys : List FVal) : FVal × BitVec 6 :=
  let ps := List.zipWith matProduct xs ys
  let (v, fl) := treeVals 7 (ps.map (fun p => p.1))
  (v, fl ||| fUnion (ps.map (fun p => p.2)))

/-! ### Planes (R277, R282) -/

/-- A weight as a plane keeps it: zeros have one form. -/
def normWeight (x : FVal) : FVal :=
  match x with
  | .fin n m e => if m = 0 then .fin n 0 0 else .fin n m e
  | y => y

/-- W(k, n) of a plane; an unlisted weight is zero. -/
def Plane.at (p : Plane) (k n : Nat) : FVal := AList.get (.fin false 0 0) (128 * k + n) p.w

/-- Column n of a plane. -/
def Plane.column (p : Plane) (n : Nat) : List FVal := listOf 128 (fun k => p.at k n)

/-- What one lane of an `MLOAD` supplies: its lane, its four weight rows, granule stamps and decode flags. -/
structure LaneRows where
  lane : Nat
  rows : List (List FVal)
  stamps : List Stamp
  fl : BitVec 6
  deriving DecidableEq, Repr

/-- Cut bytes into elements of n bytes. -/
def elemsOfBytes (n : Nat) (fuel : Nat) (bs : List Byte) : List Nat :=
  match fuel with
  | 0 => []
  | fuel + 1 => if bs.isEmpty then [] else ofBytes (bs.take n) :: elemsOfBytes n fuel (bs.drop n)

/-- The 16-bit and 8-bit formats by their codes (R283, R286). -/
def matFmt (code : Nat) : Fmt := fmtOf code

/-- Read several runs of bytes for a command of crew cr. -/
def State.cmdReadAll (c cr id : Nat) : List (Nat × Nat) → State → Except EngFail (List (List Byte × List Stamp)) × State
  | [], s => (.ok [], s)
  | r :: rest, s =>
    match State.cmdPieces c cr (.command cr id) (s.earlyRuns (.command cr id) [r]) s with
    | (.error e, s) => (.error e, s)
    | (.ok x, s) =>
      match State.cmdReadAll c cr id rest s with
      | (.ok l, s) => (.ok (x :: l), s)
      | r => r

/-- The rows of one lane from the bytes it read. -/
def laneRows (fw : Word) (lane : Nat) (bs : List (List Byte × List Stamp)) : LaneRows :=
  let stamps := bs.flatMap (fun b => b.2)
  if fwFmt fw = 6 then
    let codes := (bs.getD 0 ([], [])).1
    let scales := (bs.getD 1 ([], [])).1
    let sup := ofBytes (bs.getD 2 ([], [])).1
    let one := fun (i : Nat) =>
      let byte := (codes.getD (i / 2) 0#8).toNat
      qnDecode fmtF32 (if i % 2 = 0 then byte % 16 else byte / 16) ((scales.getD (i / 64) 0#8).toNat) sup
    let rs := listOf 512 one
    { lane := lane, rows := listOf 4 (fun r => ((rs.drop (128 * r)).take 128).map (fun x => normWeight (fmtF32.decode x.v))),
      stamps := stamps, fl := fUnion (rs.map FRes.fl) }
  else
    let f := matFmt (fwFmt fw)
    { lane := lane, rows := bs.map (fun b => (elemsOfBytes (f.w / 8) 128 b.1).map (fun x => normWeight (f.decode x))),
      stamps := stamps, fl := 0#6 }

/-- Read the rows of every joined lane. -/
def State.readLanes (c cr id : Nat) (fw : Word) : List (Nat × CapW) → State → Except EngFail (List LaneRows) × State
  | [], s => (.ok [], s)
  | (l, cap) :: rest, s =>
    match State.cmdReadAll c cr id ((loadRuns fw l).map (fun r => (cap.cursor + r.1, r.2))) s with
    | (.error e, s) => (.error e, s)
    | (.ok bs, s) =>
      match State.readLanes c cr id fw rest s with
      | (.ok rs, s) => (.ok (laneRows fw l bs :: rs), s)
      | r => r

/-- The plane that the rows of the joined lanes make; rows of other lanes are zero (R282). -/
def planeOf (fw : Word) (now : Nat) (rs : List LaneRows) : Plane :=
  let weights := (List.range 128).flatMap (fun k =>
    match rs.find? (fun r => r.lane == k / 4) with
    | none => []
    | some r => (numbered (fun n x => (128 * k + n, x)) (r.rows.getD (k % 4) [])).filter (fun p => p.2 != .fin false 0 0))
  { w := weights, s := clampStamp now (combineList (rs.flatMap (fun r => r.stamps))), fmt := fwFmt fw }

/-! ### Completion -/

/-- Change the operation of an issuing thread. -/
def State.modLop (s : State) (cr tid id : Nat) (f : LOp → LOp) : State :=
  match s.thread cr tid with
  | none => s
  | some t => s.setThread { t with lops := t.lops.map (fun x => if x.id == id then f x else x) }

/-- Complete a command: it leaves the queue, and its operations may complete with what `f` adds to them. -/
def State.finishCommand (s : State) (cr : Nat) (m : MCmd) (f : LOp → LOp) : State :=
  m.issuers.foldl (fun s p => s.modLop cr p.1 p.2 (fun x => f { x with wait := .ready s.cycle }))
    ((s.endEarly (.command cr m.id)).modCrew cr (fun c => { c with mq := c.mq.filter (fun x => x.id != m.id) }))

/-- A fault of a command's task; the command completes (R260). -/
def State.failCommand (s : State) (c : Crew) (m : MCmd) (sub detail : Nat) : State :=
  (s.holdFault c.ctx c.task { code := 0x25, sub := sub, detail := detail }).finishCommand c.uid m id

/-- What a command does when an access of it fails: held by a pager, stopped by a structure fault, or a fault of the task. -/
def State.cmdFailed (s : State) (c : Crew) (m : MCmd) (e : EngFail) : State :=
  match e with
  | .held va kind =>
    (s.modCrew c.uid (fun c => { c with mq := c.mq.map (fun x => if x.id == m.id then { x with held := true } else x) })).engHold
      c.ctx c.task va kind (.command c.uid m.id)
  | .struct node => s.holdFault c.ctx c.task { code := 0x28, sub := 0, detail := node }
  | .violation pa => (s.logCtx c.ctx 4 0 (some c.core) false pa).failCommand c m 1 pa
  | .poison pa => (s.logCtx c.ctx 2 0 (some c.core) false pa).failCommand c m 2 pa
  | .host va => s.failCommand c m 0 va
  | .wait => s

/-- Add flags to a crew's matrix status. -/
def Crew.addMf (c : Crew) (fl : BitVec 6) : Crew := { c with mf := c.mf ||| fl }

/-- The age check of a command's granules: `stale` bits for the given threads, or an escalated fault (R284). -/
def State.cmdFresh (s : State) (c : Crew) (bound : Word) (sel : Nat) (stamps : List Stamp) (addr : Nat)
    (issuers : List (Nat × Nat)) : State :=
  if sel = 0 then s
  else
    match checkStamps bound s.now stamps with
    | none => s
    | some r =>
      if actOf bound = 2 then
        let bitsSet : BitVec 9 := BitVec.ofNat 9 (2 ^ sel + (if r = .vacant then 256 else 0))
        issuers.foldl (fun s p => s.modLop c.uid p.1 p.2 (fun x => { x with sset := x.sset ||| bitsSet })) s
      else s.holdFault c.ctx c.task { code := 0x26, sub := r.sub, detail := addr }

/-! ### The commands at their place in the queue -/

/-- `MLOAD` (R282). -/
def State.doMload (s : State) (c : Crew) (m : MCmd) : State :=
  let fw := (m.words.getD 2 Reg.zero).v
  match State.readLanes c.ctx c.uid m.id fw m.srcs s with
  | (.error e, s) => s.cmdFailed c m e
  | (.ok rs, s) =>
    let sel := bits fw.toNat 6 4
    let s := rs.foldl (fun s r =>
      let bound := ((m.bounds.find? (fun b => b.1 == r.lane)).map (fun b => b.2)).getD 0#64
      let addr := ((m.srcs.find? (fun b => b.1 == r.lane)).map (fun b => b.2.cursor)).getD 0
      s.cmdFresh c bound sel r.stamps addr (m.issuers.filter (fun p => p.1 % 32 == r.lane))) s
    let fl := fUnion (rs.map (fun r => r.fl))
    (s.modCrew c.uid (fun c => { c.addMf fl with shadow := planeOf fw s.now rs })).finishCommand c.uid m id

/-- `MSWAP` (R285). -/
def State.doMswap (s : State) (c : Crew) (m : MCmd) : State :=
  (s.modCrew c.uid (fun c => { c with active := c.shadow, shadow := c.active })).finishCommand c.uid m id

/-- Rows that a step of `MSTREAM` takes. -/
def stepRows (w : Word) (done : Nat) : Nat := min 128 (wordRows w - done)

/-- One activation row: its values and the combine of its granules' stamps (R287). -/
def actRow (scr : Memory) (off : Nat) (w : Word) (m : Nat) : List FVal × Stamp :=
  let f := matFmt (swFmt w)
  let a := off + m * swPitch w
  (listOf 128 (fun k => f.decode (scr.readNat (a + k * swWidth w) (swWidth w))),
    combineList (scr.stampsOf a (128 * swWidth w)))

/-- One element row of a tile after a step: bytes and flags. -/
def streamRow (acc : Memory) (p : Plane) (tile m : Nat) (xs : List FVal) : List (Nat × BitVec 6) :=
  listOf 128 (fun n =>
    let t := dotTree xs (p.column n)
    let r := fmtF32.add rcRne (fmtF32.decode (acc.readNat (elemOff tile m n) 4)) t.1
    (r.v, t.2 ||| r.fl))

/-- A step of `MSTREAM` on the accumulator: rows from `done` on (R287). -/
def streamStep (now : Nat) (acc scr : Memory) (p : Plane) (off : Nat) (w : Word) (done : Nat) : Memory × BitVec 6 :=
  let tile := wordTile w
  let (acc, fl0) := rescaleTile now acc tile (wordRows w) (wordExp w)
  (List.range (stepRows w done)).foldl (fun (q : Memory × BitVec 6) i =>
    let m := done + i
    let (xs, sa) := actRow scr off w m
    let r := streamRow q.1 p tile m xs
    let acc := q.1.putBytes (elemOff tile m 0) (r.flatMap (fun x => toBytes 4 x.1))
    (acc.combineStamps now (elemOff tile m 0) 512 (combine sa p.s), q.2 ||| fUnion (r.map (fun x => x.2)))) (acc, fl0)

/-- The activation rows of a step: offsets in the scratchpad and lengths. -/
def streamRuns (m : MCmd) : List (Nat × Nat) :=
  let w := (m.words.getD 1 Reg.zero).v
  listOf (stepRows w m.done) (fun i => ((m.words.getD 0 Reg.zero).v.toNat + (m.done + i) * swPitch w, 128 * swWidth w))

/-- A crew's scratchpad as a command sees it: the granules that it has read ahead are as they were then. -/
def State.scrSeen (s : State) (c : Crew) (id : Nat) : Memory :=
  (s.early.filter (fun e => e.1 == .command c.uid id && decide (Config.scratchWindow ≤ 32 * e.2.1))).foldl (fun m e =>
    let off := 32 * e.2.1 - Config.scratchWindow
    (m.putBytes off (e.2.2.map (fun b => b.1))).putStamp (off / 32) ((e.2.2.head?.bind (fun b => b.2)).getD sVacant)) c.scr

/-- Whether a step of `MSTREAM` needs a poisoned accumulator granule: those of its rows, and the whole tile when it is rescaled first. -/
def streamPoison (acc : Memory) (w : Word) (done : Nat) : Bool :=
  let tile := wordTile w
  acc.anyPoison tile 32 || acc.anyPoison (elemOff tile done 0) (512 * stepRows w done)
    || (headerExp (tileHeader acc tile) != wordExp w && acc.anyPoison tile (512 * (wordRows w + 1)))

/-- `MSTREAM`: one step (R279, R287). The tile's header is checked once, before the first. -/
def State.doMstream (s : State) (c : Crew) (m : MCmd) (h : Cohort) : State :=
  let off := (m.words.getD 0 Reg.zero).v.toNat
  let w := (m.words.getD 1 Reg.zero).v
  let tile := wordTile w
  let rows := stepRows w m.done
  if m.done = 0 ∧ headerOk (tileHeader h.acc tile) (wordRows w) = false then s.failCommand c m 0 w.toNat
  else
    let runs := streamRuns m
    let scr := s.scrSeen c m.id
    if runs.any (fun r => scr.anyPoison r.1 r.2) || streamPoison h.acc w m.done then
      let (x, s) := s.freeVal
      s.cmdFailed c m (.poison (x % 2 ^ 52))
    else
      let stamps := runs.flatMap (fun r => scr.stampsOf r.1 r.2)
      let bound := ((m.bounds.find? (fun b => b.1 == m.tid % 32)).map (fun b => b.2)).getD 0#64
      let s := s.cmdFresh c bound (bits w.toNat 51 49) stamps off m.issuers
      let (acc, fl) := streamStep s.now h.acc scr c.active off w m.done
      let s := (s.setCohort { h with acc := acc }).modCrew c.uid (fun c => c.addMf fl)
      if m.done + rows = wordRows w then s.finishCommand c.uid m id
      else
        s.modCrew c.uid (fun c => { c with mq := c.mq.map (fun x => if x.id == m.id then { x with done := m.done + rows } else x) })

/-- `MZERO` (R288). -/
def State.doMzero (s : State) (c : Crew) (m : MCmd) (h : Cohort) : State :=
  let w := (m.words.getD 0 Reg.zero).v
  let acc := (putHeader s.now h.acc (wordTile w) (wordRows w) (wordExp w)).engineWrite s.now (wordTile w + 512)
    (List.replicate (512 * wordRows w) 0#8) (fun _ => sVacant)
  (s.setCohort { h with acc := acc }).finishCommand c.uid m id

/-- `MSCALE` (R289). -/
def State.doMscale (s : State) (c : Crew) (m : MCmd) (h : Cohort) : State :=
  let w := (m.words.getD 0 Reg.zero).v
  if !headerOk (tileHeader h.acc (wordTile w)) (wordRows w) then s.failCommand c m 0 w.toNat
  else if h.acc.anyPoison (wordTile w) (512 * (wordRows w + 1)) then
    let (x, s) := s.freeVal
    s.cmdFailed c m (.poison (x % 2 ^ 52))
  else
    let (acc, fl) := rescaleTile s.now h.acc (wordTile w) (wordRows w) (wordExp w)
    ((s.setCohort { h with acc := acc }).modCrew c.uid (fun c => c.addMf fl)).finishCommand c.uid m id

/-- What `MREAD` gives from the bytes it read (R290). -/
def mreadOut (t : BitVec 3) (fpmode : BitVec 4) (phase lane : Nat) (bs : List Byte) : FOut :=
  if t = 0#3 then { w := BitVec.ofNat 64 (ofBytes bs), fl := 0#6 }
  else
    let f := fmtOf t.toNat
    fOut f.w (numbered (fun j x =>
      convert fmtF32 f { mode := rmodeOf fpmode.toNat, ovn := fpmode.getLsbD 3, idx := (lane * f.n + j) % 64 + phase } x)
      (elemsOfBytes 4 8 bs))

/-- `MREAD` (R290). The granule's address, which DETAIL of a data error would name, is a free value: an accumulator has no physical address
(log 27). -/
def State.doMread (s : State) (c : Crew) (m : MCmd) (h : Cohort) (t : BitVec 3) : State :=
  let off := (m.words.getD 0 Reg.zero).v.toNat
  let n := mreadBytes t
  if h.acc.anyPoison off n then
    let (x, s) := s.freeVal
    s.cmdFailed c m (.poison (x % 2 ^ 52))
  else
    let o := mreadOut t m.fpmode m.phase (m.tid % 32) (h.acc.read off n)
    let st := clampStamp s.now (combineList (h.acc.stampsOf off n))
    s.finishCommand c.uid m (fun x =>
      match m.dreg with
      | none => { x with fset := x.fset ||| o.fl }
      | some d => { x with regs := [(d, { v := o.w, s := st })], tags := [(d / 2, false)], fset := x.fset ||| o.fl })

/-- The matrix status word (R291). -/
def Crew.statusWord (c : Crew) : Word := BitVec.ofNat 64 (c.shadow.fmt * 2 ^ 12 + c.active.fmt * 2 ^ 8 + c.mf.toNat)

/-- `MSTAT` (R291). -/
def State.doMstat (s : State) (c : Crew) (m : MCmd) (clr : Bool) : State :=
  let w := c.statusWord
  (s.modCrew c.uid (fun c => if clr then { c with mf := 0#6 } else c)).finishCommand c.uid m (fun x =>
    match m.dreg with
    | none => x
    | some d => { x with regs := [(d, { v := w, s := sTimeless })], tags := [(d / 2, false)] })

/-- One step of a matrix-engine command. -/
def State.doCommand (s : State) (c : Crew) (m : MCmd) : State :=
  match s.cohort c.cohort with
  | none => s
  | some h =>
    match m.instr with
    | .mload _ => s.doMload c m
    | .mswap => s.doMswap c m
    | .mstream _ => s.doMstream c m h
    | .mzero _ => s.doMzero c m h
    | .mscale _ => s.doMscale c m h
    | .mread t _ _ => s.doMread c m h t
    | .mstat k _ => s.doMstat c m (k == 1#1)
    | _ => s

/-! ### Round robin (R279) -/

/-- Whether a command is the update unit's. -/
def MCmd.isUpdate (m : MCmd) : Bool :=
  match m.instr with
  | .mnorm _ => true
  | .mdrain _ _ => true
  | _ => false

/-- The place of a crew in the order of service: ascending core, then ascending crew slot. -/
def Crew.place (c : Crew) : Nat := 32 * c.core + c.slot

/-- The crews of a cluster whose queue begins with a command that a unit can start, with that command. -/
def State.served (s : State) (cluster : Nat) (update : Bool) : List (Crew × MCmd) :=
  s.crews.filterMap (fun c =>
    match c.mq with
    | [] => none
    | m :: _ =>
      let runs := ((s.ctx c.ctx).map (fun x => x.unitRuns (if update then .update cluster else .matrix cluster))).getD false
      let saved := ((s.cohort c.cohort).map (fun h => h.saved)).getD false
      if clusterOf c.core == cluster && m.isUpdate == update && decide (m.born < s.cycle) && runs && !saved && !m.held then some (c, m) else none)

/-- The next crew from a place on, round robin. -/
def nextServed (from_ : Nat) (l : List (Crew × MCmd)) : Option (Crew × MCmd) :=
  let sorted := sortBy (fun x y => decide (x.1.place ≤ y.1.place)) l
  (sorted.find? (fun x => decide (from_ ≤ x.1.place))).or sorted.head?

/-- `MATRIX_STEP`: the engine of a cluster takes one step of the next crew's command. -/
def execMatrixStep (cluster : Nat) (s : State) : Host.Outcome State Fault Refusal :=
  match nextServed (AList.get 0 cluster s.matNext) (s.served cluster false) with
  | none => .next s
  | some (c, m) => .next ({ s with matNext := AList.put 0 cluster (c.place + 1) s.matNext }.doCommand c m)

end Sys2Proof.Machine
end

