-- ==== Sys2Proof/Machine/TaskOps.lean ====
section
/-!
DEFINITION. The task layer's own operations (spec/03_task_stream.md R72 to R81, R88): regions and their overlap, size classes,
fresh versions and the free lists, cells, the window's reads of operand memory, undo versions.
-/

namespace Sys2Proof.Machine

/-! ### Size classes and free lists (R78, R81, R347) -/

/-- The smallest size class whose block holds n bytes: 4 KiB times 2^c. -/
def sizeClass (n : Nat) : Nat := ((List.range 26).find? (fun c => decide (n ≤ 4096 * 2 ^ c))).getD 25
/-- Bytes of a block of a class. -/
def classBytes (c : Nat) : Nat := 4096 * 2 ^ c

/-- Remove element i of a list. -/
def dropAt {α : Type} (i : Nat) (l : List α) : List α := l.take i ++ l.drop (i + 1)

/-- Draw a block of a class from a context's free list; which one is a free choice (R78, log 8). -/
def State.drawBlock (s : State) (c cls : Nat) : Option Ver × State :=
  match s.ctx c with
  | none => (none, s)
  | some x =>
    match x.free.filter (fun v => v.cls == cls) with
    | [] => (none, s)
    | v0 :: vs =>
      let (k, s) := s.choose (vs.length + 1)
      let v := (v0 :: vs).getD k v0
      (some v, s.modCtx c (fun x => { x with free := (takeFirst (· == v) x.free).elim x.free (fun r => r.2) }))

/-- Give blocks back to their free lists (R349). -/
def State.freeBlocks (s : State) (c : Nat) (l : List Ver) : State :=
  let n := (l.filter (fun v => v.lobj)).length
  let s := if n = 0 then s
    else { s with objUsed := (List.range Config.dies).foldl (fun u d => AList.put 0 d (AList.get 0 d u - n) u) s.objUsed }
  s.modCtx c (fun x => { x with
    free := x.free ++ l.map (fun v => { v with lobj := false })
    unvacated := x.unvacated.filter (fun u => !l.any (fun v => decide (v.va ≤ u.1) && decide (u.1 < v.va + classBytes v.cls)))
    kept := x.kept.filter (fun k => !l.contains k.1) })

/-- Whether every die has a free object-table entry (R81, R233). -/
def State.objFree (s : State) : Bool :=
  (List.range Config.dies).all (fun d => decide (AList.get 0 d s.objUsed < Config.objEntries))

/-- Use an object-table entry of every die. -/
def State.objTake (s : State) : State :=
  { s with objUsed := (List.range Config.dies).foldl (fun u d => AList.put 0 d (AList.get 0 d u + 1) u) s.objUsed }

/-- The bytes of a run of device memory become zero, and its tag bits clear. -/
def Memory.clear (m : Memory) (pa n : Nat) : Memory :=
  { m with
    bytes := m.bytes.filter (fun p => p.1 < pa || pa + n ≤ p.1)
    tags := m.tags.filter (fun p => p.1 < pa / 16 || (pa + n) / 16 ≤ p.1) }

/-- Make a fresh version VACANT, page by page; its bytes are zero or what they were, by a free choice (R78, log 8). A page that
does not translate now becomes VACANT when it is first reached. -/
def State.vacateBlock (c va n : Nat) (zero : Bool) : Nat → State → State
  | 0, s => s
  | k + 1, s =>
    let size := min n 65536
    let a := va + 65536 * k
    match s.translate c .load a size with
    | (.page pa false, s) =>
      let m := s.mem.vacate pa size
      State.vacateBlock c va n zero k { s with mem := if zero then m.clear pa size else m }
    | (.page _ true, s) => State.vacateBlock c va n zero k s
    | (_, s) => State.vacateBlock c va n zero k (s.modCtx c (fun x => { x with unvacated := x.unvacated ++ [(a, size)] }))

/-- Draw a fresh version for a buffer of n bytes (R78, R81); none when the free list is empty, or an object table is full for
a lease object. -/
def State.freshVersion (s : State) (c n : Nat) (lobj : Bool) : Option Ver × State :=
  let cls := sizeClass n
  if lobj ∧ s.objFree = false then (none, s)
  else
    match s.drawBlock c cls with
    | (none, s) => (none, s)
    | (some v, s) =>
      let s := if lobj then s.objTake else s
      let (z, s) := s.choose 2
      (some { v with lobj := lobj },
        State.vacateBlock c v.va (classBytes cls) (z == 0) ((classBytes cls + 65535) / 65536) s)

/-! ### The pool ring (R348, R349) -/

/-- The address of pool entry n. -/
def Ctx.poolAddr (x : Ctx) : Nat := x.stream + 0x100 + 32 * 2 ^ x.logs + 16 * (x.poolIdx % 2 ^ x.logs)

/-- The block that word 1 of a pool entry gives; none when it is malformed. -/
def poolBlock (w : Nat) : Option Ver :=
  let cls := bits w 4 0
  let va := bits w 55 12 * 4096
  if bits w 63 56 ≠ 0 ∨ bits w 11 5 ≠ 0 ∨ 25 < cls then none
  else if va % classBytes cls ≠ 0 ∨ Config.scratchWindow < va + classBytes cls then none
  else some { va := va, cls := cls, lobj := false }

/-- Blocks of a class that a context owns. -/
def Ctx.ownedOf (x : Ctx) (cls : Nat) : Nat := AList.get 0 cls x.owned

/-- Whether the next entry of a context's pool ring is valid and can be taken. DEDUCED (log 23): while it can, an empty free list
stalls and raises no buffer exhaustion, since the device takes valid entries by itself. -/
def State.poolWaits (s : State) (x : Ctx) : Bool :=
  match (s.engRead x.num x.poolAddr 16).1 with
  | .error _ => false
  | .ok (bs, _) =>
    ofBytes (bs.take 8) == (x.poolIdx + 1) % 2 ^ 64
      && (match poolBlock (ofBytes (bs.drop 8)) with
        | some v => decide (x.ownedOf v.cls < 2 ^ 20)
        | none => true)

/-! ### Regions (R74, R75, R79) -/

/-- A region entry as written, before its buffer is looked up. -/
structure RawRegion where
  kind : Nat
  lb : Nat
  d2 : Bool
  off : Nat
  rows : Nat
  rowb : Nat
  pitch : Nat
  deriving DecidableEq, Repr

/-- A region entry from its two words; none when an MBZ field is set, LENGTH is 0 or PITCH is below the row bytes. -/
def decodeRegion (w0 w1 : Nat) : Option RawRegion :=
  let d2 := bit w0 49
  if bits w0 48 38 ≠ 0 then none
  else if d2 then
    let rowb := bits w1 47 28 + 1
    let pitch := bits w1 27 0
    if pitch < rowb then none
    else some { kind := bits w0 63 62, lb := bits w0 61 50, d2 := true, off := bits w0 37 0, rows := bits w1 63 48 + 1,
                rowb := rowb, pitch := pitch }
  else if bits w1 63 38 ≠ 0 ∨ bits w1 37 0 = 0 then none
  else some { kind := bits w0 63 62, lb := bits w0 61 50, d2 := false, off := bits w0 37 0, rows := 1, rowb := bits w1 37 0,
              pitch := bits w1 37 0 }

/-- The extent's length. -/
def RawRegion.extent (r : RawRegion) : Nat := (r.rows - 1) * r.pitch + r.rowb
/-- Whether a region replaces the whole of a buffer of n bytes: a whole-buffer OUT region (R78). -/
def RawRegion.wholeOut (r : RawRegion) (n : Nat) : Bool := r.kind == 1 && !r.d2 && r.off == 0 && r.rowb == n

/-- A raw region with its buffer's size and version. -/
def RawRegion.at (r : RawRegion) (size : Nat) (v : Ver) : Region :=
  { kind := r.kind, lb := r.lb, d2 := r.d2, off := r.off, rows := r.rows, rowb := r.rowb, pitch := r.pitch, size := size, ver := v }

/-- Whether a region is a whole-buffer OUT. -/
def Region.whole (r : Region) : Bool := r.kind == 1 && !r.d2 && r.off == 0 && r.rowb == r.size
/-- Whether a region writes in place: UPD, or OUT that is not of the whole buffer (R78). -/
def Region.inPlace (r : Region) : Bool := r.kind == 2 || (r.kind == 1 && !r.whole)
/-- Declared bytes of a region. -/
def Region.bytes (r : Region) : Nat := r.rows * r.rowb

/-- Whether some row of a region meets the bytes [lo, lo + n) of its buffer. -/
def Region.meets (r : Region) (lo n : Nat) : Bool :=
  if r.rows ≤ 1 then decide (lo < r.off + r.rowb) && decide (r.off < lo + n)
  else
    let first := if lo + 1 ≤ r.off + r.rowb then 0 else (lo - r.off - r.rowb) / r.pitch + 1
    decide (first < r.rows) && decide (r.off + first * r.pitch < lo + n) && decide (lo < r.off + first * r.pitch + r.rowb)

/-- Whether two regions of one buffer share a declared byte, exactly. -/
def Region.shares (x y : Region) : Bool :=
  x.lb == y.lb && (List.range x.rows).any (fun i => y.meets (x.off + i * x.pitch) x.rowb)

/-- The extent of a region as a one-dimensional one. -/
def Region.flat (r : Region) : Region := { r with d2 := false, rows := 1, rowb := r.extent, pitch := r.extent }

/-- Whether the window's detector finds that two regions overlap (R79): exactly for two one-dimensional regions or two with
equal PITCH, otherwise with whole extents. -/
def Region.overlaps (x y : Region) : Bool :=
  if x.d2 == y.d2 && (!x.d2 || x.pitch == y.pitch) then x.shares y else x.flat.shares y.flat

/-- The dependence of X's region on Y's, by the table of R79. -/
def Region.dependsOn (x y : Region) : Bool :=
  x.overlaps y &&
    (match x.kind with
      | 0 => y.kind == 1 || y.kind == 2
      | 3 => false
      | _ => if x.whole then false else y.kind != 3)

/-- A run of rows of bytes at a virtual address. -/
structure Rows where
  va : Nat
  rows : Nat
  rowb : Nat
  pitch : Nat
  deriving DecidableEq, Repr

/-- The rows of a region's declared bytes. -/
def Region.toRows (r : Region) : Rows := { va := r.ver.va + r.off, rows := r.rows, rowb := r.rowb, pitch := r.pitch }

/-- One row of n bytes. -/
def Rows.line (va n : Nat) : Rows := { va := va, rows := 1, rowb := n, pitch := n }

/-- Bytes of all rows. -/
def Rows.total (r : Rows) : Nat := r.rows * r.rowb

/-- The runs of virtual addresses that hold n bytes from byte k on, rows taken in order. -/
def Rows.cut (r : Rows) : Nat → Nat → Nat → List (Nat × Nat)
  | 0, _, _ => []
  | fuel + 1, k, n =>
    if n = 0 ∨ r.rowb = 0 then []
    else
      let x := k % r.rowb
      let m := min n (r.rowb - x)
      (r.va + k / r.rowb * r.pitch + x, m) :: r.cut fuel (k + m) (n - m)

/-! ### The window's reads (R67, R73, R365, R366, R44, R344) -/

/-- The fault of a task whose operand read does not reach its bytes. -/
def engFault (va : Nat) : EngFail → TFault
  | .held va _ => { code := 0x22, sub := 0, detail := va }
  | .struct node => { code := 0x28, sub := 0, detail := node }
  | .violation pa => { code := 0x24, sub := 5, detail := pa }
  | .poison pa => { code := 0x24, sub := 2, detail := pa }
  | .host _ => { code := 0x22, sub := 0, detail := va }
  | .wait => { code := 0x22, sub := 0, detail := va }

/-- What a read of the window gives: bytes, the task's fault, or nothing yet (a line that the host may hold). -/
inductive WinRead where
  | ok (bs : List Byte)
  | fault (f : TFault)
  | wait
  deriving DecidableEq, Repr

/-- A violation or data error that a unit without a core meets writes its record (R345). -/
def State.logFail (s : State) (c : Nat) (e : EngFail) : State :=
  match e with
  | .violation pa => s.logCtx c 4 0 none false pa
  | .poison pa => s.logCtx c 2 0 none false pa
  | _ => s

/-- A read of n bytes by the window of a context. -/
def State.winRead (s : State) (c va n : Nat) : WinRead × State :=
  match s.engRead c va n with
  | (.ok r, s) => (.ok r.1, s)
  | (.error .wait, s) => (.wait, s)
  | (.error e, s) => (.fault (engFault va e), s.logFail c e)

/-- Words of 8 bytes. -/
def wordsOf (bs : List Byte) : List Word := (elemsOfBytes 8 (bs.length / 8 + 1) bs).map (BitVec.ofNat 64)

/-! ### Cells (R72, R73) -/

/-- A buffer definition in a map. -/
def lbufOf (m : List LBuf) (n : Nat) : Option LBuf := m.find? (fun b => b.n == n)

/-- What a cell reference names: a byte of a buffer, or an address; none when R72 does not allow it. -/
inductive CellRef where
  | buf (lb off : Nat)
  | addr (va : Nat)
  deriving DecidableEq, Repr

/-- Decode a cell reference; its own fields alone. -/
def decodeCell (w : Word) : Option CellRef :=
  let x := w.toNat
  if bit x 63 then
    if bits x 62 56 ≠ 0 ∨ x % 8 ≠ 0 then none else some (.addr (bits x 55 0))
  else if bits x 50 38 ≠ 0 ∨ x % 8 ≠ 0 then none
  else some (.buf (bits x 62 51) (bits x 37 0))

/-- The address of n bytes at a cell in a map, none for an undefined buffer or one that is too small. -/
def cellVa (m : List LBuf) (n : Nat) : CellRef → Option Nat
  | .addr va => some va
  | .buf lb off =>
    match lbufOf m lb with
    | none => none
    | some b => if b.size < off + n then none else some (b.ver.va + off)

/-- The cell that a staged write of a task names, with its length: `TSIG` 8 bytes, `TMARK` 16. -/
def Task.cellWritten (t : Task) : Option (CellRef × Nat) :=
  if t.skipped then none
  else
    match t.op with
    | 0x0C => (decodeCell t.slot.b).map (fun c => (c, 8))
    | 0x0D => (decodeCell t.slot.b).map (fun c => (c, 16))
    | _ => none

/-- Whether a task writes a cell, as R73 counts it. -/
def Task.writesCell (t : Task) (c : CellRef) : Bool :=
  let named :=
    match t.cellWritten, c with
    | some (.buf lb off, n), .buf lb' off' => lb == lb' && decide (off ≤ off') && decide (off' < off + n)
    | some (.addr va, n), .addr va' => decide (va ≤ va') && decide (va' < va + n)
    | _, _ => false
  let held :=
    match c with
    | .buf lb off => t.regions.any (fun r => r.lb == lb && (r.kind == 1 || r.kind == 2) && r.meets off 8)
    | .addr _ => false
  named || held

/-! ### Positions (R64, R98) -/

/-- The address of the slot at a position. -/
def Ctx.slotAddr (x : Ctx) (p : Pos) : Nat :=
  match p.frames with
  | a :: _ => a
  | [] => x.stream + 0x100 + 32 * (p.ring % 2 ^ x.logs)

/-- The position after the slot at a position. -/
def Pos.next (p : Pos) : Pos :=
  match p.frames with
  | a :: rest => { p with frames := (a + 32) :: rest }
  | [] => { p with ring := p.ring + 1 }

/-- The position of another slot of the same procedure. -/
def Pos.goto (p : Pos) (a : Nat) : Pos :=
  match p.frames with
  | _ :: rest => { p with frames := (a % 2 ^ 56) :: rest }
  | [] => p

/-! ### Undo versions (R88, R87) -/

/-- Where a region's undo version begins in its buffer: at the first granule of the region. DEDUCED (log 23): the undo version
holds the region's extent from there on, and its size class is the smallest that does. -/
def Region.undoBase (r : Region) : Nat := alignDown r.off 32
/-- The size class of a region's undo version. -/
def Region.undoClass (r : Region) : Nat := sizeClass (r.off + r.extent - r.undoBase)

/-- The rows of a region widened to whole granules. -/
def Region.granuleRows (r : Region) : List (Nat × Nat) :=
  listOf r.rows (fun i =>
    let lo := r.off + i * r.pitch
    (alignDown lo 32, alignUp (lo + r.rowb) 32 - alignDown lo 32))

/-- Copy runs of granules (offset, length) of a buffer at src to a block that holds the buffer from offset `base` on, with their
stamps. -/
def State.copyRuns (c src dst base : Nat) : List (Nat × Nat) → State → Except EngFail Unit × State
  | [], s => (.ok (), s)
  | (off, n) :: rest, s =>
    match s.undoRead c (src + off) n with
    | (.error e, s) => (.error e, s)
    | (.ok (bs, at'), s) =>
      match s.engWrite c (dst + off - base) bs (fun _ => sVacant) with
      | (.error e, s) => (.error e, s)
      | (.ok _, s) => State.copyRuns c src dst base rest (State.putAttrs c (dst + off - base) at' s)

/-- Restore a region from its undo version. -/
def State.restoreRegion (s : State) (c : Nat) (r : Region) (u : Ver) : State :=
  (List.range r.rows).foldl (fun s i => s.owe c (.restore u.va r.undoBase r.ver.va (r.off + i * r.pitch) r.rowb)) s

end Sys2Proof.Machine
end

