-- ==== Sys2Proof/Machine/Engines.lean ====
section
/-!
DEFINITION. Engine threads (spec/09_async_and_egress.md R253 to R262, R266; R94 to R97 of spec/03_task_stream.md): the shape of
a transfer, its packets, what one packet does, counters, staging, completion.
-/

namespace Sys2Proof.Machine

/-! ### Shapes (R253) -/

/-- MODE of a shape word. -/
def shMode (w : Nat) : Nat := bits w 63 62
/-- LENGTH of a linear shape. -/
def shLength (w : Nat) : Nat := bits w 37 0
/-- Rows of the source. -/
def shRows (w : Nat) : Nat := bits w 61 50 + 1
/-- Row bytes of a two-dimensional shape. -/
def shRowb (w : Nat) : Nat := bits w 49 36 + 1
/-- Source columns of a transposing shape. -/
def shCols (w : Nat) : Nat := bits w 49 38 + 1
/-- Element width of a transposing shape. -/
def shWidth (w : Nat) : Nat := 2 ^ bits w 37 36
/-- Source pitch in bytes. -/
def shSpitch (w : Nat) : Nat := bits w 35 18 * 32
/-- Destination pitch in bytes. -/
def shDpitch (w : Nat) : Nat := bits w 17 0 * 32

/-- The destination rows of a shape. -/
def shapeDst (w va : Nat) : Rows :=
  match shMode w with
  | 0 => Rows.line va (shLength w)
  | 1 => { va := va, rows := shRows w, rowb := shRowb w, pitch := shDpitch w }
  | _ => { va := va, rows := shCols w, rowb := shRows w * shWidth w, pitch := shDpitch w }

/-- The source rows of a shape. -/
def shapeSrc (w va : Nat) : Rows :=
  match shMode w with
  | 0 => Rows.line va (shLength w)
  | 1 => { va := va, rows := shRows w, rowb := shRowb w, pitch := shSpitch w }
  | _ => { va := va, rows := shRows w, rowb := shCols w * shWidth w, pitch := shSpitch w }

/-! ### Packets (R258) -/

/-- The 4 KiB blocks that row i touches. -/
def Rows.blocks (r : Rows) (i : Nat) : Nat :=
  let a := r.va + i * r.pitch
  (a + r.rowb - 1) / 4096 - a / 4096 + 1

/-- Packets of a transfer to these rows. -/
def Rows.packets (r : Rows) : Nat := (List.range r.rows).foldl (fun n i => n + r.blocks i) 0

/-- A packet: row, first byte of the row, bytes. -/
structure Piece where
  row : Nat
  x : Nat
  n : Nat
  deriving DecidableEq, Repr

/-- Packet p of the rows from row i on. -/
def Rows.pieceFrom (r : Rows) : Nat → Nat → Nat → Option Piece
  | 0, _, _ => none
  | fuel + 1, i, p =>
    let b := r.blocks i
    if p < b then
      let a := r.va + i * r.pitch
      let lo := if p = 0 then a else (a / 4096 + p) * 4096
      let hi := min (a + r.rowb) ((a / 4096 + p + 1) * 4096)
      some { row := i, x := lo - a, n := hi - lo }
    else r.pieceFrom fuel (i + 1) (p - b)

/-- Packet p. -/
def Rows.piece (r : Rows) (p : Nat) : Option Piece := r.pieceFrom r.rows 0 p

/-- The first address of a packet. -/
def Rows.pieceVa (r : Rows) (q : Piece) : Nat := r.va + q.row * r.pitch + q.x

/-! ### What an engine thread transfers -/

/-- Where the bytes of a transfer come from. -/
inductive ESrc where
  /-- Rows of memory; `arrival` gives host bytes the tick of their arrival (R46). -/
  | rows (r : Rows) (arrival : Bool)
  /-- Elements of w bytes, transposed. -/
  | trans (va pitch w : Nat)
  /-- A pattern of k bytes by address, with its stamp. -/
  | fill (pattern k : Nat) (s : Stamp)
  /-- Bytes already taken from an ingress port; those without a stamp take their arrival tick when they are written (R46). -/
  | taken (l : List (Byte × Option Stamp))
  | none
  deriving DecidableEq, Repr

/-- Where they go: memory, memory whose stamps alone change (`TSTAMP`), a staged effect, a peer. -/
inductive EDst where
  | memory
  | stamps
  | staged
  | peer
  deriving DecidableEq, Repr

/-- A transfer: the rows that divide it into packets, its source and its destination. -/
structure Plan where
  rows : Rows
  src : ESrc
  dst : EDst
  deriving DecidableEq, Repr

/-- SRCK of a `TCOPY`. -/
def Task.srck (t : Task) : Nat := bits t.slot.a.toNat 31 28
/-- DSTK of a `TCOPY`. -/
def Task.dstk (t : Task) : Nat := bits t.slot.a.toNat 27 24
/-- PORT of a `TCOPY`. -/
def Task.cport (t : Task) : Nat := bits t.slot.a.toNat 5 0
/-- A word of a task's operand memory. -/
def Task.word (t : Task) (i : Nat) : Nat := (t.words.getD i 0#64).toNat

/-- Bytes n from k on of what a copy has taken are stamped, once (R94). -/
def stampTaken (st : Stamp) : Nat → Nat → List (List (Byte × Option Stamp)) → List (List (Byte × Option Stamp))
  | _, _, [] => []
  | k, n, p :: ps =>
    numbered (fun i b => if k ≤ i ∧ i < k + n then (b.1, b.2.or (some st)) else b) p
      :: stampTaken st (k - p.length) (k + n - p.length - (k - p.length)) ps
/-- The rows that a `TCOPY` reads. -/
def Task.copySrc (t : Task) : ESrc :=
  match t.srck with
  | 0 => match t.regions.head? with
    | some r => .rows r.toRows false
    | none => .none
  | 1 => .rows (Rows.line (t.word 0) (t.word 1)) true
  | _ => .taken t.taken.flatten

/-- Bytes that a `TCOPY` moves: the declared size of its buffer or host side; one record between ports. -/
def Task.copyBytes (t : Task) : Nat :=
  match t.dstk, t.srck with
  | 0, _ => (t.regions.getLast?.map Region.bytes).getD 0
  | 1, _ => t.word 3
  | _, 0 => (t.regions.head?.map Region.bytes).getD 0
  | _, 1 => t.word 1
  | _, _ => t.taken.flatten.length

/-- Bytes that a copy from a port still wants: all of its destination, or one record. -/
def Task.wants (t : Task) : Nat := if t.dstk = 2 then (if t.taken.isEmpty then 1 else 0) else t.copyBytes - t.taken.flatten.length

/-- The transfer of a task. -/
def Task.plan (t : Task) : Plan :=
  match t.op with
  | 0x04 =>
    match t.dstk with
    | 0 => { rows := (t.regions.getLast?.map Region.toRows).getD (Rows.line 0 0), src := t.copySrc, dst := .memory }
    | 1 => { rows := Rows.line (t.word 2) (t.word 3), src := t.copySrc, dst := .staged }
    | _ => { rows := Rows.line 0 t.copyBytes, src := t.copySrc, dst := .staged }
  | 0x05 => { rows := (t.regions.head?.map Region.toRows).getD (Rows.line 0 0), src := .fill t.slot.a.toNat 4 sTimeless, dst := .memory }
  | _ => { rows := (t.regions.head?.map Region.toRows).getD (Rows.line 0 0), src := .none, dst := .stamps }

/-- The i-th word of an engine thread's group. -/
def Engine.word (e : Engine) (i : Nat) : Nat := ((e.words.getD i Reg.zero).v).toNat
/-- A capability of the group. -/
def Engine.cap (e : Engine) (i : Nat) : CapW := { lo := (e.words.getD i Reg.zero).v, hi := (e.words.getD (i + 1) Reg.zero).v }

/-- The transfer of an engine thread. -/
def State.planOf (s : State) (e : Engine) : Plan :=
  let sh := e.word 4
  match e.kind with
  | .bcopy =>
    { rows := shapeDst sh (e.cap 0).cursor, dst := .memory
      src := if shMode sh = 2 then .trans (e.cap 2).cursor (shSpitch sh) (shWidth sh) else .rows (shapeSrc sh (e.cap 2).cursor) false }
  | .bfill =>
    { rows := shapeDst sh (e.cap 0).cursor, src := .fill (e.word 2) 8 (e.words.getD 2 Reg.zero).s, dst := .memory }
  | .bput => { rows := shapeDst sh (e.cap 0).cursor, src := .rows (shapeSrc sh (e.cap 2).cursor) false, dst := .peer }
  | .bget => { rows := shapeDst sh (e.cap 0).cursor, src := .rows (shapeSrc sh (e.cap 2).cursor) false, dst := .peer }
  | .batom _ => { rows := Rows.line (e.cap 0).cursor 1, src := .none, dst := .peer }
  | .send _ =>
    { rows := Rows.line (e.cap 1).cursor (bits (e.word 0) 24 0), dst := .staged
      src := .rows (Rows.line (e.cap 1).cursor (bits (e.word 0) 24 0)) false }
  | _ => match s.task e.ctx e.task with
    | some t => t.plan
    | none => { rows := Rows.line 0 0, src := .none, dst := .memory }

/-! ### Reading and writing for an engine thread (R261) -/

/-- The scratchpad of an engine thread's crew. -/
def State.crewScr (s : State) (cr : Option Nat) : Memory :=
  match cr.bind s.crew with
  | some c => c.scr
  | none => Memory.empty

/-- Bytes of a store, each with the stamp of its granule. -/
def Memory.readStamped (m : Memory) (a n : Nat) : List (Byte × Stamp) :=
  numbered (fun i b => (b, m.stamp ((a + i) / 32))) (m.read a n)

/-- Read a run of virtual addresses, every byte with the stamp of its granule; host bytes have none when `arrival`, since they take the
arrival tick when they are written. -/
def State.readRun (s : State) (c : Nat) (cr : Option Nat) (arrival : Bool) (va n : Nat) :
    Except EngFail (List (Byte × Option Stamp)) × State :=
  if Config.scratchWindow ≤ va ∧ cr.isSome then
    let m := s.crewScr cr
    let off := va - Config.scratchWindow
    if m.anyPoison off n then
      let (x, s) := s.freeVal
      (.error (.poison (x % 2 ^ 52)), s)
    else (.ok (knownStamps (m.readStamped off n)), s)
  else
    match s.engMap c .load va n with
    | (.error e, s) => (.error e, s)
    | (.ok l, s) =>
      match s.segPoison l with
      | some pa => (.error (.poison pa), s)
      | none =>
        (.ok (l.flatMap (fun g =>
          let bs := (s.store g.host).readStamped g.pa g.n
          if g.host && arrival then bs.map (fun b => (b.1, none)) else knownStamps bs)), s)

/-- The stamp of each granule that bytes at va touch: the combine over its bytes (R261). -/
def granuleStamps : Nat → Nat → List (Byte × Stamp) → List Stamp
  | 0, _, _ => []
  | fuel + 1, va, l =>
    if l.isEmpty then []
    else
      let k := 32 - va % 32
      combineList ((l.take k).map (fun b => b.2)) :: granuleStamps fuel (va + k) (l.drop k)

/-- Write bytes at va with their stamps: memory, or the crew's scratchpad. -/
def State.engPut (s : State) (c : Nat) (cr : Option Nat) (va : Nat) (l : List (Byte × Stamp)) : Except EngFail Unit × State :=
  let st := granuleStamps (l.length / 32 + 2) va l
  let bs := l.map (fun b => b.1)
  if Config.scratchWindow ≤ va ∧ cr.isSome then
    let off := va - Config.scratchWindow
    (.ok (), s.modCrew (cr.getD 0) (fun x =>
      { x with scr := x.scr.engineWrite s.now off bs (fun g => st.getD (g - off / 32) sVacant) }))
  else s.engWrite c va bs (fun i => st.getD i sVacant)

/-- The place of a piece's first byte in the order of the transfer's bytes. -/
def Plan.byteIndex (pl : Plan) (q : Piece) : Nat := q.row * pl.rows.rowb + q.x

/-- The runs of memory that hold the source of a piece. -/
def Plan.srcRuns (pl : Plan) (q : Piece) : List (Nat × Nat) :=
  match pl.src with
  | .rows r _ => r.cut (q.n + 1) (pl.byteIndex q) q.n
  | .trans va pitch w => listOf q.n (fun i => (va + (q.x + i) / w * pitch + q.row * w + (q.x + i) % w, 1))
  | _ => []

/-- Whether the source's host bytes take an arrival tick. -/
def Plan.arrives (pl : Plan) : Bool :=
  match pl.src with
  | .rows _ arrival => arrival
  | _ => false

/-- The source bytes of a piece of packet p. -/
def State.pieceBytes (s : State) (e : Engine) (p : Nat) (pl : Plan) (q : Piece) : Except EngFail (List (Byte × Stamp)) × State :=
  match pl.src with
  | .fill v n st =>
    let a := pl.rows.pieceVa q
    (.ok (listOf q.n (fun i => (BitVec.ofNat 8 (v / 256 ^ ((a + i) % n)), st))), s)
  | .taken l => (.ok (arriveAt s.now ((l.drop (pl.byteIndex q)).take q.n)), s)
  | .none => (.ok [], s)
  | _ =>
    let j : Joiner := .packet e.uid p
    match State.readRuns (fun s => s.readRun e.ctx e.crew pl.arrives) j (s.earlyRuns j (pl.srcRuns q)) s with
    | (.error f, s) => (.error f, s)
    | (.ok l, s) => (.ok (arriveAt s.now l), s)

/-- The first source address of a packet. -/
def Plan.srcVa (pl : Plan) (q : Piece) : Nat :=
  let k := pl.byteIndex q
  match pl.src with
  | .rows r _ => r.va + k / r.rowb * r.pitch + k % r.rowb
  | _ => pl.rows.pieceVa q

/-- Set the granules that a packet touches to VACANT (R97). -/
def State.vacatePiece (s : State) (c va n : Nat) : Except EngFail Unit × State :=
  match s.engMap c .store va n with
  | (.error e, s) => (.error e, s)
  | (.ok l, s) =>
    (.ok (), l.foldl (fun s g => s.modStore g.host (fun m => (granules g.pa g.n).foldl (fun m k => (m.putStamp k sVacant).noteWrite k) m)) s)

/-- Whether rows hold a byte. -/
def Rows.has (r : Rows) (a : Nat) : Bool :=
  decide (r.va ≤ a)
    && (if r.rows ≤ 1 then decide (a - r.va < r.rowb)
      else decide ((a - r.va) / r.pitch < r.rows) && decide ((a - r.va) % r.pitch < r.rowb))

/-- Granules of mapped runs that begin at va become TIMELESS where f holds of their virtual number. -/
def State.timelessAt (f : Nat → Bool) : Nat → List Seg → State → State
  | _, [], s => s
  | va, g :: rest, s =>
    State.timelessAt f (va + g.n) rest (if g.host then s
      else { s with mem := (granules g.pa g.n).foldl (fun m k => if f (va / 32 + (k - g.pa / 32)) then m.putStamp k sTimeless else m) s.mem })

/-- Write bytes of a `TFILL`: a granule whose 32 bytes all lie in the region becomes TIMELESS, however many rows hold them (R96). -/
def State.fillPut (s : State) (c va : Nat) (r : Rows) (bs : List Byte) : Except EngFail Unit × State :=
  match s.engMap c .store va bs.length with
  | (.error e, s) => (.error e, s)
  | (.ok l, s) =>
    (.ok (), State.timelessAt (fun g => (List.range 32).all (fun i => r.has (32 * g + i))) va l (State.segWrite l bs (fun _ => sTimeless) s))

/-! ### Counters (R254, R258, R266) -/

/-- Add to an arrival counter; its granule's stamp stays as it was. -/
def State.counterAdd (s : State) (cr off n : Nat) : State :=
  s.modCrew cr (fun c => { c with
    scr := ((c.scr.putBytes off (toBytes 8 ((c.scr.readNat off 8 + n) % 2 ^ 64))).clearTags off 8).noteWrites off 8 })

/-- The local counter of an engine thread: its offset, when it has one. -/
def Engine.counter (e : Engine) : Option Nat :=
  match e.kind with
  | .send _ => if bit (e.word 0) 50 then some (bits (e.word 0) 49 32) else none
  | .tcopy => none
  | .tfill => none
  | .tstamp => none
  | _ => if bit (e.word 5) 18 then some (bits (e.word 5) 17 0) else none

/-- The local add of n delivered bytes. -/
def State.localAdd (s : State) (e : Engine) (n : Nat) : State :=
  match e.crew, e.counter with
  | some cr, some off => s.counterAdd cr off n
  | _, _ => s

/-! ### Faults (R260, R365, R366) -/

/-- A bulk fault: the task takes it, and the engine thread abandons the rest of its work. -/
def State.engineFail (s : State) (e : Engine) (f : TFault) : State :=
  (s.setEngine { e with failed := true }).holdFault e.ctx e.task f

/-- The core of an engine thread, if it has one. -/
def State.engineCore (s : State) (e : Engine) : Option Nat := (e.crew.bind s.crew).map (fun c => c.core)

/-- What a failed access does to packet p of an engine thread. -/
def State.packetFailed (s : State) (e : Engine) (p : Nat) (f : EngFail) : State :=
  match f with
  | .held va kind => (s.setEngine { e with held := e.held ++ [p] }).engHold e.ctx e.task va kind (.packet e.uid p)
  | .struct node => s.engineFail e { code := 0x28, sub := 0, detail := node }
  | .violation pa => (s.logCtx e.ctx 4 0 (s.engineCore e) false pa).engineFail e { code := 0x24, sub := 5, detail := pa }
  | .poison pa => (s.logCtx e.ctx 2 0 (s.engineCore e) false pa).engineFail e { code := 0x24, sub := 2, detail := pa }
  | .host va => s.engineFail e { code := 0x24, sub := 1, detail := va }
  | .wait => s

/-! ### Fabric packets of an engine thread (R264, R265, R396) -/

/-- The transfer number of packet p of an engine thread. -/
def Engine.xfer (e : Engine) (p : Nat) : Nat := (e.uid * 2 ^ 26 + p) % 2 ^ 64

/-- PEER of an engine thread's peer word. -/
def Engine.peer (e : Engine) : Nat := bits (e.word 6) 5 0

/-- The remote capability of a fabric operation. -/
def Engine.remote (e : Engine) : CapW :=
  match e.kind with
  | .bget => e.cap 2
  | _ => e.cap 0

/-- Width in bytes of a `BATOM` operation (R265). -/
def atomWidth (op : Nat) : Nat := if op = 5 then 4 else 8

/-- The fabric packet that carries packet p (piece q) of an engine thread. -/
def Engine.packet (e : Engine) (id devid dcn p : Nat) (pl : Plan) (q : Piece) (l : List (Byte × Stamp)) : Packet :=
  let base : Packet :=
    { id := id, kind := 1, src := devid, dst := e.peer, xfer := e.xfer p, dalign := 0, sport := 0, dcn := dcn,
      tag := bits (e.word 6) 15 8, ten := bit (e.word 6) 16, aop := 0, length := q.n, cap := e.remote, offset := 0, runs := [],
      data := [] }
  match e.kind with
  | .bput =>
    { base with
      offset := pl.rows.pieceVa q - e.remote.cursor
      runs := runsOf (granuleStamps (q.n / 32 + 2) (pl.rows.pieceVa q) l)
      data := l.map (fun b => b.1) }
  | .bget =>
    let r := shapeSrc (e.word 4) e.remote.cursor
    { base with kind := 3, dalign := pl.rows.pieceVa q % 32, offset := r.pieceVa q - e.remote.cursor }
  | .batom op =>
    let st := (e.words.getD (if op = 3 then 3 else 2) Reg.zero).s
    let data := toBytes 8 (e.word 2) ++ (if op = 3 then toBytes 8 (e.word 3) else [])
    { base with kind := 5, aop := op, length := data.length, runs := [(1, st)], data := data }
  | _ => base

/-! ### One packet (R258) -/

/-- The unit that runs an engine thread. -/
def Engine.unit (e : Engine) : StopUnit :=
  match e.kind with
  | .bput => .sender e.uid
  | .bget => .sender e.uid
  | .batom _ => .sender e.uid
  | _ => .copy e.uid

/-- Packets of an engine thread. -/
def State.packetsOf (s : State) (e : Engine) : Nat := (s.planOf e).rows.packets

/-- Whether packet p of an engine thread may be worked on: not done, not held, not in flight, its unit not stopped. -/
def State.packetReady (s : State) (e : Engine) (p : Nat) : Bool :=
  !e.failed && !e.done.contains p && !e.held.contains p && !e.sent.contains p
    && ((s.ctx e.ctx).map (fun x => x.unitRuns e.unit)).getD false

/-- The age bound an engine thread checks its source against (R55, R273, R94). -/
def State.engineBound (s : State) (e : Engine) : Word :=
  let port :=
    match e.kind with
    | .send k => some k
    | .tcopy => (s.task e.ctx e.task).bind (fun t => if t.dstk = 2 then some t.cport else none)
    | _ => none
  match port, s.ctx e.ctx with
  | some k, some x => ((x.ports.find? (fun p => p.n == k)).map (fun p => p.bound)).getD 0#64
  | _, _ => 0#64

/-- The stamps that ingress bytes have taken stay with their copy (R94). -/
def State.keepArrival (s : State) (e : Engine) (pl : Plan) (q : Piece) : State :=
  match pl.src with
  | .taken _ => s.modTask e.ctx e.task (fun t => { t with taken := stampTaken (dataAt s.now) (pl.byteIndex q) q.n t.taken })
  | _ => s

/-- Move a piece of packet p: read its source, then write it, or set its granules VACANT. -/
def State.movePiece (s : State) (e : Engine) (p : Nat) (pl : Plan) (q : Piece) : Except EngFail Unit × State :=
  if pl.dst = .stamps then s.vacatePiece e.ctx (pl.rows.pieceVa q) q.n
  else
    match s.pieceBytes e p pl q with
    | (.error f, s) => (.error f, s)
    | (.ok l, s) =>
      match (if e.kind = .tfill then s.fillPut e.ctx (pl.rows.pieceVa q) pl.rows (l.map (fun b => b.1))
          else s.engPut e.ctx e.crew (pl.rows.pieceVa q) l) with
      | (.error f, s) => (.error f, s)
      | (.ok _, s) => (.ok (), s.keepArrival e pl q)

/-- A piece cut at the granules of its destination. -/
def Plan.granulePieces (pl : Plan) (q : Piece) : List Piece :=
  let va := pl.rows.pieceVa q
  (granuleRuns va q.n).map (fun r => { row := q.row, x := q.x + (r.1 - va), n := r.2 })

/-- What is left of a packet to write: all of it at once, or granule by granule once some have been written ahead (R304). -/
def State.leftPieces (s : State) (j : Joiner) (pl : Plan) (q : Piece) : List Piece :=
  if s.wrote.any (fun w => w.1 == j) then
    (pl.granulePieces q).filter (fun r => !s.wrote.contains (j, pl.rows.pieceVa r / 32))
  else [q]

/-- Move pieces of packet p in order; the granules of those moved are noted. -/
def State.movePieces (e : Engine) (p : Nat) (pl : Plan) : List Piece → State → Except EngFail Unit × State
  | [], s => (.ok (), s)
  | q :: rest, s =>
    match s.movePiece e p pl q with
    | (.error f, s) => (.error f, s)
    | (.ok _, s) => State.movePieces e p pl rest { s with wrote := s.wrote ++ [(.packet e.uid p, pl.rows.pieceVa q / 32)] }

/-- Packet p, piece q, of an engine thread: its reads, then its writes, then its counter's add. Other orders of its granules come about
when some are read or written ahead; where source and destination overlap, that is what decides which byte is copied (R259, R304; DESIGN
CHOICE, log 63). -/
def State.doPiece (s : State) (e : Engine) (p : Nat) (pl : Plan) (q : Piece) : State :=
  let j : Joiner := .packet e.uid p
  match pl.dst with
  | .stamps | .memory =>
    match State.movePieces e p pl (s.leftPieces j pl q) s with
    | (.error f, s) => s.packetFailed e p f
    | (.ok _, s) =>
      let s := s.endEarly j
      match s.engine e.uid with
      | some e => (s.setEngine { e with done := e.done ++ [p] }).localAdd e q.n
      | none => s
  | .staged =>
    match s.pieceBytes e p pl q with
    | (.error f, s) => s.packetFailed e p f
    | (.ok l, s) =>
      match checkStamps (s.engineBound e) s.now (l.map (fun b => b.2)) with
      | some r => s.engineFail e { code := 0x26, sub := r.sub, detail := pl.srcVa q }
      | none =>
        ((s.endEarly j).keepArrival e pl q).setEngine
          { e with done := e.done ++ [p], buffer := e.buffer ++ [(p, l.map (fun b => b.1), l.map (fun b => b.2))] }
  | .peer =>
    if s.reachable e.peer = false then
      s.engineFail e { code := 0x24, sub := 4, detail := e.remote.cursor }
    else
      let r : Except EngFail (List (Byte × Stamp)) × State := if e.kind = .bput then s.pieceBytes e p pl q else (.ok [], s)
      match r with
      | (.error f, s) => s.packetFailed e p f
      | (.ok l, s) =>
        let dcn := ((s.ctx e.ctx).map (fun x => x.dcn)).getD 0
        let (id, s) := s.fresh
        ((s.endEarly j).setEngine { e with sent := e.sent ++ [p] }).postPacket (e.packet id s.devid dcn p pl q l)

/-- `ENGINE_PACKET`: an engine thread works on packet p. -/
def execEnginePacket (e p : Nat) (s : State) : Host.Outcome State Fault Refusal :=
  match s.engine e with
  | none => .next s
  | some x =>
    if s.packetReady x p = false then .next s
    else
      let pl := s.planOf x
      match pl.rows.piece p with
      | none => .next s
      | some q => .next (s.doPiece x p pl q)

/-! ### Granules ahead of their packet (R304) -/

/-- Packet p of an engine thread that may be worked on, with its piece. -/
def State.pieceOf (s : State) (e p : Nat) : Option (Engine × Plan × Piece) :=
  match s.engine e with
  | none => none
  | some x => if s.packetReady x p then ((s.planOf x).rows.piece p).map (fun q => (x, s.planOf x, q)) else none

/-- Packet p of an engine thread reads one granule of its source ahead of the others. -/
def State.packetEarly (s : State) (e p g : Nat) : State :=
  let j : Joiner := .packet e p
  match s.pieceOf e p with
  | none => s
  | some (x, pl, q) =>
    if (s.earlyOf j g).isSome || !(pl.srcRuns q).any (fun r => decide (r.1 / 32 ≤ g) && decide (32 * g < r.1 + r.2)) then s
    else
      match s.readRun x.ctx x.crew pl.arrives (32 * g) 32 with
      | (.ok l, s) => { s with early := s.early ++ [(j, g, l)] }
      | (.error _, s1) => s.asking s1

/-- Packet p of an engine thread writes one granule of its destination ahead of the others. -/
def State.packetWrote (s : State) (e p g : Nat) : State :=
  let j : Joiner := .packet e p
  match s.pieceOf e p with
  | none => s
  | some (x, pl, q) =>
    match pl.dst, (pl.granulePieces q).find? (fun r => pl.rows.pieceVa r / 32 == g) with
    | .memory, some r | .stamps, some r =>
      if s.wrote.contains (j, g) then s
      else
        match s.movePiece x p pl r with
        | (.ok _, s) => { s with wrote := s.wrote ++ [(j, g)] }
        | (.error _, s1) => s.asking s1
    | _, _ => s

/-! ### Completion (R141, R257) -/

/-- Complete a class-L operation for a thread: its results become visible, its flag falls (R141). DESIGN CHOICE (log 57): a `MOVSW` of
`dither` that lands in the same cycle lands first, and PHASE advances from what it wrote. -/
def State.completeLop (s : State) (cr tid id : Nat) : State :=
  match s.thread cr tid with
  | none => s
  | some t0 =>
    let t := t0.commit s.cycle
    match t.lops.find? (fun x => x.id == id) with
    | none => s
    | some op =>
      let s := s.setThread { t.completeOp op with doneAt := s.cycle }
      match op.wait with
      | .accesses _ gone => { s with tlb := s.tlb.filter (fun e => !gone.contains (e.ctx, e.level, e.vpn)) }
      | _ => s

/-- Whether an operation may complete now. -/
def State.lopReady (s : State) (t : Thread) (op : LOp) : Bool :=
  match op.wait with
  | .ready c => decide (c ≤ s.cycle)
  | .ops ids => t.lops.all (fun x => !ids.contains x.id)
  | .engine _ => false
  | .command _ => false
  | .accesses l _ => l.all (fun k => !((s.thread k.1 k.2.1).map (fun u => u.lops.any (fun x => x.id == k.2.2))).getD false)
  | .place => false

/-- Complete an operation of a thread; the results of one rendezvous complete for all its joined threads together (R34, R204). -/
def State.completeGroup (s : State) (cr tid : Nat) (op : LOp) : State :=
  match op.group with
  | none => s.completeLop cr tid op.id
  | some g =>
    (s.threads.filter (fun t => t.crew == cr)).foldl (fun s t =>
      (t.lops.filter (fun o => o.group == some g)).foldl (fun s o => s.completeLop cr t.tid o.id) s) s

/-- `LONG_LATENCY_COMPLETE`: an operation of a thread completes; one that may not complete yet is left. -/
def execLongLatencyComplete (cr tid op : Nat) (s : State) : Host.Outcome State Fault Refusal :=
  match s.thread cr tid with
  | none => .next s
  | some t =>
    match t.lops.find? (fun x => x.id == op) with
    | none => .next s
    | some x => if s.lopReady t x then .next (s.completeGroup cr tid x) else .next s

/-- End an engine thread: its flag falls, or its task is complete. -/
def State.endEngine (s : State) (e : Engine) : State :=
  let s := { s with engines := s.engines.filter (fun x => x.uid != e.uid) }
  match e.crew, e.lop with
  | some cr, some id =>
    let s := if e.failed then s.modLop cr e.tid id (fun x => { x with regs := [], tags := [] }) else s
    s.completeLop cr e.tid id
  | _, _ => s.modTask e.ctx e.task (fun t => { t with stat := .complete })

/-- The bytes that an engine thread has read, in order. -/
def Engine.buffered (e : Engine) (n : Nat) : List (Byte × Stamp) :=
  (List.range n).flatMap (fun p =>
    match e.buffer.find? (fun b => b.1 == p) with
    | some (_, bs, st) => List.zip bs st
    | none => [])

/-- Whether a task is the oldest of its context and nothing else of the context is in flight (R81, R88). -/
def Ctx.alone (x : Ctx) (t : Nat) : Bool :=
  (x.window.head?.map (fun k => k.uid == t)).getD false && x.window.all (fun k => k.uid == t || k.stat != .issued)

/-- What an engine thread stages, in a staging version or without one. -/
def State.stagedKind (s : State) (e : Engine) (pl : Plan) (v : Option Ver) : StagedKind :=
  let l := e.buffered pl.rows.packets
  let record := fun (port : Nat) => StagedKind.record port (l.map (fun b => b.1)) (l.map (fun b => b.2)) v
  match e.kind with
  | .send k => record k
  | _ =>
    match s.task e.ctx e.task with
    | some t => if t.dstk = 1 then .hostCopy pl.rows.va (l.map (fun b => b.1)) (l.map (fun b => b.2)) v else record t.cport
    | none => record 0

/-- Whether the task of an engine thread releases its records at once (R90). -/
def State.imm (s : State) (e : Engine) : Bool :=
  (((s.task e.ctx e.task).bind (fun t => t.launch)).map (fun l => l.imm)).getD false

/-- Enter what an engine thread has read among its task's staged effects, in the order of their issue. -/
def State.enterStaged (s : State) (e : Engine) (pl : Plan) (v : Option Ver) : State :=
  let k := s.stagedKind e pl v
  (s.setEngine { e with block := v, staged := true }).modTask e.ctx e.task (fun t =>
    { t with staged := sortBy (fun a b => decide (a.seq ≤ b.seq)) (t.staged ++ [{ seq := e.seq, kind := k, progress := 0 }]) })

/-- Stage what an engine thread has read in a version drawn from the free lists (R94, R273); with IMM there is no staging version (R86). -/
def State.stageEngine (s : State) (e : Engine) (pl : Plan) : Option State :=
  if s.imm e then some (s.enterStaged e pl none)
  else
    let cls := sizeClass pl.rows.total
    match s.drawBlock e.ctx cls with
    | (some v, s) => some (s.enterStaged e pl (some v))
    | (none, s) =>
      if ((s.ctx e.ctx).map (fun x => x.alone e.task && !s.poolWaits x)).getD false then
        some (s.engineFail e { code := 0x21, sub := cls, detail := ((s.task e.ctx e.task).map (fun t => t.addr)).getD 0 })
      else none

/-- Whether what an engine thread has staged is not yet where it goes: still with its task, or, of a record to a peer, on its way
there (R257). -/
def State.stillStaged (s : State) (e : Engine) : Bool :=
  ((s.task e.ctx e.task).map (fun t => t.staged.any (fun g => g.seq == e.seq))).getD false || s.recordUnderWay e.seq

/-- Complete an engine thread that stages: stage first; with IMM, wait until the record is written at its destination (R257). -/
def State.endStaging (s : State) (e : Engine) (pl : Plan) : State :=
  if e.staged then (if s.stillStaged e then s else (s.localAdd e pl.rows.total).endEngine e)
  else
    match s.stageEngine e pl with
    | none => s
    | some s =>
      match s.engine e.uid with
      | none => s
      | some e => if e.failed then s.endEngine e else if s.imm e then s else (s.localAdd e pl.rows.total).endEngine e

/-- `ENGINE_COMPLETE`: an engine thread whose packets are all done, or that has failed, completes (R257, R260). -/
def execEngineComplete (e : Nat) (s : State) : Host.Outcome State Fault Refusal :=
  match s.engine e with
  | none => .next s
  | some x =>
    if x.failed then .next (s.endEngine x)
    else if ((s.ctx x.ctx).map (fun c => c.unitRuns x.unit)).getD false = false then .next s
    else
      let pl := s.planOf x
      if x.done.length < pl.rows.packets then .next s
      else if pl.dst = .staged then .next (s.endStaging x pl)
      else .next (s.endEngine x)

end Sys2Proof.Machine
end

