-- ==== Sys2Proof/Machine/Special.lean ====
section
/-!
DEFINITION. Special registers and the stamp instructions (spec/05_kelac_encoding.md R155;
spec/06_scalar_vector_instructions.md R186 to R190).
-/

namespace Sys2Proof.Machine

/-! ### Special registers (R155, R116, R119, R120, R124, R51, R54) -/

/-- The cohort record of a thread. -/
def State.cohortOf (s : State) (t : Thread) : Option Cohort := (s.crew t.crew).bind (fun c => s.cohort c.cohort)

/-- The value of special register n (R155). -/
def State.sreg (s : State) (v : Thread) (n : Nat) : Word :=
  let cr := s.crew v.crew
  let num := fun (x : Nat) => BitVec.ofNat 64 x
  match n with
  | 0 => num v.tid
  | 1 => num v.lane
  | 2 => num v.team
  | 3 => num ((cr.map (fun c => c.crewid)).getD 0)
  | 4 => num (((s.cohortOf v).map (fun h => h.cohortid)).getD 0)
  | 5 => num (dieOf (s.coreOf v))
  | 6 => num s.devid
  | 7 => num (((s.cohortOf v).map (fun h => h.ncrew)).getD 0)
  | 8 => num ((cr.map (fun c => c.nthread)).getD 0)
  | 9 => num s.now
  | 10 => num s.cycle
  | 11 => v.fpmode.setWidth 64
  | 12 => v.fpstat.setWidth 64
  | 13 => v.amax.setWidth 64
  | 14 => v.xmask.setWidth 64
  | 15 => v.stale.setWidth 64
  | 16 => v.wbase.setWidth 64
  | 17 => v.stkptr
  | 18 => v.repctr.setWidth 64
  | 19 => v.dither.setWidth 64
  | _ => if 33 ≤ n ∧ n ≤ 39 then v.bound (n - 32) else 0#64

/-- Whether a value may be written to special register n: the checks of the register's own rule. -/
def sregValueOk (n : Nat) (w : Word) : Bool :=
  match n with
  | 11 => bits w.toNat 63 4 == 0 && decide (bits w.toNat 2 0 ≤ 4)
  | 13 => !w.getLsbD 31 && bits w.toNat 30 23 != 255
  | _ => if 33 ≤ n ∧ n ≤ 39 then boundWordOk w else true

/-- What a write of special register n leaves in flight: W1C registers clear the bits written as 1. -/
def sregWrite (n : Nat) (w : Word) : Pend :=
  match n with
  | 12 => { due := 0, fclr := w.setWidth 6 }
  | 15 => { due := 0, sclr := w.setWidth 9 &&& 0x1FE#9 }
  | _ => { due := 0, sregs := [(n, w)] }

/-- `MOVS`. -/
def execMovs (d k : BitVec 7) (s : State) : Host.Outcome State Fault Refusal :=
  s.runD (.movs d k) d (fun s v => (s.sreg v k.toNat, sTimeless))

/-- `MOVSW`. -/
def execMovsw (a k : BitVec 7) (s : State) : Host.Outcome State Fault Refusal :=
  s.runF (.movsw a k) (fun _ v =>
    if sregValueOk k.toNat (v.val a) then .ok (sregWrite k.toNat (v.val a)) else .error (illegalTrap v))

/-! ### Stamps (R187 to R190) -/

/-- A stamp as hardware reads it: TIMELESS and VACANT have TICK zero (R40). -/
def Stamp.shown (s : Stamp) : Stamp :=
  match Stamp.cls s with
  | .timeless => sTimeless
  | .vacant => sVacant
  | _ => s

/-- The class code of a stamp (R39). -/
def Stamp.code (s : Stamp) : Nat := s.toNat / 2 ^ 30

/-- `STAMPR`. -/
def execStampr (d a : BitVec 7) (s : State) : Host.Outcome State Fault Refusal :=
  s.runD (.stampr d a) d (fun _ v => ((Stamp.shown (v.rd a).s).setWidth 64, sTimeless))

/-- The class and age of a stamp as `AGE` gives them (R188). -/
def ageWord (now : Nat) (s : Stamp) : Word :=
  match Stamp.cls s with
  | .data => BitVec.ofNat 64 (stampAge now s)
  | .weight => BitVec.ofNat 64 (2 ^ 30 + stampAge now s)
  | _ => BitVec.ofNat 64 (Stamp.code s * 2 ^ 30)

/-- `AGE`. -/
def execAge (d a : BitVec 7) (s : State) : Host.Outcome State Fault Refusal :=
  s.runD (.age d a) d (fun s v => (ageWord s.now (v.rd a).s, sTimeless))

/-- The stamp that `AGEJOIN` gives (R189). -/
def ageJoin (now : Nat) (a t0 : Stamp) : Stamp :=
  let t := clampStamp now t0
  match Stamp.cls a, Stamp.cls t with
  | .vacant, _ => Stamp.shown a
  | _, .timeless => Stamp.shown a
  | _, .vacant => Stamp.shown a
  | .timeless, _ => t
  | _, _ => Stamp.withTick a (Stamp.tick (olderStamp a t))

/-- `AGEJOIN`. -/
def execAgejoin (d a b : BitVec 7) (s : State) : Host.Outcome State Fault Refusal :=
  s.runD (.agejoin d a b) d (fun s v => (v.val a, ageJoin s.now (v.rd a).s ((v.val b).setWidth 32)))

/-- `AGECHK`: no register is written; a flagged failure sets `stale` bits. -/
def execAgechk (sel : BitVec 3) (a : BitVec 7) (s : State) : Host.Outcome State Fault Refusal :=
  s.issueAll (.agechk sel a) (fun s t v =>
    match s.freshness v sel.toNat [(v.rd a).s] 0 with
    | .escalate sub => s.escalate t 0x26 sub 0 0
    | .trap tr => s.takeTrap t tr
    | .ok sset => s.issueF t 1 { due := 0, sset := sset })

end Sys2Proof.Machine
end

