-- ==== Sys2Proof/Machine/Bulk.lean ====
section
/-!
DEFINITION. The bulk, fabric, counter, egress and lease-count instructions (spec/09_async_and_egress.md R251 to R256, R265,
R267 to R269, R273, R276): their checks at issue and the engine threads they create.
-/

namespace Sys2Proof.Machine

/-! ### Operand words (R253 to R255) -/

/-- A bulk-operand trap with the offending word. -/
def bulkTrap (w : Word) : Trap := { code := 0x11, detail := w.toNat }
/-- A bulk-operand trap with cause *port*. -/
def portTrap (w : Word) : Trap := { code := 0x11, sub := 1, detail := w.toNat }

/-- Which bulk instruction checks its words. -/
inductive BulkOp where
  | copy | fill | put | get | atom
  deriving DecidableEq, Repr

/-- A shape word that breaks R253 for an instruction. -/
def shapeBad (o : BulkOp) (w : Nat) : Bool :=
  match o, shMode w with
  | .atom, _ => false
  | _, 0 => bits w 61 38 != 0 || shLength w == 0 || decide (2 ^ 37 < shLength w)
  | .fill, 1 => decide (shDpitch w < shRowb w)
  | _, 1 => decide (shSpitch w < shRowb w) || decide (shDpitch w < shRowb w)
  | .copy, 2 => decide (shSpitch w < shCols w * shWidth w) || decide (shDpitch w < shRows w * shWidth w)
  | _, _ => true

/-- A counter word that breaks R254, its alignment apart. -/
def counterBad (w : Nat) : Bool := bits w 63 19 != 0 || (!bit w 18 && bits w 17 0 != 0)

/-- A peer word that breaks R255. -/
def peerBad (o : BulkOp) (w : Nat) : Bool :=
  match o with
  | .copy => false
  | .fill => false
  | .put => bits w 63 17 != 0 || bits w 7 6 != 0
  | _ => bits w 63 16 != 0 || bits w 7 6 != 0

/-! ### Checks at issue (R252) -/

/-- Checks 1 to 4 of R218 of a local pair over runs of bytes from its cursor. -/
def pairCheck (v : Thread) (a : RegField) (perm : Nat) (runs : List (Nat × Nat)) : Option Trap :=
  let c := v.capAt a
  if v.tagAt a = false then some (capTrap 1 c.cursor)
  else if c.has perm = false then some (capTrap 2 c.cursor)
  else if !runs.all (fun r => c.covers (c.cursor + r.1) r.2) then some (capTrap 4 c.cursor)
  else none

/-- The scratchpad bytes of a local pair lie within the allocation. -/
def State.pairScratch (s : State) (v : Thread) (a : RegField) (runs : List (Nat × Nat)) : Option Trap :=
  let cur := (v.capAt a).cursor
  let out := fun (r : Nat × Nat) =>
    decide (Config.scratchWindow ≤ cur + r.1) && decide (s.scratchSize v < cur + r.1 - Config.scratchWindow + r.2)
  (runs.find? out).map (fun r => scratchTrap (cur + r.1 - Config.scratchWindow))

/-- Row offsets and lengths of rows. -/
def Rows.runs (r : Rows) : List (Nat × Nat) := listOf r.rows (fun i => (i * r.pitch, r.rowb))

/-- The local pairs of a bulk instruction: the field, the permissions, the runs of bytes. -/
def bulkPairs (o : BulkOp) (a : RegField) (shape : Nat) : List (RegField × Nat × List (Nat × Nat)) :=
  match o with
  | .copy => [(a, pStore, (shapeDst shape 0).runs), (a + 2#7, pLoad, (shapeSrc shape 0).runs)]
  | .fill => [(a, pStore, (shapeDst shape 0).runs)]
  | .put => [(a + 2#7, pLoad ||| pSend, (shapeSrc shape 0).runs)]
  | .get => [(a, pStore ||| pSend, (shapeDst shape 0).runs)]
  | .atom => []

/-- The checks of the counter word: alignment, then the allocation. -/
def State.counterCheck (s : State) (v : Thread) (en : Bool) (off : Nat) : Option Trap :=
  if !en then none
  else if off % 8 ≠ 0 then some (alignTrap off)
  else if s.scratchSize v < off + 8 then some (scratchTrap off)
  else none

/-- The first check of R252 that fails. -/
def bulkCheck (o : BulkOp) (a : RegField) (s : State) (v : Thread) : Option Trap :=
  let shape := (v.rdAt a 4).v
  let ctr := (v.rdAt a 5).v
  let peer := (v.rdAt a 6).v
  if shapeBad o shape.toNat then some (bulkTrap shape)
  else if counterBad ctr.toNat then some (bulkTrap ctr)
  else if peerBad o peer.toNat then some (bulkTrap peer)
  else
    let ps := bulkPairs o a shape.toNat
    match ps.findSome? (fun p => pairCheck v p.1 p.2.1 p.2.2) with
    | some tr => some tr
    | none =>
      match s.counterCheck v (bit ctr.toNat 18) (bits ctr.toNat 17 0) with
      | some tr => some tr
      | none => ps.findSome? (fun p => s.pairScratch v p.1 p.2.2)

/-- Create the engine thread of a thread's instruction (R256): its operation is in flight until the engine completes. -/
def State.startEngine (s : State) (t : Thread) (kind : EngineKind) (words : List Reg) (regs : List (Nat × Reg))
    (tags : List (Nat × Bool)) : State :=
  let (eid, s) := s.fresh
  let (oid, s) := s.fresh
  let s := s.issueL t { id := oid, flag := none, entry := true, wait := .engine eid, regs := regs, tags := tags }
  let e : Engine :=
    { uid := eid, ctx := s.ctxOf t, task := s.taskOf t, crew := some t.crew, tid := t.tid, lop := some oid, kind := kind,
      words := words, done := [], held := [], sent := [], failed := false, buffer := [], block := none,
      staged := false, seq := eid }
  { s with engines := s.engines ++ [e] }

/-- A bulk instruction of n group registers; d is the destination of `BATOM`. -/
def State.runBulk (s : State) (i : Instr) (o : BulkOp) (k : EngineKind) (a : RegField) (n : Nat) (d : Option RegField) :
    Host.Outcome State Fault Refusal :=
  s.issueWith i (fun vs s t v =>
    match bulkCheck o a s v with
    | some tr => s.trapAt t v vs (fun s u => ((bulkCheck o a s u).map (fun x => x.code == 7)).getD false) tr
    | none =>
      match d with
      | none => s.startEngine t k (listOf n (v.rdAt a)) [] []
      | some f => s.startEngine t k (listOf n (v.rdAt a)) (s.regOut v f 0#64 sTimeless) (v.tagOut f)) id

/-- `BCOPY`. -/
def execBcopy (a : BitVec 7) (s : State) : Host.Outcome State Fault Refusal := s.runBulk (.bcopy a) .copy .bcopy a 6 none
/-- `BFILL`. -/
def execBfill (a : BitVec 7) (s : State) : Host.Outcome State Fault Refusal := s.runBulk (.bfill a) .fill .bfill a 6 none
/-- `BPUT`. -/
def execBput (a : BitVec 7) (s : State) : Host.Outcome State Fault Refusal := s.runBulk (.bput a) .put .bput a 7 none
/-- `BGET`. -/
def execBget (a : BitVec 7) (s : State) : Host.Outcome State Fault Refusal := s.runBulk (.bget a) .get .bget a 7 none
/-- `BATOM.ADD`. -/
def execBatomAdd (d a : BitVec 7) (s : State) : Host.Outcome State Fault Refusal :=
  s.runBulk (.batomAdd d a) .atom (.batom 0) a 7 (some d)
/-- `BATOM.OR`. -/
def execBatomOr (d a : BitVec 7) (s : State) : Host.Outcome State Fault Refusal :=
  s.runBulk (.batomOr d a) .atom (.batom 1) a 7 (some d)
/-- `BATOM.XCH`. -/
def execBatomXch (d a : BitVec 7) (s : State) : Host.Outcome State Fault Refusal :=
  s.runBulk (.batomXch d a) .atom (.batom 2) a 7 (some d)
/-- `BATOM.CAS`. -/
def execBatomCas (d a : BitVec 7) (s : State) : Host.Outcome State Fault Refusal :=
  s.runBulk (.batomCas d a) .atom (.batom 3) a 7 (some d)
/-- `BATOM.MAXN`. -/
def execBatomMaxn (d a : BitVec 7) (s : State) : Host.Outcome State Fault Refusal :=
  s.runBulk (.batomMaxn d a) .atom (.batom 4) a 7 (some d)
/-- `BATOM.FADD`. -/
def execBatomFadd (d a : BitVec 7) (s : State) : Host.Outcome State Fault Refusal :=
  s.runBulk (.batomFadd d a) .atom (.batom 5) a 7 (some d)

/-! ### Arrival counters (R266 to R268) -/

/-- The checks of a counter at a scratchpad offset. -/
def arrivalCheck (a : RegField) (s : State) (v : Thread) : Option Trap := s.counterCheck v true (v.val a).toNat

/-- `ACTR`: counter := counter - B, D := the new value. -/
def execActr (d a b : BitVec 7) (s : State) : Host.Outcome State Fault Refusal :=
  s.issueWith (.actr d a b) (fun vs s t v =>
    match arrivalCheck a s v with
    | some tr => s.trapAt t v vs (fun s u => ((arrivalCheck a s u).map (fun x => x.code == 7)).getD false) tr
    | none =>
      let off := (v.val a).toNat
      let m := s.scratch v
      if m.anyPoison off 8 then s.scratchPoison t
      else
        let new := BitVec.ofNat 64 (m.readNat off 8) - v.val b
        let s := s.modScratch t (fun m => ((m.putBytes off (toBytes 8 new.toNat)).clearTags off 8).noteWrites off 8)
        let (id, s) := s.fresh
        s.issueL t { id := id, flag := none, entry := false, access := true, wait := .ready (s.cycle + 1),
                     regs := s.regOut v d new sTimeless, tags := v.tagOut d }) id

/-- One read of a `WAITC`: at or above the target the thread goes on, poison ends the wait, a lower count holds it. -/
def State.waitcRead (s : State) (t : Thread) (off : Nat) (target : Word) (seen : Option Nat) : State :=
  let m := s.scratch t
  if seen = some (m.writeCount off 8) then s
  else if m.anyPoison off 8 then s.scratchPoison { t with st := .running }
  else if toSigned 64 target.toNat ≤ toSigned 64 (m.readNat off 8) then
    s.setThread { (t.advance s.cycle 1) with st := .running, notBefore := s.cycle + 1, lastIssue := t.issueCycle s.cycle }
  else s.setThread { t with st := .held (.waitc off target (some (m.writeCount off 8))), lastIssue := t.issueCycle s.cycle, readySince := none }

/-- `WAITC`. -/
def execWaitc (a b : BitVec 7) (s : State) : Host.Outcome State Fault Refusal :=
  s.issueWith (.waitc a b) (fun vs s t v =>
    match arrivalCheck a s v with
    | some tr => s.trapAt t v vs (fun s u => ((arrivalCheck a s u).map (fun x => x.code == 7)).getD false) tr
    | none => s.waitcRead t (v.val a).toNat (v.val b) none) id

/-- `WAITC_REREAD`: a held `WAITC` reads again. -/
def execWaitcReread (cr tid : Nat) (s : State) : Host.Outcome State Fault Refusal :=
  match s.thread cr tid with
  | some t =>
    match t.st with
    | .held (.waitc off target seen) => .next (s.waitcRead (t.commit s.cycle) off target seen)
    | _ => .next s
  | none => .next s

/-! ### Delivery tags (R269) -/

/-- The crew that a tag of a context is bound to. -/
def Ctx.tagOwner (x : Ctx) (n : Nat) : Option Nat := (x.dtags.find? (fun g => g.tag == n)).map (fun g => g.crew)

/-- What `ACTRD` checks: the reserved bits, the counter of a bind, the owner of the tag. -/
def actrdCheck (a b : RegField) (s : State) (v : Thread) : Option Trap :=
  let w := v.val b
  let owner := (s.ctx (s.ctxOf v)).bind (fun x => x.tagOwner (bits w.toNat 7 0))
  let field := bits w.toNat 62 8 != 0
  if w.getLsbD 63 then (if field || owner != some v.crew then some (bulkTrap w) else none)
  else (arrivalCheck a s v).or (if field || (owner.isSome && owner != some v.crew) then some (bulkTrap w) else none)

/-- Bind or unbind a tag as B[63] says. -/
def State.runActrd (s : State) (i : Instr) (a b : RegField) : Host.Outcome State Fault Refusal :=
  s.issueWith i (fun vs s t v =>
    match actrdCheck a b s v with
    | some tr => s.trapAt t v vs (fun s u => ((actrdCheck a b s u).map (fun x => x.code == 7)).getD false) tr
    | none =>
      let w := v.val b
      let n := bits w.toNat 7 0
      let s := s.modCtx (s.ctxOf t) (fun x =>
        let rest := x.dtags.filter (fun g => g.tag != n)
        { x with dtags := if w.getLsbD 63 then rest else rest ++ [{ tag := n, crew := t.crew, off := (v.val a).toNat }] })
      let (id, s) := s.fresh
      s.issueL t { id := id, flag := none, entry := false, wait := .ready (s.cycle + 1) }) id

/-- `ACTRD`; the word is one for both operations, and B[63] says which. -/
def execActrdBind (a b : BitVec 7) (s : State) : Host.Outcome State Fault Refusal := s.runActrd (.actrdBind a b) a b
/-- `ACTRD` as the table's second row of the same word. -/
def execActrdUnbind (a b : BitVec 7) (s : State) : Host.Outcome State Fault Refusal := s.runActrd (.actrdUnbind a b) a b

/-! ### Egress and lease counts (R273, R276) -/

/-- The descriptor's LOG2 of a port. -/
def Port.log2 (p : Port) : Nat := bits (p.desc.getD 1 0#64).toNat 4 0

/-- Bytes of a record with a payload of n bytes (R272). -/
def recordBytes (n : Nat) : Nat := alignUp (16 + n) 32

/-- The checks of `SEND` at issue. -/
def sendCheck (d a : RegField) (k : BitVec 6) (s : State) (v : Thread) : Option Trap :=
  let w := v.val d
  let n := bits w.toNat 24 0
  let cen := bit w.toNat 50
  let port := (s.ctx (s.ctxOf v)).bind (fun x => x.ports.find? (fun p => p.n == k.toNat))
  if bits w.toNat 63 51 ≠ 0 ∨ bits w.toNat 31 25 ≠ 0 ∨ (cen = false ∧ bits w.toNat 49 32 ≠ 0) ∨ n = 0 ∨ 2 ^ 24 < n then
    some (bulkTrap w)
  else
    match port with
    | none => some (portTrap w)
    | some p =>
      if p.kind ≠ 1 ∧ p.kind ≠ 2 then some (portTrap w)
      else if p.kind = 1 ∧ 2 ^ p.log2 < recordBytes n then some (bulkTrap w)
      else
        match pairCheck v a (pLoad ||| pSend) [(0, n)] with
        | some tr => some tr
        | none =>
          match s.counterCheck v cen (bits w.toNat 49 32) with
          | some tr => some tr
          | none => s.pairScratch v a [(0, n)]

/-- `SEND`. -/
def execSend (d a : BitVec 7) (k : BitVec 6) (s : State) : Host.Outcome State Fault Refusal :=
  s.issueWith (.send d a k) (fun vs s t v =>
    match sendCheck d a k s v with
    | some tr => s.trapAt t v vs (fun s u => ((sendCheck d a k s u).map (fun x => x.code == 7)).getD false) tr
    | none => s.startEngine t (.send k.toNat) [v.rd d, v.rdAt a 0, v.rdAt a 1] [] []) id

/-- Channels to or from a peer that are ACTIVE, and those requested and not yet granted (R276, R385). -/
def Fabric.activeTo (f : Fabric) (q : Nat) : Nat := (f.txc.filter (fun c => c.peer == q && c.st == .active)).length
/-- Leased channels from a peer that are ACTIVE. -/
def Fabric.activeFrom (f : Fabric) (q : Nat) : Nat := (f.rxc.filter (fun c => c.peer == q && c.st == .active)).length
/-- Channels requested from a peer: in RESERVED, in RETUNE towards ACTIVE, or in the queue. -/
def Fabric.pending (f : Fabric) (q : Nat) : Nat :=
  ((f.requests.find? (fun r => r.peer == q)).map (fun r => r.want)).getD 0
    + (f.txc.filter (fun c => c.peer == q && c.st == .retune true)).length

/-- The lease-count word of a peer (R276, R390). -/
def State.leaseWord (s : State) (q : Nat) : Word :=
  if s.agreed 2 = false ∨ q = s.devid ∨ s.fab.present.contains q = false then 0#64
  else
    let base := ((s.fab.link q).map (fun l => l.up)).getD false
    let rot := s.fab.rotating
    let tx := if rot then s.fab.windowChannels q else s.fab.activeTo q
    let rx := if rot then s.fab.windowRx q else s.fab.activeFrom q
    let pend := if rot then 0 else s.fab.pending q
    BitVec.ofNat 64 (b2n base * 2 ^ 48 + pend % 1024 * 2 ^ 32 + rx % 1024 * 2 ^ 16 + tx % 1024)

/-- `LEASEQ`. -/
def execLeaseq (d : BitVec 7) (k : BitVec 6) (s : State) : Host.Outcome State Fault Refusal :=
  s.issueAll (.leaseq d k) (fun s t v =>
    let (id, s) := s.fresh
    s.issueL t { id := id, flag := none, entry := false, wait := .ready (s.cycle + 1),
                 regs := s.regOut v d (s.leaseWord k.toNat) sTimeless, tags := v.tagOut d })

end Sys2Proof.Machine
end

