-- ==== Sys2Proof/Machine/Anole.lean ====
section
/-!
DEFINITION. The Anole's own operations (spec/18_optical_fabric.md R375 to R385): lease targets, free slots, the request a sender
keeps, grants, offers, revocation and release.
-/

namespace Sys2Proof.Machine

/-! ### Targets and slots (R376, R377, R379) -/

/-- The lease target of a context towards a peer. -/
def Ctx.leaseTo (x : Ctx) (q : Nat) : Nat := ((x.leases.find? (fun p => p.1 == q)).map (fun p => p.2)).getD 0

/-- T(q): the package's target towards a peer. -/
def State.leaseTarget (s : State) (q : Nat) : Nat := min 63 ((s.ctxs.map (fun x => x.leaseTo q)).foldl (· + ·) 0)

/-- Channels to a peer that the package holds or is about to hold: reserved, retuning towards ACTIVE, or ACTIVE. -/
def Fabric.heldTo (f : Fabric) (q : Nat) : Nat :=
  (f.txc.filter (fun c => c.peer == q && (c.st == .reserved || c.st == .retune true || c.st == .active))).length

/-- Whether a fibre of plane j has a slot for a base channel of this package in one direction, whether its link is up or not (R376). -/
def State.baseOn (s : State) (j : Nat) : Bool :=
  let q := (j + 64 - s.devid % 64) % 64
  q != s.devid && (s.fab.domain.contains q || s.fab.present.contains q)

/-- Whether a modulator slot of plane j is free. -/
def State.freeMod (s : State) (j : Nat) : Bool :=
  decide ((s.fab.txc.filter (fun c => c.plane == j)).length + b2n (s.baseOn j) < 16)
/-- Whether a drop slot of plane j is free. -/
def State.freeDrop (s : State) (j : Nat) : Bool :=
  decide ((s.fab.rxc.filter (fun c => c.plane == j)).length + b2n (s.baseOn j) < 16)

/-- Whether a plane is eligible for a further channel to a peer (R380). -/
def State.eligible (s : State) (q j : Nat) : Bool :=
  j != basePlane s.devid q && !s.fab.txc.any (fun c => c.plane == j && c.peer == q) && s.freeMod j

/-- Eligible planes in the order b(p, q) + 1, b(p, q) + 2, ... -/
def State.eligiblePlanes (s : State) (q : Nat) : List Nat :=
  (listOf 63 (fun i => (basePlane s.devid q + 1 + i) % 64)).filter (s.eligible q)

/-- A set of planes as a bit map. -/
def planeMask (l : List Nat) : BitVec 64 := BitVec.ofNat 64 (l.foldl (fun m j => m ||| 2 ^ j) 0)
/-- The planes of a bit map. -/
def planesOf (m : BitVec 64) : List Nat := (List.range 64).filter (fun j => m.getLsbD j)

/-! ### Requests (R380) -/

/-- While the package holds fewer channels to a peer than its target, keep one request towards it; none while rotation runs
(R390). -/
def State.keepRequest (s : State) (q : Nat) : State :=
  let want := s.leaseTarget q - s.fab.heldTo q
  if q = s.devid ∨ s.fab.present.contains q = false ∨ s.leasesSuspended ∨ want = 0 ∨ s.fab.requests.any (fun r => r.peer == q) then s
  else
    let planes := (s.eligiblePlanes q).take want
    let new : List Chan := planes.map (fun j => { plane := j, peer := q, st := .reserved })
    let req : LeaseReq := { peer := q, want := want, tick := s.now }
    { s with fab := { s.fab with txc := s.fab.txc ++ new, requests := s.fab.requests ++ [req] } }.tell q
      (.leaseRequest q (planeMask planes) want s.now)

/-- Keep a request towards every peer. -/
def State.keepRequests (s : State) : State := (List.range 64).foldl State.keepRequest s

/-- Change the state of a channel to a peer. -/
def Fabric.setTx (f : Fabric) (q j : Nat) (st : SlotState) : Fabric :=
  { f with txc := f.txc.map (fun c => if c.peer == q && c.plane == j then { c with st := st } else c) }
/-- Change the state of a channel from a peer. -/
def Fabric.setRx (f : Fabric) (q j : Nat) (st : SlotState) : Fabric :=
  { f with rxc := f.rxc.map (fun c => if c.peer == q && c.plane == j then { c with st := st } else c) }

/-- The queue order of requests: greatest waiting age, then lower sender (R380). -/
def LeaseReq.before (a b : LeaseReq) : Bool := decide (a.tick < b.tick) || (a.tick == b.tick && decide (a.peer ≤ b.peer))

/-- Enter a request in the receiver's queue. -/
def Fabric.enqueue (f : Fabric) (r : LeaseReq) : Fabric :=
  { f with queued := sortBy LeaseReq.before (f.queued.filter (fun x => x.peer != r.peer) ++ [r]) }

end Sys2Proof.Machine
end

