-- ==== Sys2Proof/Machine/MemoryInstrs.lean ====
section
/-!
DEFINITION. Loads, stores, transposed loads, scratchpad accesses, prefetch and fence (spec/08_memory_instructions.md R219 to
R230, R240, R242).
-/

namespace Sys2Proof.Machine

/-! ### Shared shapes -/

/-- The address of an M-form access through pair A (R219). -/
def State.mAddr (s : State) (v : Thread) (a o : RegField) (n : Nat) : Nat :=
  ofSigned 56 ((s.addrBase v a : Int) + toSigned 7 o.toNat * (n : Int))

/-- The sum that gives the scratchpad offset of `LDS` and `STS`, before it is reduced. -/
def Thread.sSum (v : Thread) (a o : RegField) (n : Nat) : Int := ((v.val a).toNat : Int) + toSigned 7 o.toNat * (n : Int)
/-- The scratchpad offset of `LDS` and `STS` (R229). -/
def Thread.sOff (v : Thread) (a o : RegField) (n : Nat) : Nat := ofSigned 64 (v.sSum a o n)
/-- Whether that offset has wrapped (R230). -/
def Thread.sWraps (v : Thread) (a o : RegField) (n : Nat) : Bool := decide (v.sSum a o n < 0) || decide (2 ^ 64 ≤ v.sSum a o n)

/-- The checks of a load through a capability pair. -/
def loadCheck (a o : RegField) (n : Nat) (s : State) (v : Thread) : Except Trap Place :=
  s.memCheck v a pLoad (s.mAddr v a o n) n n true

/-- A load of n bytes through pair A (R220). -/
def State.runLoad (s : State) (i : Instr) (ab : BitVec 3) (d a o : RegField) (n : Nat) : Host.Outcome State Fault Refusal :=
  s.issueWith i (fun vs s t v =>
    match loadCheck a o n s v with
    | .error tr => s.trapAt t v vs (fun s u => isScratchTrap (loadCheck a o n s u)) tr
    | .ok (.scratch off) => s.loadScratch t v d ab.toNat (s.mAddr v a o n) off n
    | .ok (.virt va) => s.loadVirt t v d ab.toNat va n) id

/-- The checks of a store through a capability pair. -/
def storeCheck (perm : Nat) (a o : RegField) (n : Nat) (s : State) (v : Thread) : Except Trap Place :=
  s.memCheck v a perm (s.mAddr v a o n) n n true

/-- A store of n bytes through pair A (R221, R223). -/
def State.runStore (s : State) (i : Instr) (d a o : RegField) (n : Nat) (replace : Bool) :
    Host.Outcome State Fault Refusal :=
  let perm := if replace then pStore ||| pRestamp else pStore
  s.issueWith i (fun vs s t v =>
    match storeCheck perm a o n s v with
    | .error tr => s.trapAt t v vs (fun s u => isScratchTrap (storeCheck perm a o n s u)) tr
    | .ok (.scratch off) => s.storeScratch t off (v.storeData d n) replace
    | .ok (.virt va) => s.storeVirt t va (v.storeData d n) replace) id

/-- The checks of a scratchpad access by offset. -/
def offCheck (a o : RegField) (n : Nat) (s : State) (v : Thread) : Except Trap Nat :=
  match s.scratchCheck v (v.sOff a o n) n n with
  | some tr => .error tr
  | none => if v.sWraps a o n then .error (scratchTrap (v.sOff a o n)) else .ok (v.sOff a o n)

/-- A scratchpad load of n bytes (R229). -/
def State.runLds (s : State) (i : Instr) (ab : BitVec 3) (d a o : RegField) (n : Nat) : Host.Outcome State Fault Refusal :=
  s.issueWith i (fun vs s t v =>
    match offCheck a o n s v with
    | .error tr => s.trapAt t v vs (fun s u => isScratchTrap (offCheck a o n s u)) tr
    | .ok off => s.loadScratch t v d ab.toNat off off n) id

/-- A scratchpad store of n bytes (R229). -/
def State.runSts (s : State) (i : Instr) (d a o : RegField) (n : Nat) : Host.Outcome State Fault Refusal :=
  s.issueWith i (fun vs s t v =>
    match offCheck a o n s v with
    | .error tr => s.trapAt t v vs (fun s u => isScratchTrap (offCheck a o n s u)) tr
    | .ok off => s.storeScratch t off (v.storeData d n) false) id

/-- A transposed load of 8 / w elements of w bytes down a column (R226). The 32 granules of the sector are touched: their
stamps combine, and a poisoned one is a data error (R48). -/
def State.runLdx (s : State) (i : Instr) (ab : BitVec 3) (d a o : RegField) (w : Nat) : Host.Outcome State Fault Refusal :=
  let n := 8 / w
  s.issueAll i (fun s t v =>
    let va := s.mAddr v a o w
    match s.memCheck v a pLoad va (32 * (n - 1) + w) w false with
    | .error tr => s.takeTrap t tr
    | .ok _ =>
      if va % 1024 / 32 % n ≠ 0 then s.takeTrap t (alignTrap va)
      else
        match s.reach t .load va (32 * (n - 1) + w) false with
        | .error s => s
        | .ok (pa, host, s) =>
          let m := s.store host
          let sector := alignDown pa 1024
          if m.anyPoison sector 1024 then s.dataError t 1 pa
          else
            let x := packElems (8 * w) (listOf n (fun k => m.readNat (pa + 32 * k) w))
            s.finishLoad t v ab.toNat va true (m.stampsOf sector 1024)
              (loadOut v d 8 { v := x, stamps := m.stampsOf sector 1024 }))

/-! ### Loads and stores through a capability (R220 to R223, R226) -/

/-- `LD8`. -/
def execLd8 (s : BitVec 3) (d a o : BitVec 7) (st : State) : Host.Outcome State Fault Refusal :=
  st.runLoad (.ld8 s d a o) s d a o 1
/-- `LD16`. -/
def execLd16 (s : BitVec 3) (d a o : BitVec 7) (st : State) : Host.Outcome State Fault Refusal :=
  st.runLoad (.ld16 s d a o) s d a o 2
/-- `LD32`. -/
def execLd32 (s : BitVec 3) (d a o : BitVec 7) (st : State) : Host.Outcome State Fault Refusal :=
  st.runLoad (.ld32 s d a o) s d a o 4
/-- `LD64`. -/
def execLd64 (s : BitVec 3) (d a o : BitVec 7) (st : State) : Host.Outcome State Fault Refusal :=
  st.runLoad (.ld64 s d a o) s d a o 8
/-- `LD128`. -/
def execLd128 (s : BitVec 3) (d a o : BitVec 7) (st : State) : Host.Outcome State Fault Refusal :=
  st.runLoad (.ld128 s d a o) s d a o 16
/-- `LDX8`. -/
def execLdx8 (s : BitVec 3) (d a o : BitVec 7) (st : State) : Host.Outcome State Fault Refusal :=
  st.runLdx (.ldx8 s d a o) s d a o 1
/-- `LDX16`. -/
def execLdx16 (s : BitVec 3) (d a o : BitVec 7) (st : State) : Host.Outcome State Fault Refusal :=
  st.runLdx (.ldx16 s d a o) s d a o 2
/-- `LDX32`. -/
def execLdx32 (s : BitVec 3) (d a o : BitVec 7) (st : State) : Host.Outcome State Fault Refusal :=
  st.runLdx (.ldx32 s d a o) s d a o 4
/-- `ST8`. -/
def execSt8 (d a o : BitVec 7) (st : State) : Host.Outcome State Fault Refusal :=
  st.runStore (.st8 d a o) d a o 1 false
/-- `ST16`. -/
def execSt16 (d a o : BitVec 7) (st : State) : Host.Outcome State Fault Refusal :=
  st.runStore (.st16 d a o) d a o 2 false
/-- `ST32`. -/
def execSt32 (d a o : BitVec 7) (st : State) : Host.Outcome State Fault Refusal :=
  st.runStore (.st32 d a o) d a o 4 false
/-- `ST64`. -/
def execSt64 (d a o : BitVec 7) (st : State) : Host.Outcome State Fault Refusal :=
  st.runStore (.st64 d a o) d a o 8 false
/-- `ST128`. -/
def execSt128 (d a o : BitVec 7) (st : State) : Host.Outcome State Fault Refusal :=
  st.runStore (.st128 d a o) d a o 16 false
/-- `STG64`. -/
def execStg64 (d a o : BitVec 7) (st : State) : Host.Outcome State Fault Refusal :=
  st.runStore (.stg64 d a o) d a o 8 true
/-- `STG128`. -/
def execStg128 (d a o : BitVec 7) (st : State) : Host.Outcome State Fault Refusal :=
  st.runStore (.stg128 d a o) d a o 16 true

/-! ### The scratchpad (R229, R230) -/

/-- `LDS8`. -/
def execLds8 (s : BitVec 3) (d a o : BitVec 7) (st : State) : Host.Outcome State Fault Refusal :=
  st.runLds (.lds8 s d a o) s d a o 1
/-- `LDS16`. -/
def execLds16 (s : BitVec 3) (d a o : BitVec 7) (st : State) : Host.Outcome State Fault Refusal :=
  st.runLds (.lds16 s d a o) s d a o 2
/-- `LDS32`. -/
def execLds32 (s : BitVec 3) (d a o : BitVec 7) (st : State) : Host.Outcome State Fault Refusal :=
  st.runLds (.lds32 s d a o) s d a o 4
/-- `LDS64`. -/
def execLds64 (s : BitVec 3) (d a o : BitVec 7) (st : State) : Host.Outcome State Fault Refusal :=
  st.runLds (.lds64 s d a o) s d a o 8
/-- `LDS128`. -/
def execLds128 (s : BitVec 3) (d a o : BitVec 7) (st : State) : Host.Outcome State Fault Refusal :=
  st.runLds (.lds128 s d a o) s d a o 16
/-- `STS8`. -/
def execSts8 (d a o : BitVec 7) (st : State) : Host.Outcome State Fault Refusal :=
  st.runSts (.sts8 d a o) d a o 1
/-- `STS16`. -/
def execSts16 (d a o : BitVec 7) (st : State) : Host.Outcome State Fault Refusal :=
  st.runSts (.sts16 d a o) d a o 2
/-- `STS32`. -/
def execSts32 (d a o : BitVec 7) (st : State) : Host.Outcome State Fault Refusal :=
  st.runSts (.sts32 d a o) d a o 4
/-- `STS64`. -/
def execSts64 (d a o : BitVec 7) (st : State) : Host.Outcome State Fault Refusal :=
  st.runSts (.sts64 d a o) d a o 8
/-- `STS128`. -/
def execSts128 (d a o : BitVec 7) (st : State) : Host.Outcome State Fault Refusal :=
  st.runSts (.sts128 d a o) d a o 16

/-! ### Prefetch and fence (R240, R242) -/

/-- `PREF`: a hint, placed or dropped; no check is made of it. -/
def execPref (a o : BitVec 7) (st : State) : Host.Outcome State Fault Refusal :=
  st.issueAll (.pref a o) (fun s t _ =>
    let (id, s) := s.fresh
    s.issueL t { id := id, flag := none, entry := true, wait := .ready (s.cycle + 1) })

/-- `FENCE`: completes when the accesses that the thread issued before it have. -/
def execFence (st : State) : Host.Outcome State Fault Refusal :=
  st.issueAll .fence (fun s t _ =>
    let (id, s) := s.fresh
    s.issueL t { id := id, flag := none, entry := false,
                 wait := .ops ((t.lops.filter (fun x => x.access)).map (fun x => x.id)) })

end Sys2Proof.Machine
end

