-- ==== Sys2Proof/Machine/Fetch.lean ====
section
/-!
DEFINITION. From a program counter to an instruction: the clause read (spec/05_kelac_encoding.md R138 to R143; R44, R319),
readiness and the Gecko's bundles (spec/01_machine_model.md R22 to R27), the entries of the outstanding-transaction table
(R241), and the fields that `REP` steps (R198).
-/

namespace Sys2Proof.Machine

/-! ### The clause read (R138, R143, R319) -/

/-- Why a clause cannot be read. -/
inductive FetchFail where
  | trap (tr : Trap)
  | mem (f : EngFail)
  deriving DecidableEq, Repr

/-- What the read of a thread's clause gives: the clause, a failure with the header when that was read, or a wait for a line that the
host may hold (R412). -/
inductive Fetched where
  | code (c : Clause)
  | fail (f : FetchFail) (header : Option (BitVec 32))
  | wait
  deriving DecidableEq, Repr

/-- The capability a thread fetches through: the handler capability between trap entry and `TRET` (R319). -/
def State.fetchCap (s : State) (t : Thread) : CapW :=
  if t.hnd then ((s.ctx (s.ctxOf t)).map (fun x => x.hcap)).getD { lo := 0#64, hi := 0#64 } else s.codeCap t

/-- Code bytes of a context. -/
def State.codeRead (s : State) (c va n : Nat) : Except EngFail (List Byte) × State :=
  match s.engMap c .fetch va n with
  | (.error e, s) => (.error e, s)
  | (.ok l, s) =>
    match s.segPoison l with
    | some pa => (.error (.poison pa), s)
    | none => (.ok (s.segBytes l), s)

/-- A failed read as an outcome. -/
def Fetched.ofFail (header : Option (BitVec 32)) : EngFail → Fetched
  | .wait => .wait
  | e => .fail (.mem e) header

/-- The clause at a header: header word first, then its slots, all within the capability's range. -/
def State.readClause (s : State) (c : Nat) (cap : CapW) (h : Nat) : Fetched × State :=
  if h % 4 ≠ 0 then (.fail (.trap (alignTrap h)) none, s)
  else if cap.covers h 4 = false then (.fail (.trap (capTrap 4 h)) none, s)
  else
    match s.codeRead c h 4 with
    | (.error e, s) => (Fetched.ofFail none e, s)
    | (.ok hb, s) =>
      let header := BitVec.ofNat 32 (ofBytes hb)
      let n := hdrLen header + 1
      if cap.covers (h + 4) (4 * n) = false then (.fail (.trap (capTrap 4 h)) (some header), s)
      else
        match s.codeRead c (h + 4) (4 * n) with
        | (.error e, s) => (Fetched.ofFail (some header) e, s)
        | (.ok bs, s) => (.code { header := header, slots := (elemsOfBytes 4 n bs).map (BitVec.ofNat 32) }, s)

/-- The clause that a thread's next slot lies in: the one it read at its first slot, or a new read (R143). -/
def State.fetch (s : State) (t : Thread) : Fetched × State :=
  match (if t.pc.slot = 0 then none else t.clause) with
  | some c => (.code c, s)
  | none => s.readClause (s.ctxOf t) (s.fetchCap t) t.pc.hdr

/-! ### Repetition (R198) -/

/-- Whether D of a class-F opcode is a register field. -/
def stepsD (op : Nat) : Bool := !([0x00, 0x09, 0x0A, 0x0B, 0xE1, 0xE5, 0xEA, 0xEE, 0xEF].contains op)
/-- Whether A of a class-F opcode is a register field. -/
def stepsA (op : Nat) : Bool := !([0x00, 0x0A, 0x0B, 0x35, 0xC2, 0xE0, 0xE9].contains op)
/-- Whether B of a class-F opcode is a register field. -/
def stepsB (op : Nat) : Bool :=
  !([0x00, 0x09, 0x0A, 0x0B, 0x11, 0x1B, 0x1C, 0x21, 0x25, 0x26, 0x27, 0x29, 0x2A, 0x2B, 0x34, 0x35, 0x36, 0x46, 0x47, 0x54,
    0x56, 0x57, 0x58, 0x59, 0x5A, 0x5E, 0x9F, 0xC2, 0xE0, 0xE1, 0xE2, 0xE4, 0xE5, 0xE9, 0xEA, 0xEF].contains op)
/-- Whether the second word of a class-F opcode holds register C. -/
def stepsC (op : Nat) : Bool := [0x16, 0x2D, 0x33, 0x43].contains op

/-- The field f at a repeat that adds k: 127 is never stepped. -/
def stepField (on : Bool) (k : Nat) (f : RegField) : Nat := if on && f != 127#7 then f.toNat + k else f.toNat

/-- A stepped field as a field again. One that has reached 127 traps, and stands here for a register of its own parity, so that the
instruction's own checks come first: the register of a pair must be even (R146, R154). -/
def wrapField (x : Nat) : RegField := if x < 127 then BitVec.ofNat 7 x else BitVec.ofNat 7 (124 + x % 2)

/-- The instruction words of a repeat, with the first stepped field that reaches 127. -/
structure Stepped where
  word : BitVec 32
  next : Option (BitVec 32)
  past : Option Nat
  deriving DecidableEq, Repr

/-- Repeat r of the instruction in words w and n under the prefix p. -/
def stepWords (p w : BitVec 32) (n : Option (BitVec 32)) (r : Nat) : Stepped :=
  let k := r * (if p.getLsbD 6 then 2 else 1)
  let x := unpack w
  let op := x.op.toNat
  let c := (n.getD 0#32).setWidth 7
  let d := stepField (p.getLsbD 23 && stepsD op) k x.d
  let a := stepField (p.getLsbD 22 && stepsA op) k x.a
  let b := stepField (p.getLsbD 21 && stepsB op) k x.b
  let c' := stepField (p.getLsbD 21 && stepsC op) k c
  let past := fun (on : Bool) (f : RegField) (v : Nat) => if on && f != 127#7 && decide (127 ≤ v) then [v] else []
  let all := past (p.getLsbD 23 && stepsD op) x.d d ++ past (p.getLsbD 22 && stepsA op) x.a a
    ++ past (p.getLsbD 21 && stepsB op) x.b b ++ past (p.getLsbD 21 && stepsC op) c c'
  let keep := fun (f : RegField) (v : Nat) => if f = 127#7 then f else wrapField v
  { word := packR x.op x.t (keep x.d d) (keep x.a a) (keep x.b b)
    next := n.map (fun (y : BitVec 32) => if stepsC op then y.extractLsb' 7 25 ++ keep c c' else y)
    past := all.head? }

/-- What the slot of a program counter holds: an instruction, or the trap its words raise. -/
inductive SlotWord where
  | run (i : Instr)
  /-- The clause breaks a format rule: precise at slot 0 (R140, R202). -/
  | clauseFormat
  /-- `repctr` is not 0 and the slot does not repeat: precise at the slot (R199). -/
  | repeatFormat
  | illegal
  | range (i : Instr) (field : Nat)
  deriving DecidableEq, Repr

/-- The instruction of slot k of a clause for a thread whose `repctr` is rep (R140, R142, R151, R198). DESIGN CHOICE (log 52): a `repctr`
above the count of the `REP` word, which only a handler can leave, is a repeat that the word does not give. -/
def slotWord (c : Clause) (k rep : Nat) : SlotWord :=
  if clauseOk c = false ∨ hdrLen c.header < k ∨ isInstrSlot c k = false then .clauseFormat
  else
    let w := c.slots.getD k 0#32
    let n := if k < hdrLen c.header then c.slots[k + 1]? else none
    if rep = 0 then
      match decodeWords w n with
      | .ok i => .run i
      | .error _ => .illegal
    else
      let p := if k = 0 then 0#32 else c.slots.getD (k - 1) 0#32
      let count := bits p.toNat 5 0 + 1
      if k = 0 ∨ isInstrSlot c (k - 1) = false ∨ opOf p ≠ 0x0C ∨ count < rep then .repeatFormat
      else
        let x := stepWords p w n (count - rep)
        match decodeWords x.word x.next, x.past with
        | .error _, _ => .illegal
        | .ok i, some v => .range i v
        | .ok i, none => .run i

/-! ### Readiness (R23) and table entries (R241) -/

/-- Opcodes whose threads take an entry of the outstanding-transaction table (R241, R256, R278, R331). -/
def opTakesEntry (op : Nat) : Bool :=
  (0x70 ≤ op && op ≤ 0x7F) || (0x8A ≤ op && op ≤ 0x97) || (0xA0 ≤ op && op ≤ 0xA4) || op == 0xA8
    || (0xB0 ≤ op && op ≤ 0xB8) || op == 0xEB

/-- The bytes of an M-form load or store that may address the scratchpad window by its opcode (R216, R220, R221); 0 for an instruction that
takes its address from A alone. -/
def opBytes (op : Nat) : Nat :=
  match op with
  | 0x70 | 0x78 => 1
  | 0x71 | 0x79 => 2
  | 0x72 | 0x7A => 4
  | 0x73 | 0x7B | 0x7D => 8
  | 0x74 | 0x7C | 0x7E => 16
  | _ => 0

/-- Whether the address that a word's A pair and offset give is known to lie in the scratchpad window: nothing is under way to it. -/
def State.addrInScratch (s : State) (t : Thread) (w : BitVec 32) : Bool :=
  let x := unpack w
  let n := t.phys x.a
  !t.pend.any (fun p => p.regs.any (fun r => r.1 == n || r.1 == n + 1))
    && decide (Config.scratchWindow ≤ s.mAddr t x.a (if opBytes (opOf w) = 0 then 0#7 else x.b) (opBytes (opOf w)))

/-- Whether a thread needs an entry to issue the word of its slot: a plain load or store, or `STAMPSET.GRANULE`, needs none for the
scratchpad. -/
def State.needsEntry (s : State) (t : Thread) (w : BitVec 32) : Bool :=
  let op := opOf w
  opTakesEntry op && !((opBytes op != 0 || op == 0xEB) && s.addrInScratch t w) && (op != 0xEB || bits w.toNat 23 21 == 1)

/-- Whether a thread's crew may issue: its cohort has started and is not saved (R351, R356). -/
def State.crewRuns (s : State) (t : Thread) : Bool :=
  match s.cohortOf t with
  | none => true
  | some h => !h.saved && (match h.started with
      | some c => decide (c ≤ s.cycle)
      | none => false)

/-- Conditions 2 and 3 of R23: the flags that a clause header waits on, at its first slot, and its DIST. -/
def Thread.headerReady (t : Thread) (cycle : Nat) (header : BitVec 32) : Bool :=
  let waits := t.pc.slot == 0 && (List.range 12).any (fun f => bit (hdrWait header) f && t.flags.getD f 0 != 0)
  let far := match t.lastIssue with
    | some i => decide (i + 1 + hdrDist header ≤ cycle)
    | none => true
  !waits && far

/-- Conditions 2 to 4 of R23 for the slot a thread stands at in a clause. -/
def Thread.readyAt (t : Thread) (cycle : Nat) (c : Clause) : Bool :=
  let full := opClass (opOf (c.slots.getD t.pc.slot 0#32)) == .longLat
    && (match flagOfSlot c t.pc.slot with
      | some f => decide (63 ≤ t.flags.getD f 0)
      | none => false)
  t.headerReady cycle c.header && !full

/-- Opcodes of instructions that act on nothing but the thread's own registers and program counter, or that are accesses with places of
their own: a thread may issue them while its earlier accesses have no place yet. -/
def opLocal (op : Nat) : Bool :=
  op ≤ 0x03 || op == 0x06 || op == 0x0B || op == 0x0C || (0x10 ≤ op && op ≤ 0x5F) || (0x70 ≤ op && op ≤ 0x96)
    || (0x98 ≤ op && op ≤ 0x9F) || (0xE0 ≤ op && op ≤ 0xE6) || op == 0xEB

/-- A thread that meets conditions 1 to 4 of R23, as the Gecko sees it. -/
structure Ready where
  crew : Nat
  tid : Nat
  slot : Nat
  age : Nat
  pc : PC
  ctx : Nat
  rep : Nat
  entry : Bool
  f : Fetched
  deriving DecidableEq, Repr

/-- Judge one thread whose state lets it issue; `runs` says so of the state. While an earlier access of the thread has no place, its next
clause read, which takes its own place at once (R143), is still to come (DEDUCED, log 51). -/
def State.judge (s : State) (t0 : Thread) (runs : Thread → Bool) : Option Ready × State :=
  let t := t0.commit s.cycle
  if runs t = false ∨ s.cycle < t.notBefore ∨ s.crewRuns t = false then (none, s)
  else
    let (f, s) := s.fetch t
    let r : Ready :=
      { crew := t.crew, tid := t.tid, slot := ((s.crew t.crew).map (fun c => c.slot)).getD 0,
        age := s.cycle - t.readySince.getD s.cycle, pc := t.pc, ctx := s.ctxOf t, rep := t.repctr.toNat, entry := false, f := f }
    match f with
    | .wait => (none, s)
    | .fail _ header =>
      (if !s.hasLate t && (header.map (t.headerReady s.cycle)).getD true then some r else none, s)
    | .code c =>
      let w := c.slots.getD t.pc.slot 0#32
      (if t.readyAt s.cycle c && (!s.hasLate t || (t.pc.slot != 0 && opLocal (opOf w))) then some { r with entry := s.needsEntry t w } else none, s)

/-- Judge threads in order. -/
def State.judgeAll (runs : Thread → Bool) : List Thread → State → List Ready × State
  | [], s => ([], s)
  | t :: ts, s =>
    let (r, s) := s.judge t runs
    let (rs, s) := State.judgeAll runs ts s
    (r.toList ++ rs, s)

/-- The Gecko's order: greatest waiting age, then lowest crew slot, then lowest `tid` (R27). -/
def Ready.before (a b : Ready) : Bool :=
  decide (b.age < a.age) || (a.age == b.age && (decide (a.slot < b.slot) || (a.slot == b.slot && decide (a.tid ≤ b.tid))))

/-- Whether two ready threads may share a bundle: one program counter, one code, one repeat (R27, R198). -/
def Ready.joins (a b : Ready) : Bool := a.pc == b.pc && a.ctx == b.ctx && a.rep == b.rep && a.f == b.f

/-- Keep the threads of a bundle while the table has entries for them (R241). -/
def takeEntries : Nat → List Ready → List Ready
  | _, [] => []
  | free, r :: rs =>
    if r.entry then
      match free with
      | 0 => takeEntries 0 rs
      | free + 1 => r :: takeEntries free rs
    else r :: takeEntries free rs

/-- The bundle of a seed among candidates in the Gecko's order (R27). -/
def bundleOf (free : Nat) (seed : Ready) (l : List Ready) : List Ready := takeEntries free ((l.filter seed.joins).take 32)

/-- Note which threads of a partition are ready from this cycle on (R26); the ages of stopped threads are frozen (R338). -/
def State.noteReady (s : State) (core part : Nat) (rs : List Ready) : State :=
  s.mapThreads (fun t =>
    if s.coreOf t == core && t.partition == part && t.st != .stopped then
      if rs.any (fun r => r.crew == t.crew && r.tid == t.tid) then { t with readySince := some (t.readySince.getD s.cycle) }
      else { t with readySince := none }
    else t)

/-- The sleeping threads of a partition whose cycles are over wake (R201). -/
def State.wakeSleepers (s : State) (core part : Nat) : State :=
  s.mapThreads (fun t =>
    if s.coreOf t == core && t.partition == part && t.st == .sleeping 0 then { t with st := .running, notBefore := s.cycle } else t)

/-- The bundle that a partition issues in this cycle, with all its ready threads; none when it has no ready thread (R27). The threads that
R27 would take and that find no entry of the table are Waiting in this cycle (R241), and are not among the ready ones. A thread that
waits under R25 waits for threads that are ready. -/
def State.pick (s : State) (core part : Nat) : Option (List Ready × List Ready) × State :=
  let s := s.wakeSleepers core part
  let ts := s.threads.filter (fun t => s.coreOf t == core && t.partition == part)
  let (rs, s) := State.judgeAll (fun t => t.st == .running) ts s
  let free := Config.otEntries - s.entriesUsed core
  let rs := if free = 0 then rs.filter (fun r => !r.entry) else rs
  let waitsFor := fun (r : Ready) => ((s.thread r.crew r.tid).map (fun t => t.yieldFor)).getD []
  let yields := fun (r : Ready) => (waitsFor r).any (fun k => rs.any (fun q => q.crew == k.1 && q.tid == k.2))
  match sortBy Ready.before (rs.filter (fun r => !yields r)) with
  | [] => (none, s.noteReady core part rs)
  | seed :: l =>
    let all := (seed :: l).filter seed.joins |>.take 32
    let b := takeEntries free all
    let rs := rs.filter (fun r => !all.contains r || b.contains r)
    (some (b, rs), s.noteReady core part rs)

/-! ### Opening a bundle -/

/-- Apply f to each thread of a bundle. -/
def State.eachOf (s : State) (ks : List (Nat × Nat)) (f : State → Thread → State) : State :=
  ks.foldl (fun s k => match s.thread k.1 k.2 with
    | some t => f s (t.commit s.cycle)
    | none => s) s

/-- What a failed code access does to a thread (R31, R44, R344, R365). -/
def State.fetchFailed (s : State) (t : Thread) : EngFail → State
  | .held va kind => s.parkThread t va kind .fetch
  | .struct node => s.parkStructure t node
  | .violation pa => s.dataError t 2 pa
  | .poison pa => s.dataError t 1 pa
  | .host va => s.takeTrap t (capTrap 3 va)
  | .wait => s

/-- A trap of a thread without an instruction of its own, which waits for the places of its earlier accesses (R202). -/
def State.trapUnlessLate (s : State) (t : Thread) (tr : Trap) : State := if s.hasLate t then s.holdOff t else s.takeTrap t tr

/-- Open a bundle: latch the clause its threads have read, and find the instruction; without one, each thread takes its trap or
parks (R140, R142, R154). -/
def State.openBundle (s : State) (ks : List (Nat × Nat)) (pc : PC) (rep : Nat) (f : Fetched) : Except State (Instr × State) :=
  match f with
  | .wait => .error s
  | .fail (.trap tr) _ => .error (s.eachOf ks (fun s t => s.takeTrap t tr))
  | .fail (.mem e) _ => .error (s.eachOf ks (fun s t => s.fetchFailed t e))
  | .code c =>
    let s := s.eachOf ks (fun s t => s.setThread { t with clause := some c })
    match slotWord c pc.slot rep with
    | .run i => .ok (i, { s with bundle := ks })
    | .clauseFormat =>
      .error (s.eachOf ks (fun s t =>
        if s.hasLate t then s.holdOff t else s.takeTrapAt t { hdr := pc.hdr, slot := 0 } { code := 2, detail := pc.hdr }))
    | .repeatFormat => .error (s.eachOf ks (fun s t => s.trapUnlessLate t { code := 2, detail := pc.hdr }))
    | .illegal => .error (s.eachOf ks (fun s t => s.trapUnlessLate t (illegalTrap t)))
    | .range i v =>
      .error (s.eachOf ks (fun s t =>
        s.trapUnlessLate t (if Instr.privileged i && !s.isPriv t then { code := 3, detail := t.pc.hdr }
          else { code := 4, detail := v + t.wbase.toNat })))

/-! ### After a bundle -/

/-- Whether slot k of a clause is its last: it, or its second word, ends the clause. -/
def lastSlot (c : Clause) (k : Nat) : Bool :=
  decide (hdrLen c.header ≤ k) || (decide (hdrLen c.header ≤ k + 1) && isLongForm ((c.slots.getD k 0#32).extractLsb' 24 8))

/-- The threads of a bundle that issue the last slot of a clause with YIELD, when they issue (R25). -/
def Ready.yields (r : Ready) : Bool :=
  match r.f with
  | .code c => hdrYield c.header && lastSlot c r.pc.slot && decide (r.rep ≤ 1)
  | _ => false

/-- The bookkeeping after a bundle has issued: the partition has issued in this cycle; threads that wait under R25 stop waiting
for those of the bundle, and the bundle's own yielding threads begin to wait for the other ready threads. -/
def State.afterBundle (core part : Nat) (b rs : List Ready) (s : State) : State :=
  let inB := fun (cr tid : Nat) => b.any (fun r => r.crew == cr && r.tid == tid)
  let others := (rs.filter (fun r => !inB r.crew r.tid)).map (fun r => (r.crew, r.tid))
  let s := s.mapThreads (fun t =>
    if s.coreOf t == core && t.partition == part then
      let t := { t with yieldFor := t.yieldFor.filter (fun k => !inB k.1 k.2) }
      if inB t.crew t.tid then
        { t with
          readySince := none
          yieldFor := if b.any (fun r => r.crew == t.crew && r.tid == t.tid && r.yields) && t.lastIssue == some s.cycle then others
            else t.yieldFor }
      else t
    else t)
  { s with bundle := [], issuedNow := s.issuedNow ++ [(core, part)] }

/-- The partitions of a core in the order of R241, those that have issued in this cycle left out; the first of them. -/
def State.nextPart (s : State) (core : Nat) : Option Nat :=
  (listOf 4 (fun i => (s.cycle + i) % 4)).find? (fun p => !s.issuedNow.contains (core, p))

/-- The cores that hold crews. -/
def State.usedCores (s : State) : List Nat := (s.crews.map (fun c => c.core)).eraseDups

/-- The first core with a partition that has not issued in this cycle. -/
def State.nextCore (s : State) : Option Nat := s.usedCores.find? (fun k => (s.nextPart k).isSome)

end Sys2Proof.Machine
end

