-- ==== Sys2Proof/Machine/Privileged.lean ====
section
/-!
DEFINITION. The privileged instructions and the control and status registers (spec/15_privileged_state_and_traps.md R317 to
R334, R338, R339) and `PAGEDONE` (spec/17_translation_and_pagers.md R371, R372).
-/

namespace Sys2Proof.Machine

/-- A privilege trap (R324). -/
def privTrap (v : Thread) : Trap := { code := 3, detail := v.pc.hdr }

/-! ### Contexts that a thread may name -/

/-- The partition of a thread's context. -/
def State.partOf (s : State) (t : Thread) : Nat := ((s.ctx (s.ctxOf t)).map (fun x => x.part)).getD 0

/-- A context of the thread's partition. -/
def State.peerCtx (s : State) (t : Thread) (c : Nat) : Option Ctx := (s.ctx c).filter (fun x => x.part == s.partOf t)

/-! ### Register layouts (R321 to R323) -/

/-- `ctxid` of a context. -/
def Ctx.idWord (x : Ctx) : Word :=
  BitVec.ofNat 64 (b2n x.priv * 2 ^ 24 + x.prio % 8 * 2 ^ 20 + x.part % 8 * 2 ^ 16 + x.dcn % 64 * 2 ^ 8 + x.num % 64)

/-- `dbgst` of a context. -/
def Ctx.debugWord (x : Ctx) : Word :=
  BitVec.ofNat 64 (b2n x.dhalt * 2 ^ 63 + b2n x.refused * 2 ^ 62 + x.steps % 2 ^ 16 * 2 ^ 32)

/-- A PC in the layout of `epc`. -/
def PC.word (p : PC) : Word := BitVec.ofNat 64 (p.hdr % 2 ^ 56 * 256 + p.slot % 8)

/-- MBZ bits of `ctxctl`. -/
def ctlMbz (w : Word) : Bool := bits w.toNat 63 17 != 0 || bits w.toNat 15 12 != 0 || bits w.toNat 7 5 != 0
/-- Whether RZN of a `ctxctl` value is in its range (R36). -/
def rznOk (w : Word) : Bool := decide (10 ≤ bits w.toNat 4 0) && decide (bits w.toNat 4 0 ≤ 30)

/-! ### The debugger's items (R338, R339) -/

/-- The threads that a selector names in the partition of a thread, by context, cohort, crew and `tid`. -/
def State.selected (s : State) (t : Thread) (w : Word) : Option Thread :=
  let n := w.toNat
  if (s.peerCtx t (bits n 63 58)).isNone then none
  else
    let crews := s.crews.filter (fun c => c.ctx == bits n 63 58 && c.crewid == bits n 33 31
      && ((s.cohort c.cohort).map (fun h => h.cohortid)) == some (bits n 57 34))
    s.threads.find? (fun u => u.tid == bits n 9 0 && crews.any (fun c => c.uid == u.crew))

/-- The value and stamp of an item of a thread; none for an item that does not exist. -/
def State.debugItem (s : State) (u0 : Thread) (item : Nat) : Option Reg :=
  let u := u0.commit s.cycle
  if item < 256 then u.regs[item]?
  else if item = 256 then some { v := u.pc.word, s := sTimeless }
  else if 512 ≤ item ∧ sregReadable (item - 512) then some { v := s.sreg u (item - 512), s := sTimeless }
  else none

/-- The item that `dbgsel` of a thread selects, with its thread. -/
def State.debugSelected (s : State) (v : Thread) : Option (Thread × Nat × Reg) :=
  (s.selected v v.dbgsel).bind (fun u =>
    let item := bits v.dbgsel.toNat 30 20
    (s.debugItem u item).map (fun r => (u, item, r)))

/-- A write of the selected item, in flight like every write of a CSR but for the PC: none when its own checks fail. A register written
so keeps its stamp (R39). -/
def State.debugWrite (s : State) (u : Thread) (item : Nat) (w : Word) : Option State :=
  let put := fun (s : State) (p : Pend) => s.setThread { u with pend := u.pend ++ [{ p with due := s.cycle + 4 }] }
  if item < 256 then
    let old := (u.commit s.cycle).regs.getD item Reg.zero
    some (put s { due := 0, regs := [(item, { old with v := w })], tags := [(item / 2, false)] })
  else if item = 256 then
    if bits w.toNat 7 3 ≠ 0 then none
    else some (s.setThread { u with pc := { hdr := bits w.toNat 63 8, slot := bits w.toNat 2 0 }, clause := none })
  else if 512 ≤ item ∧ sregWritable (item - 512) ∧ sregValueOk (item - 512) w then some (put s (sregWrite (item - 512) w))
  else none

/-! ### `CSRR` (R320, R330) -/

/-- Whether a CSR is marked S. -/
def csrNeedsS (n : Nat) : Bool := n == 0x24 || (0x30 ≤ n && n ≤ 0x33) || (0x40 ≤ n && n ≤ 0x42) || n == 0x100

/-- `ctxctl` of a context as it reads in this cycle. -/
def State.ctlNow (s : State) (x : Ctx) : Word × State := pendingWord s.cycle x.pendCtl x.ctl s

/-- A register of a viewed context: 0 `ctxctl`, 1 `ctxid`, 2 `dbgst`, 3 `dbgwho`. -/
def State.ctxReg (s : State) (x : Ctx) (k : Nat) : Word × State :=
  match k with
  | 0 => s.ctlNow x
  | 1 => (x.idWord, s)
  | 2 => (x.debugWord, s)
  | _ => (x.dbgwho, s)

/-- The value of a thread-scope CSR. -/
def State.threadCsr (s : State) (v : Thread) (n : Nat) : Word :=
  match n with
  | 0 => v.ecause
  | 1 => v.epc
  | 2 => v.edetail
  | 3 => v.elanes
  | 4 => v.ewbase
  | 5 => v.erep
  | 6 => v.ememb
  | 7 => BitVec.ofNat 64 (b2n (s.privCtx v) * 2 + b2n v.hnd)
  | 0x24 => v.ctxsel.setWidth 64
  | _ => v.dbgsel

/-- What `CSRR` reads from CSR n, or its trap. -/
def State.csrRead (s : State) (v : Thread) (n : Nat) : Except Trap Word × State :=
  let ok := fun (r : Word × State) => ((.ok r.1 : Except Trap Word), r.2)
  if csrNeedsS n && !s.isS v then (.error (privTrap v), s)
  else if n ≤ 7 ∨ n = 0x24 ∨ n = 0x40 then (.ok (s.threadCsr v n), s)
  else if n = 0x10 then
    match s.crew v.crew with
    | some c => ok (pendingWord s.cycle c.pendTvec c.tvec s)
    | none => (.error (illegalTrap v), s)
  else if 0x20 ≤ n ∧ n ≤ 0x23 then
    match s.ctx (s.ctxOf v) with
    | some x => ok (s.ctxReg x (n - 0x20))
    | none => (.error (illegalTrap v), s)
  else if 0x30 ≤ n ∧ n ≤ 0x33 then
    match s.peerCtx v v.ctxsel.toNat with
    | some x => ok (s.ctxReg x (n - 0x30))
    | none => (.error (illegalTrap v), s)
  else if n = 0x41 ∨ n = 0x42 then
    match s.debugSelected v with
    | some (_, _, r) => (.ok (if n = 0x41 then r.v else (Stamp.shown r.s).setWidth 64), s)
    | none => (.error (illegalTrap v), s)
  else if n = 0x100 then ok (pendingWord s.cycle (s.part (s.partOf v)).pendPol (s.part (s.partOf v)).cpol s)
  else (.error (illegalTrap v), s)

/-- `CSRR`. -/
def execCsrr (t : BitVec 3) (d k : BitVec 7) (s : State) : Host.Outcome State Fault Refusal :=
  s.issueAll (.csrr t d k) (fun s th v =>
    match s.csrRead v (128 * t.toNat + k.toNat) with
    | (.error tr, s) => s.takeTrap th tr
    | (.ok w, s) => s.issueF th 1 { due := 0, regs := s.regOut v d w sTimeless, tags := v.tagOut d })

/-! ### `CSRW` (R320 to R323, R328, R330, R341) -/

/-- A write to a thread-scope CSR that R321 allows. -/
def threadCsrOk (v : Thread) (n : Nat) (w : Word) : Bool :=
  let x := w.toNat
  match n with
  | 1 => bits x 7 0 == 0
  | 4 => bits x 63 8 == 0 && bits x 2 0 == 0 && decide (bits x 7 0 < v.regs.length)
  | 5 => bits x 63 7 == 0 && decide (x ≤ 64)
  | 6 => bits x 63 8 == 0
  | _ => bits x 19 10 == 0

/-- Apply a write of `ememb`: bit k says whether the thread's lane is in the member mask of cbk (R328). -/
def State.writeMemb (s : State) (t : Thread) (w : Word) : State :=
  (List.range 8).foldl (fun s k =>
    s.modCrew t.crew (fun c => c.modCb t.team k (fun b =>
      { b with mask := if w.getLsbD k then b.mask ||| (1#32 <<< t.lane) else b.mask &&& ~~~(1#32 <<< t.lane) }))) s

/-- The key of a write that a thread issues now. -/
def State.keyOf (s : State) (t : Thread) : Nat :=
  writeKey (s.cycle + 4) (((s.crew t.crew).map (fun c => c.slot)).getD 0) t.tid

/-- A write of `ctxctl` of a context by a thread: the trap it takes, or the state with the write under way. -/
def State.writeCtl (s : State) (v : Thread) (x : Ctx) (w : Word) : Except Trap Unit × State :=
  let (cur, s) := s.ctlNow x
  if ctlMbz w then (.error (illegalTrap v), s)
  else if w.getLsbD 16 && !s.agreed 6 then (.error (illegalTrap v), s)
  else if w.getLsbD 16 != cur.getLsbD 16 && !s.isS v then (.error (privTrap v), s)
  else if rznOk w = false then (.error (illegalTrap v), s)
  else (.ok (), s.modCtx x.num (fun x => { x with pendCtl := addWrite x.pendCtl (s.keyOf v) w }))

/-- What `CSRW` of CSR n with value w does to a thread: its trap, or the state, with the results in flight. -/
def State.csrWrite (s : State) (v : Thread) (n : Nat) (w : Word) : Except Trap Pend × State :=
  let none' : Pend := { due := 0 }
  let bad : Except Trap Pend × State := (.error (illegalTrap v), s)
  let done := fun (r : Except Trap Unit × State) =>
    match r with
    | (.ok _, s) => ((.ok none' : Except Trap Pend), s)
    | (.error tr, s) => (.error tr, s)
  if csrNeedsS n && !s.isS v then (.error (privTrap v), s)
  else if n = 6 then
    if threadCsrOk v 6 w then
      let s := s.writeMemb v w
      (.ok none', match s.thread v.crew v.tid with
        | some t => s.setThread { t with ememb := w }
        | none => s)
    else bad
  else if n = 1 ∨ n = 4 ∨ n = 5 ∨ n = 0x40 then
    if threadCsrOk v n w then (.ok { due := 0, sregs := [(1024 + n, w)] }, s) else bad
  else if n = 0x24 then
    if bits w.toNat 63 6 ≠ 0 ∨ (s.peerCtx v (bits w.toNat 5 0)).isNone then bad
    else (.ok { due := 0, sregs := [(1060, w)] }, s)
  else if n = 0x10 then
    if bits w.toNat 63 52 ≠ 0 ∨ bits w.toNat 31 8 ≠ 0 ∨ bits w.toNat 2 0 ≠ 0 then bad
    else (.ok none', s.modCrew v.crew (fun c => { c with pendTvec := addWrite c.pendTvec (s.keyOf v) w }))
  else if n = 0x20 then
    match s.ctx (s.ctxOf v) with
    | some x => done (s.writeCtl v x w)
    | none => bad
  else if n = 0x30 then
    match s.peerCtx v v.ctxsel.toNat with
    | some x => done (s.writeCtl v x w)
    | none => bad
  else if n = 0x41 then
    match s.debugSelected v with
    | some (u, item, _) =>
      if ((s.ctx (s.ctxOf u)).map (fun x => x.dhalt)).getD false = false then bad
      else
        match s.debugWrite u item w with
        | some s => (.ok none', s)
        | none => bad
    | none => bad
  else if n = 0x100 then
    if bits w.toNat 63 16 ≠ 0 ∨ bits w.toNat 7 3 ≠ 0 ∨ (s.agreed 7 = false ∧ bits w.toNat 2 1 ≠ 0) then bad
    else (.ok none', s.modPart (s.partOf v) (fun p => { p with pendPol := addWrite p.pendPol (s.keyOf v) w }))
  else bad

/-- `CSRW`. -/
def execCsrw (t : BitVec 3) (a k : BitVec 7) (s : State) : Host.Outcome State Fault Refusal :=
  s.issueThen (.csrw t a k) (fun s th v =>
    match s.csrWrite v (128 * t.toNat + k.toNat) (v.val a) with
    | (.error tr, s) => s.takeTrap th tr
    | (.ok p, s) =>
      match s.thread th.crew th.tid with
      | some th' => s.issueF (th'.commit s.cycle) 1 p
      | none => s) State.settle

/-! ### `TRET` (R327) -/

/-- `TRET`. -/
def execTret (s : State) : Host.Outcome State Fault Refusal :=
  s.issueAll .tret (fun s t v =>
    if t.hnd = false then s.takeTrap t (illegalTrap v)
    else s.setThread { (t.returnFromTrap v) with lastIssue := some s.cycle, readySince := none })

/-! ### `STAMPSET` (R331) -/

/-- `STAMPSET.REG`. -/
def execStampsetReg (d a b : BitVec 7) (s : State) : Host.Outcome State Fault Refusal :=
  s.issueAll (.stampsetReg d a b) (fun s t v =>
    let st := normaliseStamp s.now ((v.val b).setWidth 32)
    let (id, s) := s.fresh
    s.issueL t { id := id, flag := none, entry := false, wait := .ready (s.cycle + 1),
                 regs := s.regOut v d (v.val a) st, tags := v.tagOut d })

/-- The checks of `STAMPSET.GRANULE`: those of R218 for the byte at the cursor, needing RESTAMP. -/
def stampsetCheck (a : RegField) (s : State) (v : Thread) : Except Trap Place :=
  s.memCheck v a pRestamp (s.addrBase v a) 1 1 true

/-- `STAMPSET.GRANULE`. -/
def execStampsetGranule (a b : BitVec 7) (s : State) : Host.Outcome State Fault Refusal :=
  s.issueWith (.stampsetGranule a b) (fun vs s t v =>
    let st := normaliseStamp s.now ((v.val b).setWidth 32)
    match stampsetCheck a s v with
    | .error tr => s.trapAt t v vs (fun s u => isScratchTrap (stampsetCheck a s u)) tr
    | .ok (.scratch off) => (s.modScratch t (fun m => (m.putStamp (off / 32) st).noteWrite (off / 32))).finishStore t false
    | .ok (.virt va) =>
      match s.reach t .store va 1 false with
      | .error s => s
      | .ok (pa, host, s) => (s.modStore host (fun m => (m.putStamp (pa / 32) st).noteWrite (pa / 32))).finishStore t true) id

/-! ### `TLBINV` (R332) -/

/-- Whether a cached translation is named by an invalidation of scope 0 to 3. -/
def TlbEntry.named (e : TlbEntry) (scope own ctx va : Nat) (inPart : Nat → Bool) : Bool :=
  match scope with
  | 0 => e.ctx == own && e.vpn == va / 2 ^ levelShift e.level
  | 1 => e.ctx == own
  | 2 => e.ctx == ctx
  | _ => inPart e.ctx

/-- The accesses of a partition's threads that have not completed. -/
def State.openAccesses (s : State) (part : Nat) : List (Nat × Nat × Nat) :=
  (s.threads.filter (fun t => s.partOf t == part)).flatMap (fun t =>
    (t.lops.filter (fun o => o.access)).map (fun o => (t.crew, t.tid, o.id)))

/-- `TLBINV`: until its flag falls an access may use the old or the new translation; then the cached ones are gone (R332, R364). -/
def execTlbinv (a b : BitVec 7) (s : State) : Host.Outcome State Fault Refusal :=
  s.issueAll (.tlbinv a b) (fun s t v =>
    let w := (v.val b).toNat
    let scope := bits w 1 0
    if bits w 63 14 ≠ 0 ∨ bits w 7 2 ≠ 0 then s.takeTrap t (illegalTrap v)
    else if 2 ≤ scope ∧ s.isS v = false then s.takeTrap t (privTrap v)
    else if scope = 2 ∧ (s.peerCtx v (bits w 13 8)).isNone then s.takeTrap t (illegalTrap v)
    else
      let gone := fun (e : TlbEntry) =>
        e.named scope (s.ctxOf v) (bits w 13 8) (bits (v.val a).toNat 55 0) (fun c => (s.peerCtx v c).isSome)
      let waits := s.openAccesses (s.partOf v)
      let keys := (s.tlb.filter gone).map (fun e => (e.ctx, e.level, e.vpn))
      let (id, s) := s.fresh
      s.issueL t { id := id, flag := none, entry := false, wait := .accesses waits keys.eraseDups })

/-! ### `CMAPW` (R333) -/

/-- A core map entry. -/
def CoreEntry.word (e : CoreEntry) (part : Nat) : Word :=
  BitVec.ofNat 64 (b2n e.fenced * 2 ^ 9 + b2n e.avail * 2 ^ 8 + part % 8)

/-- `CMAPW`. -/
def execCmapw (d a b : BitVec 7) (s : State) : Host.Outcome State Fault Refusal :=
  s.issueAll (.cmapw d a b) (fun s t v =>
    let k := (v.val a).toNat
    let w := (v.val b).toNat
    if s.isS v = false then s.takeTrap t (privTrap v)
    else if 3071 < k ∨ (s.part (s.partOf v)).dies.getLsbD (dieOf k) = false ∨ bits w 62 10 ≠ 0 ∨ bits w 7 3 ≠ 0 then
      s.takeTrap t (illegalTrap v)
    else
      let e := s.coreEntry k
      let s := if bit w 63 then s else s.setCoreEntry { e with next := some (bit w 8 && !e.fenced) }
      s.issueF t 1 { due := 0, regs := s.regOut v d (e.word (s.partOfDie (dieOf k))) sTimeless, tags := v.tagOut d })

/-! ### `HALTC` (R334, R338) -/

/-- Resume a context: a debug halt ends, a halt that has completed is undone and the context waits to be restored, one that is
still stopping takes note (R334, R354). -/
def State.resumeCtx (s : State) (x : Ctx) : State :=
  if x.dhalt then (s.setCtx { x with dhalt := false }).wakeThreads x.num
  else
    match x.stop with
    | some st => if st.kind = .halt then s.setCtx { x with stop := some { st with resumeAsked := true } } else s
    | none =>
      if x.halted = false then s
      else
        let s := s.setCtx { x with halted := false }
        if x.saved then s else s.wakeThreads x.num

/-- One operation of `HALTC` on a context. -/
def State.haltOp (s : State) (t v : Thread) (x : Ctx) (op : Nat) : State :=
  match op with
  | 0 => (s.askHalt x []).issueF t 1 { due := 0 }
  | 1 => (if x.num = s.ctxOf t then s else s.resumeCtx x).issueF t 1 { due := 0 }
  | _ =>
    let (ctl, s) := s.ctlNow x
    if ctl.getLsbD 16 = false then s.takeTrap t (illegalTrap v) else (s.debugHalt x.num 0#64).issueF t 1 { due := 0 }

/-- `HALTC`: the word is one for all operations, and B says which. -/
def State.runHaltc (s : State) (i : Instr) (a b : RegField) : Host.Outcome State Fault Refusal :=
  s.issueAll i (fun s t v =>
    let c := (v.val a).toNat
    let op := (v.val b).toNat
    if bits c 63 6 ≠ 0 ∨ 3 ≤ op then s.takeTrap t (illegalTrap v)
    else
      match s.peerCtx v c with
      | none => s.takeTrap t (illegalTrap v)
      | some x => if c ≠ s.ctxOf v ∧ s.isS v = false then s.takeTrap t (privTrap v) else s.haltOp t v x op)

/-- `HALTC`, operation 0 in B. -/
def execHaltcHalt (a b : BitVec 7) (s : State) : Host.Outcome State Fault Refusal := s.runHaltc (.haltcHalt a b) a b
/-- `HALTC` as the table's second row of the same word. -/
def execHaltcResume (a b : BitVec 7) (s : State) : Host.Outcome State Fault Refusal := s.runHaltc (.haltcResume a b) a b
/-- `HALTC` as the table's third row of the same word. -/
def execHaltcDebugHalt (a b : BitVec 7) (s : State) : Host.Outcome State Fault Refusal := s.runHaltc (.haltcDebugHalt a b) a b

/-! ### `DBGSTEP` (R339) -/

/-- Whether a stopped thread would run on when it is let go. -/
def Thread.steppable (t : Thread) : Bool := t.st == .stopped && t.resume == .running

/-- A debug step of a context that does not go ahead. -/
def State.stepRefused (s : State) (c : Nat) : State := s.modCtx c (fun x => { x with refused := true })
/-- A debug step of a context that has gone ahead. -/
def State.stepTaken (s : State) (c : Nat) : State :=
  s.modCtx c (fun x => { x with refused := false, steps := (x.steps + 1) % 2 ^ 16 })

/-- Whether a debug step seeded by a thread of a context goes ahead. -/
def State.stepOk (s : State) (x : Ctx) (u : Option Thread) : Bool × State :=
  match u with
  | none => (false, s)
  | some u =>
    if x.dhalt = false then (false, s)
    else
      let (r, s) := s.judge u Thread.steppable
      match r with
      | none => (false, s)
      | some r => (!r.entry || decide (s.entriesUsed (s.coreOf u) < Config.otEntries), s)

/-- `DBGSTEP`: a step that cannot go ahead sets REFUSED at once; else the focus's bundle moves next, and STEPS or REFUSED is written then,
as the state has it. -/
def execDbgstep (a : BitVec 7) (s : State) : Host.Outcome State Fault Refusal :=
  s.issueAll (.dbgstep a) (fun s t v =>
    let w := v.val a
    if s.isS v = false then s.takeTrap t (privTrap v)
    else if bits w.toNat 30 10 ≠ 0 then s.takeTrap t (illegalTrap v)
    else
      match s.peerCtx v (bits w.toNat 63 58) with
      | none => s.takeTrap t (illegalTrap v)
      | some x =>
        let u := s.selected v w
        let (ok, s) := s.stepOk x u
        let s := match ok, u with
          | true, some u => { s with agenda := .debugStep u.crew u.tid :: s.agenda }
          | _, _ => s.stepRefused x.num
        s.issueF t 1 { due := 0 })

/-- The bundle of a debug step: Stopped threads of the focus's crew and partition, the focus first (R339). -/
def State.pickStep (s : State) (cr tid : Nat) : Option (List Ready) × State :=
  match s.thread cr tid with
  | none => (none, s)
  | some u =>
    let ts := s.threads.filter (fun t => t.crew == cr && t.partition == u.partition)
    let (rs, s) := State.judgeAll Thread.steppable ts s
    match rs.find? (fun r => r.crew == cr && r.tid == tid) with
    | none => (none, s)
    | some seed =>
      let rest := sortBy Ready.before (rs.filter (fun r => r.tid != tid))
      (some (bundleOf (Config.otEntries - s.entriesUsed (s.coreOf u)) seed (seed :: rest)), s)

/-- Let the threads of a debug step run for it. -/
def State.letGo (s : State) (ks : List (Nat × Nat)) : State :=
  s.mapThreads (fun t => if ks.contains (t.crew, t.tid) then { t with st := .running } else t)

/-- The threads of a debug step return to Stopped after it. -/
def State.stopAgain (s : State) (ks : List (Nat × Nat)) : State :=
  { s.mapThreads (fun t =>
      if ks.contains (t.crew, t.tid) then
        match t.st with
        | .exited => t
        | .escalated => t
        | .stopped => t
        | st => { t with st := .stopped, resume := st }
      else t) with bundle := [] }

/-! ### Unassigned opcodes (R151) -/

/-- `UNASSIGNED_OPCODE`: an illegal-instruction trap for each thread of the bundle. -/
def execUnassignedOpcode (_w : BitVec 32) (s : State) : Host.Outcome State Fault Refusal :=
  s.issueAll .nop (fun s t v => s.takeTrap t (illegalTrap v))

/-! ### `PAGEDONE` (R371, R372) -/

/-- The checks of `PAGEDONE` at issue, in R371's order. -/
def pagedoneCheck (a b : RegField) (v : Thread) : Option Trap :=
  let w := (v.val b).toNat
  let c := v.capAt a
  if 3 ≤ w then some (illegalTrap v)
  else if v.tagAt a = false then some (capTrap 1 c.cursor)
  else if c.has pPager = false then some (capTrap 2 c.cursor)
  else if Config.scratchWindow ≤ c.cursor then some (capTrap 3 c.cursor)
  else if c.covers c.cursor 32 = false then some (capTrap 4 c.cursor)
  else if c.cursor % 32 ≠ 0 then some (alignTrap c.cursor)
  else none

/-- The pager whose outstanding record with a tag lies at an address of context c: its context, itself and the record (R369). -/
def State.recordAt (s : State) (c va tag : Nat) : Option (Nat × Pager × PRec) :=
  match s.ctx c with
  | none => none
  | some x =>
    s.ctxs.findSome? (fun y => y.pagers.findSome? (fun p =>
      if p.sctx != c then none
      else
        match lbufOf x.rmap p.qlb with
        | none => none
        | some b =>
          (p.recs.find? (fun r => r.n + 1 == tag && b.ver.va + 32 * (r.n % 2 ^ p.logq) == va)).map (fun r => (y.num, p, r))))

/-- The pager-held leaf that maps an address: the place of its entry and the entry, none when the walk ends otherwise; or how the walk
fails: a violation, a poisoned entry (R44), a line that the host may hold (R362, R371). -/
def State.heldLeaf (part va : Nat) : Nat → Nat → Bool → State → (Walk ⊕ Option (Nat × Bool × Nat)) × State
  | level, node, host, s =>
    let a := node + 8 * walkIndex level va
    if (if host then !s.hostOpen part a 8 else !s.inWindows part a 8) then (.inl (.violation a), s)
    else
      match s.readEntry a host with
      | (.inl w, s) => (.inl w, s)
      | (.inr e, s) =>
        if entryBad level e then (.inr none, s)
        else if bits e 1 0 = 3 then (.inr (some (a, host, e)), s)
        else if bits e 1 0 ≠ 1 ∨ bit e 2 ∨ 2 ≤ bits e 4 3 then (.inr none, s)
        else
          match level with
          | 0 => (.inr none, s)
          | level + 1 => State.heldLeaf part va level (bits e 51 12 * 4096) (bits e 4 3 == 1) s

/-- Turn the pager-held leaf of an address into a leaf, or say how the walk fails. -/
def State.mapHeld (s : State) (c va : Nat) : Except Walk Unit × State :=
  match s.ctx c with
  | none => (.ok (), s)
  | some x =>
    match State.heldLeaf x.part va 3 x.root false s with
    | (.inl w, s) => (.error w, s)
    | (.inr none, s) => (.ok (), s)
    | (.inr (some (a, host, e)), s) =>
      (.ok (), s.modStore host (fun m => m.engineWrite s.now a (toBytes 8 (e - 1)) (fun _ => sTimeless)))

/-- End the waiting of an agent that joined a resolved record. -/
def State.wakeJoined (s : State) : Joiner → State
  | .thread cr tid =>
    match s.thread cr tid with
    | none => s
    | some t =>
      match t.st, t.resume with
      | .parked (.pager _ _), _ =>
        s.setThread { t with st := .running, resumedAt := some s.cycle, notBefore := s.cycle + 1, readySince := none }
      | .stopped, .parked (.pager _ _) => s.setThread { t with resume := .running, resumedAt := some s.cycle, notBefore := s.cycle + 1 }
      | _, _ => s
  | .packet e p =>
    match s.engine e with
    | none => s
    | some x => s.setEngine { x with held := x.held.filter (fun n => n != p) }
  | .command cr id =>
    s.modCrew cr (fun c => { c with mq := c.mq.map (fun m => if m.id == id then { m with held := false } else m) })
  | .retirement _ => s
  | .task _ _ => s
  | .fabric _ => s

/-- Fail an agent that joined a record: it stays where it is and its task takes code 0x22; a retirement write is dropped with a
record (R439), and the sender of a fabric packet gets a reject. -/
def State.failJoined (s : State) (va : Nat) : Joiner → State
  | .thread cr tid =>
    match s.thread cr tid with
    | none => s
    | some t =>
      let f : TFault := { code := 0x22, sub := 0, detail := va }
      let s := s.holdFault (s.ctxOf t) (s.taskOf t) f
      match t.st, t.resume with
      | .parked (.pager _ _), _ => s.setThread { t with st := .parked .untilSquash }
      | .stopped, .parked (.pager _ _) => s.setThread { t with resume := .parked .untilSquash }
      | _, _ => s
  | .packet e _ =>
    match s.engine e with
    | none => s
    | some x => s.holdFault x.ctx x.task { code := 0x22, sub := 0, detail := va }
  | .command cr _ =>
    match s.crew cr with
    | none => s
    | some c => s.holdFault c.ctx c.task { code := 0x22, sub := 0, detail := va }
  | .retirement c => s.modCtx c (fun x => { x with dropWrite := some va })
  | .task c t => s.holdFault c t { code := 0x22, sub := 0, detail := va }
  | .fabric n => s.rejectHeld n va

/-- The outstanding record of a destroyed context with a tag that lies at an address of context c (R371). -/
def State.orphanAt (s : State) (c va tag : Nat) : Option (Nat × Nat × Nat) :=
  match s.ctx c with
  | none => none
  | some x => x.orphans.find? (fun o =>
      o.2.2 + 1 == tag && ((lbufOf x.rmap o.1).map (fun b => b.ver.va + 32 * (o.2.2 % 2 ^ o.2.1) == va)).getD false)

/-- Free the record at a place: its word 0 becomes 0. -/
def State.freeRecord (s : State) (pa : Nat) (host : Bool) : State :=
  s.modStore host (fun m => m.engineWrite s.now pa (toBytes 8 0) (fun _ => sTimeless))

/-- `PAGEDONE` once its record is reached: one event with all its effects, or how its walk fails, with no effect. -/
def State.pageDone (s : State) (c va pa : Nat) (host : Bool) (act : Nat) : Except Walk Unit × State :=
  let m := s.store host
  let tag := m.readNat pa 8
  let target := bits (m.readNat (pa + 8) 8) 53 48
  let unitVa := bits (m.readNat (pa + 16) 8) 55 0
  match s.recordAt c va tag with
  | none =>
    (.ok (), match s.orphanAt c va tag with
      | none => s
      | some o => (s.freeRecord pa host).modCtx c (fun x => { x with orphans := x.orphans.erase o }))
  | some (owner, p, r) =>
    match (if act = 1 then s.mapHeld target unitVa else (.ok (), s)) with
    | (.error w, s) => (.error w, s)
    | (.ok _, s) =>
      let s := (s.freeRecord pa host).modCtx owner (fun x => x.modPager p.p (fun q => { q with recs := q.recs.filter (fun y => y.n != r.n) }))
      (.ok (), r.joined.foldl (fun s j => if act = 2 then s.failJoined unitVa j.1 else s.wakeJoined j.1) s)

/-- `PAGEDONE`: the word is one for all actions, and B says which. -/
def State.runPagedone (s : State) (i : Instr) (a b : RegField) : Host.Outcome State Fault Refusal :=
  s.issueAll i (fun s t v =>
    match pagedoneCheck a b v with
    | some tr => s.takeTrap t tr
    | none =>
      let va := (v.capAt a).cursor
      match s.reach t .atomic va 32 true with
      | .error s => s
      | .ok (pa, host, s) =>
        if (s.store host).anyPoison pa 32 then s.dataError t 1 pa
        else
          match s.pageDone (s.ctxOf t) va pa host ((v.val b).toNat) with
          | (.error .wait, s1) => { s.asking s1 with issuing := .stalled }
          | (.error w, s) => s.walkFailed t va .atomic w
          | (.ok _, s) =>
            match s.thread t.crew t.tid with
            | none => s
            | some u =>
              let (id, s) := s.fresh
              s.issueL (u.commit s.cycle) { id := id, flag := none, entry := false, access := true, wait := .ready (s.cycle + 1) })

/-- `PAGEDONE`, action 0 in B. -/
def execPagedoneResume (a b : BitVec 7) (s : State) : Host.Outcome State Fault Refusal :=
  s.runPagedone (.pagedoneResume a b) a b
/-- `PAGEDONE` as the table's second row of the same word. -/
def execPagedoneMap (a b : BitVec 7) (s : State) : Host.Outcome State Fault Refusal := s.runPagedone (.pagedoneMap a b) a b
/-- `PAGEDONE` as the table's third row of the same word. -/
def execPagedoneFail (a b : BitVec 7) (s : State) : Host.Outcome State Fault Refusal := s.runPagedone (.pagedoneFail a b) a b

end Sys2Proof.Machine
end

