-- ==== Sys2Proof/Machine/Squash.lean ====
section
/-!
DEFINITION. The squash of tasks (spec/03_task_stream.md R87, R88, R94; R312 of spec/13_program_fresh_egress.md): the end of a
task's work, the restoring of what it wrote in place, and the return of its versions and of its ingress data.
-/

namespace Sys2Proof.Machine

/-- The island of a cluster: 12 clusters each. -/
def islandOf (q : Nat) : Nat := q / 12

/-- Whether an island holds a resident crew. -/
def State.islandBusy (s : State) (i : Nat) : Bool := s.cohorts.any (fun h => !h.saved && islandOf h.cluster == i)

/-- An island that has just lost a crew or a cohort is idle from now on when it holds no other. -/
def State.noteIdle (s : State) (q : Nat) : State :=
  if s.islandBusy (islandOf q) then s
  else { s with islands := modifyAt (fun i => { i with idleSince := s.now }) (islandOf q) s.islands }

/-- Remove every thread, crew, cohort and engine thread of a context, or of one of its tasks; delivery tags and rendezvous go
with the crews (R18, R269). -/
def State.killWork (s : State) (mine : Nat → Nat → Bool) : State :=
  let gone := (s.crews.filter (fun c => mine c.ctx c.task)).map (fun c => c.uid)
  let qs := (s.cohorts.filter (fun h => mine h.ctx h.task && !h.saved)).map (fun h => h.cluster)
  let s := { s with
    threads := s.threads.filter (fun t => !gone.contains t.crew)
    crews := s.crews.filter (fun c => !mine c.ctx c.task)
    cohorts := s.cohorts.filter (fun h => !mine h.ctx h.task)
    engines := s.engines.filter (fun e => !mine e.ctx e.task) }
  let s := qs.foldl State.noteIdle s
  { s with ctxs := s.ctxs.map (fun x =>
      { x with dtags := x.dtags.filter (fun g => !gone.contains g.crew), sbars := x.sbars.filter (fun b => !mine x.num b.task) }) }

/-- The staging version of an effect. -/
def Staged.block (g : Staged) : List Ver :=
  match g.kind with
  | .record _ _ _ b => b.toList
  | .hostCopy _ _ _ b => b.toList
  | _ => []

/-- Keep what a copy has taken from its ingress port for its replay (R94); a re-issued copy leaves nothing. -/
def Ctx.untake (x : Ctx) (t : Task) : Ctx :=
  if t.op = 0x04 ∧ t.skipped = false ∧ t.srck = 2 ∧ t.order = t.uid then
    { x with ports := x.ports.map (fun p => if p.n == t.cport then { p with back := t.taken ++ p.back } else p) }
  else x

/-- Stop the work of a task, restore what it wrote in place, and free its undo and staging versions. -/
def State.undoTask (s : State) (c : Nat) (t : Task) : State :=
  let s := s.killWork (fun k u => k == c && u == t.uid)
  let s := t.undo.foldl (fun s u => s.restoreRegion c u.1 u.2) s
  s.freeBlocks c (t.undo.map (fun u => u.2) ++ t.staged.flatMap Staged.block)

/-- Squash a task: its work, its in-place writes, its versions; it leaves the window. -/
def State.squashTask (c : Nat) (s : State) (t : Task) : State :=
  ((s.undoTask c t).freeBlocks c t.news).modCtx c (fun x =>
    { (x.untake t) with window := x.window.filter (fun y => y.uid != t.uid) })

/-- Squash tasks, the youngest first. -/
def State.squashAll (s : State) (c : Nat) (l : List Task) : State := l.reverse.foldl (State.squashTask c) s

/-- Squash the whole window and return to the retired state. -/
def State.squashWindow (s : State) (c : Nat) : State :=
  match s.ctx c with
  | none => s
  | some x => (s.squashAll c x.window).modCtx c (fun x => { x with accept := x.retired, map := x.rmap })

end Sys2Proof.Machine
end

