-- ==== Sys2Proof/Machine/TaskAccept.lean ====
section
/-!
DEFINITION. Acceptance of task slots (spec/03_task_stream.md R64 to R82, R90 to R108; R271 of spec/09_async_and_egress.md; R337
of spec/15_privileged_state_and_traps.md; R368 of spec/17_translation_and_pagers.md; R386 to R388 of
spec/18_optical_fabric.md): predicates, cells, operand memory, renaming, stream control; one function for each opcode.
-/

namespace Sys2Proof.Machine

/-! ### Outcomes -/

/-- What acceptance of a slot gives: the sequencer waits, the task enters with a fault, or it enters as decoded. -/
inductive Accepted where
  | stall (s : State)
  | fault (f : TFault) (s : State)
  | ok (t : Task) (s : State)
  deriving DecidableEq, Repr

/-- The illegal-task fault of a task (R324). -/
def Task.illegal (t : Task) : TFault := { code := 0x20, sub := 0, detail := t.addr }

/-- Renaming that finds no version: acceptance stalls, or the task enters as the oldest with buffer exhaustion (R81). -/
def Ctx.exhausted (x : Ctx) (t : Task) (s : State) (cls : Nat) : Accepted :=
  if x.window.isEmpty && !s.poolWaits x then .fault { code := 0x21, sub := cls, detail := t.addr } s else .stall s

/-- A cell read at acceptance (R73). -/
inductive CellRead where
  | illegal
  | stall (s : State)
  | fault (f : TFault) (s : State)
  | ok (v : Word) (s : State)
  deriving DecidableEq, Repr

/-- Read the cell w names for a task of context x (R72, R73). -/
def State.readCell (s : State) (x : Ctx) (w : Word) : CellRead :=
  match decodeCell w with
  | none => .illegal
  | some c =>
    match cellVa x.map 8 c with
    | none => .illegal
    | some va =>
      if x.window.any (fun t => t.writesCell c) then .stall s
      else
        match s.winRead x.num va 8 with
        | (.ok bs, s) => .ok (BitVec.ofNat 64 (ofBytes bs)) s
        | (.wait, s) => .stall s
        | (.fault f, s) => .fault f s

/-- Go on with the value of a cell. -/
def CellRead.bind (r : CellRead) (t : Task) (s0 : State) (f : Word → State → Accepted) : Accepted :=
  match r with
  | .illegal => .fault t.illegal s0
  | .stall s => .stall s
  | .fault e s => .fault e s
  | .ok v s => f v s

/-- Go on with n bytes of operand memory (R67). -/
def State.withOperand (s : State) (c va n : Nat) (f : List Byte → State → Accepted) : Accepted :=
  match s.winRead c va n with
  | (.ok bs, s) => f bs s
  | (.wait, s) => .stall s
  | (.fault e, s) => .fault e s

/-! ### Regions (R75, R78) -/

/-- Resolve region entries in a map; none when a buffer is undefined or an extent passes its size. -/
def resolveRegions (m : List LBuf) : List RawRegion → Option (List Region)
  | [] => some []
  | r :: rs =>
    match lbufOf m r.lb with
    | none => none
    | some b =>
      if b.size < r.off + r.extent then none
      else (resolveRegions m rs).map (fun l => r.at b.size b.ver :: l)

/-- Whether two regions of one task may not stand together: they share a byte and one of them may write it; an IN region and a
whole-buffer OUT region may. -/
def Region.clashes (x y : Region) : Bool :=
  (x.kind != 0 || y.kind != 0) && !((x.kind == 0 && y.whole) || (y.kind == 0 && x.whole)) && x.shares y

/-- Whether some two of the regions clash. -/
def anyClash : List Region → Bool
  | [] => false
  | r :: rs => rs.any (fun x => r.clashes x) || anyClash rs

/-- The result of renaming. -/
structure Renamed where
  regions : List Region
  map : List LBuf
  news : List Ver
  olds : List Ver
  deriving DecidableEq, Repr

/-- Draw a fresh version for each whole-buffer OUT region and make it current (R78); the size class whose list is empty when one
cannot be drawn. -/
def State.renameAll (c : Nat) : List Region → Renamed → State → Except Nat (Renamed × State)
  | [], r, s => .ok (r, s)
  | g :: gs, r, s =>
    if g.whole then
      match s.freshVersion c g.size (((lbufOf r.map g.lb).map (fun b => b.lobj)).getD false) with
      | (none, _) => .error (sizeClass g.size)
      | (some v, s) =>
        State.renameAll c gs
          { regions := r.regions ++ [{ g with ver := v }]
            map := r.map.map (fun b => if b.n == g.lb then { b with ver := v } else b)
            news := r.news ++ [v]
            olds := r.olds ++ [g.ver] } s
    else State.renameAll c gs { r with regions := r.regions ++ [g] } s

/-- Whether regions would rename a buffer that holds a pager's queue (R369). -/
def State.movesQueue (s : State) (c : Nat) (l : List Region) : Bool := l.any (fun r => r.whole && s.isPagerQueue c r.lb)

/-- Accept a task with regions: resolve, check and rename them. -/
def State.acceptRegions (s : State) (x : Ctx) (t : Task) (raws : List RawRegion) : Accepted :=
  match resolveRegions x.map raws with
  | none => .fault t.illegal s
  | some l =>
    if anyClash l ∨ s.movesQueue x.num l then .fault t.illegal s
    else
      match State.renameAll x.num l { regions := [], map := x.map, news := [], olds := [] } s with
      | .error cls => x.exhausted t s cls
      | .ok (r, s) => .ok { t with regions := r.regions, afterMap := r.map, news := r.news, olds := r.olds } s

/-! ### Buffers (R92, R93, R369) -/

/-- `TBUF` at acceptance. -/
def acceptTbuf (s : State) (x : Ctx) (t : Task) : Accepted :=
  let n := bits t.slot.a.toNat 11 0
  let size := t.slot.b.toNat
  let lobj := t.slot.flags.getLsbD 3
  if size = 0 ∨ 2 ^ 37 < size ∨ (lobj ∧ 2 ^ 26 < size) ∨ (lbufOf x.map n).isSome then .fault t.illegal s
  else
    match s.freshVersion x.num size lobj with
    | (none, _) => x.exhausted t s (sizeClass size)
    | (some v, s) =>
      .ok { t with
        news := [v]
        afterMap := x.map ++ [{ n := n, size := size, lobj := lobj, ver := v }]
        stat := .complete } s

/-- `TDROP` at acceptance. -/
def acceptTdrop (s : State) (x : Ctx) (t : Task) : Accepted :=
  let n := bits t.slot.a.toNat 11 0
  match lbufOf x.map n with
  | none => .fault t.illegal s
  | some b =>
    if s.isPagerQueue x.num n then .fault t.illegal s
    else .ok { t with olds := [b.ver], afterMap := x.map.filter (fun y => y.n != n), stat := .complete } s

/-! ### `TLAUNCH` (R90, R91, R14, R17) -/

/-- Registers that a crew of T threads with G registers each needs in partition p (R15). -/
def crewRegs (threads g p : Nat) : Nat := g * 32 * ((threads / 32 + 3 - p) / 4)

/-- Whether a cohort fits a cluster with nothing resident (R17). -/
def Launch.fitsEmpty (l : Launch) : Bool := (List.range 4).all (fun p => decide (crewRegs l.threads l.regs p ≤ Config.partRegs))

/-- A capability of a launch packet that may be given to a kernel: no PAGER, within the address space. -/
def CapW.launchOk (c : CapW) : Bool := !c.has pPager && decide (c.limit ≤ Config.scratchWindow)

/-- A launch packet from its 16 words, with RLIST; none when R90 or R14 refuses it. -/
def decodeLaunch (w : List Word) : Option (Launch × Nat) :=
  let g := fun (i : Nat) => (w.getD i 0#64).toNat
  let l : Launch :=
    { code := { lo := w.getD 0 0#64, hi := w.getD 1 0#64 }, args := { lo := w.getD 2 0#64, hi := w.getD 3 0#64 },
      regs := 16 * (bits (g 4) 43 40 + 1), threads := 32 * (bits (g 4) 36 32 + 1), crews := bits (g 4) 26 24 + 1,
      cohorts := bits (g 4) 23 0 + 1, prio := bits (g 5) 34 32, acc := 16384 * bits (g 5) 24 16, scr := 1024 * bits (g 5) 8 0,
      imm := bit (g 6) 18, replay := bits (g 6) 17 16, stagger := bits (g 6) 15 0, nreg := bits (g 6) 28 24 }
  if bits (g 4) 63 44 ≠ 0 ∨ bits (g 4) 39 37 ≠ 0 ∨ bits (g 4) 31 27 ≠ 0 ∨ bits (g 5) 63 35 ≠ 0 ∨ bits (g 5) 31 25 ≠ 0
      ∨ bits (g 5) 15 9 ≠ 0 ∨ bits (g 6) 63 29 ≠ 0 ∨ bits (g 6) 23 19 ≠ 0 ∨ bits (g 7) 63 56 ≠ 0
      ∨ (w.drop 8).any (fun x => x != 0#64) then none
  else if l.code.has pExecute = false ∨ l.code.launchOk = false ∨ l.args.launchOk = false then none
  else if 262144 < l.scr ∨ 4194304 < l.acc ∨ 16 < l.nreg ∨ l.replay = 3 ∨ (l.replay ≠ 0 ∧ l.imm) ∨ g 7 % 16 ≠ 0 then none
  else some (l, g 7)

/-- The region entries of a list of words. -/
def rawRegions : List Word → Option (List RawRegion)
  | w0 :: w1 :: rest =>
    match decodeRegion w0.toNat w1.toNat with
    | none => none
    | some r => (rawRegions rest).map (fun l => r :: l)
  | _ => some []

/-- `TLAUNCH` at acceptance. -/
def acceptTlaunch (s : State) (x : Ctx) (t : Task) : Accepted :=
  s.withOperand x.num t.slot.b.toNat 128 (fun bs s =>
    match decodeLaunch (wordsOf bs) with
    | none => .fault t.illegal s
    | some (l, rlist) =>
      let finish := fun (rl : List Word) (s : State) =>
        match rawRegions rl with
        | none => .fault t.illegal s
        | some raws =>
          if l.fitsEmpty = false ∨ (l.replay ≠ 0 ∧ raws.any (fun r => r.kind == 3)) then .fault t.illegal s
          else s.acceptRegions x { t with launch := some l } raws
      if l.nreg = 0 then finish [] s
      else s.withOperand x.num rlist (16 * l.nreg) (fun bs s => finish (wordsOf bs) s))

/-! ### `TCOPY`, `TFILL`, `TSTAMP` (R94 to R97) -/

/-- A host-memory side of a copy descriptor, by its two words. -/
def hostSideOk (w0 w1 : Nat) : Bool := bits w0 63 56 == 0 && bits w1 63 38 == 0 && bits w1 37 0 != 0

/-- The region of a buffer side, when its kind is one of those allowed. -/
def bufferSide (w0 w1 : Nat) (kinds : List Nat) : Option RawRegion :=
  (decodeRegion w0 w1).filter (fun r => kinds.contains r.kind)

/-- One side of a copy: its regions (none or one) and its declared size; none when the descriptor breaks R94. -/
def copySide (k w0 w1 : Nat) (kinds : List Nat) : Option (List RawRegion × Option Nat) :=
  match k with
  | 0 => (bufferSide w0 w1 kinds).map (fun r => ([r], some (r.rows * r.rowb)))
  | 1 => if hostSideOk w0 w1 then some ([], some (bits w1 37 0)) else none
  | _ => if w0 = 0 ∧ w1 = 0 then some ([], none) else none

/-- `TCOPY` at acceptance. -/
def acceptTcopy (s : State) (x : Ctx) (t : Task) : Accepted :=
  s.withOperand x.num t.slot.b.toNat 32 (fun bs s =>
    let w := wordsOf bs
    let g := fun (i : Nat) => (w.getD i 0#64).toNat
    let t := { t with words := w }
    match copySide t.srck (g 0) (g 1) [0], copySide t.dstk (g 2) (g 3) [1, 2] with
    | some (rs, n), some (rd, m) =>
      let refire := t.slot.flags.getLsbD 2
      let whole := rd.any (fun r => r.wholeOut (((lbufOf x.map r.lb).map (fun b => b.size)).getD 0))
      if (n.isSome ∧ m.isSome ∧ n ≠ m) ∨ (refire ∧ (t.srck = 0 ∨ whole = false)) then .fault t.illegal s
      else s.acceptRegions x t (rs ++ rd)
    | _, _ => .fault t.illegal s)

/-- `TFILL` at acceptance. -/
def acceptTfill (s : State) (x : Ctx) (t : Task) : Accepted :=
  match bufferSide t.slot.b.toNat t.slot.c.toNat [1, 2] with
  | none => .fault t.illegal s
  | some r => s.acceptRegions x t [r]

/-- `TSTAMP` at acceptance. -/
def acceptTstamp (s : State) (x : Ctx) (t : Task) : Accepted :=
  match bufferSide t.slot.b.toNat t.slot.c.toNat [2] with
  | none => .fault t.illegal s
  | some r => s.acceptRegions x t [r]

/-! ### Stream control (R98 to R100) -/

/-- The slot address that a branch of a task names: its own address + 32 * A. -/
def Task.target (t : Task) : Nat := ofSigned 56 ((t.addr : Int) + 32 * toSigned 32 t.slot.a.toNat)

/-- A branch: taken to its target, else on to the next slot; outside a procedure it is illegal. -/
def Task.branch (t : Task) (taken : Bool) (s : State) : Accepted :=
  if t.before.frames.isEmpty then .fault t.illegal s
  else .ok { t with after := if taken then t.before.goto t.target else t.after, stat := .complete } s

/-- `TBR` at acceptance. -/
def acceptTbr (s : State) (_x : Ctx) (t : Task) : Accepted := t.branch true s

/-- COND of a slot. -/
def slotCond (sl : TaskSlot) : Nat := bits sl.flags.toNat 5 3

/-- `TBRC` at acceptance. -/
def acceptTbrc (s : State) (x : Ctx) (t : Task) : Accepted :=
  if t.before.frames.isEmpty then .fault t.illegal s
  else (s.readCell x t.slot.b).bind t s (fun v s => t.branch (condHolds 64 (slotCond t.slot) v.toNat t.slot.c.toNat) s)

/-- `TCALL` at acceptance. DESIGN CHOICE (log 59): R98 gives B[63:56] no meaning and does not name them MBZ; the model drops them. -/
def acceptTcall (s : State) (_x : Ctx) (t : Task) : Accepted :=
  if 8 ≤ t.before.frames.length then .fault t.illegal s
  else .ok { t with after := { t.after with frames := t.slot.b.toNat % 2 ^ 56 :: t.after.frames }, stat := .complete } s

/-- `TRET` of the task stream at acceptance. -/
def acceptTret (s : State) (_x : Ctx) (t : Task) : Accepted :=
  match t.before.frames with
  | [] => .fault t.illegal s
  | _ :: rest => .ok { t with after := { t.before with frames := rest }, stat := .complete } s

/-- Set stream register k. -/
def Pos.setK (p : Pos) (k : Nat) (v : Word) : Pos := { p with ks := modifyAt (fun _ => v) k p.ks }

/-- `TSETK` at acceptance. -/
def acceptTsetk (s : State) (x : Ctx) (t : Task) : Accepted :=
  let k := bits t.slot.a.toNat 3 0
  if t.slot.flags.getLsbD 3 then
    (s.readCell x t.slot.b).bind t s (fun v s => .ok { t with after := t.after.setK k v, stat := .complete } s)
  else .ok { t with after := t.after.setK k t.slot.b, stat := .complete } s

/-- `TADDK` at acceptance. -/
def acceptTaddk (s : State) (_x : Ctx) (t : Task) : Accepted :=
  let k := bits t.slot.a.toNat 3 0
  .ok { t with after := t.after.setK k (t.before.ks.getD k 0#64 + t.slot.b), stat := .complete } s

/-- `TBRK` at acceptance. -/
def acceptTbrk (s : State) (_x : Ctx) (t : Task) : Accepted :=
  let k := bits t.slot.b.toNat 3 0
  let v := t.before.ks.getD k 0#64
  if v = 0#64 then t.branch false s
  else if t.before.frames.isEmpty then .fault t.illegal s
  else .ok { t with after := (t.before.setK k (v - 1#64)).goto t.target, stat := .complete } s

/-- `TNOP` at acceptance. -/
def acceptTnop (s : State) (_x : Ctx) (t : Task) : Accepted := .ok { t with stat := .complete } s

/-! ### Waits, signals and marks (R101 to R104) -/

/-- A task that names cell B of n bytes: its address is noted. -/
def State.acceptCell (s : State) (x : Ctx) (t : Task) (n : Nat) : Accepted :=
  match (decodeCell t.slot.b).bind (cellVa x.map n) with
  | none => .fault t.illegal s
  | some va => if va % n ≠ 0 then .fault t.illegal s else .ok { t with words := [BitVec.ofNat 64 va] } s

/-- `TWAITV` at acceptance. -/
def acceptTwaitv (s : State) (x : Ctx) (t : Task) : Accepted := s.acceptCell x t 8
/-- `TSIG` at acceptance. -/
def acceptTsig (s : State) (x : Ctx) (t : Task) : Accepted := s.acceptCell x t 8
/-- `TMARK` at acceptance. -/
def acceptTmark (s : State) (x : Ctx) (t : Task) : Accepted := s.acceptCell x t 16
/-- `TFENCE` at acceptance. -/
def acceptTfence (s : State) (_x : Ctx) (t : Task) : Accepted := .ok t s

/-! ### Ports and scope groups (R105, R106, R271) -/

/-- Whether every word from index i on is zero. -/
def restZero (w : List Word) (i : Nat) : Bool := (w.drop i).all (fun x => x == 0#64)

/-- A ring address and LOG2 word of a port descriptor. -/
def ringOk (ring log2 : Nat) : Bool :=
  decide (12 ≤ log2) && decide (log2 ≤ 30) && ring % 2 ^ log2 == 0 && decide (ring + 2 ^ log2 ≤ 2 ^ 56)

/-- A port descriptor that R271 allows for a kind. -/
def portDescOk (kind : Nat) (w : List Word) : Bool :=
  let g := fun (i : Nat) => (w.getD i 0#64).toNat
  let peer := fun (x : Nat) => bits x 63 14 == 0 && bits x 7 6 == 0
  match kind with
  | 2 => peer (g 0) && restZero w 1
  | 4 => ringOk (g 0) (g 1) && decide (g 0 + 2 ^ g 1 ≤ Config.scratchWindow) && peer (g 2) && restZero w 3
  | _ =>
    ringOk (g 0) (g 1) && g 2 % 8 == 0 && g 3 % 8 == 0 && decide (g 2 < 2 ^ 56) && decide (g 3 < 2 ^ 56)
      && bits (g 4) 63 16 == 0 && bits (g 4) 14 11 == 0 && restZero w 5

/-- `TPORT` at acceptance. -/
def acceptTport (s : State) (x : Ctx) (t : Task) : Accepted :=
  let kind := bits t.slot.a.toNat 23 16
  if kind = 0 then .ok t s
  else s.withOperand x.num t.slot.c.toNat 64 (fun bs s =>
    let w := wordsOf bs
    if portDescOk kind w then .ok { t with words := w } s else .fault t.illegal s)

/-- The cores whose bits are set in a bitmap of words. -/
def coresOf (w : List Word) : List Nat :=
  (List.range Config.cores).filter (fun i => (w.getD (i / 64) 0#64).getLsbD (i % 64))

/-- `TSCOPE` at acceptance. -/
def acceptTscope (s : State) (x : Ctx) (t : Task) : Accepted :=
  s.withOperand x.num t.slot.b.toNat 384 (fun bs s =>
    let w := wordsOf bs
    if (coresOf w).all (fun k => (s.part x.part).dies.getLsbD (dieOf k)) then .ok { t with words := w } s
    else .fault t.illegal s)

/-! ### Leases and rotation (R379, R386 to R388) -/

/-- `TLEASE` at acceptance: its operands are in the slot. -/
def acceptTlease (s : State) (_x : Ctx) (t : Task) : Accepted :=
  if s.agreed 2 = false ∨ bits t.slot.a.toNat 5 0 = s.devid then .fault t.illegal s else .ok t s

/-- Bytes of a rotation slot entry from an offset: one count for each package. -/
def countsAt (bs : List Byte) (off : Nat) : List Nat := ((bs.drop off).take 64).map (fun b => b.toNat)

/-- A slot of a rotation table from the 192 bytes of its entry; none when it breaks R387. -/
def decodeRotSlot (devid : Nat) (bs : List Byte) : Option RotSlot :=
  let w := ofBytes (bs.take 8)
  let sl : RotSlot := { guard := bits w 21 16, dur := bits w 9 0, txn := countsAt bs 64, rxn := countsAt bs 128 }
  if bits w 63 22 ≠ 0 ∨ bits w 15 10 ≠ 0 ∨ !((bs.drop 8).take 56).all (fun b => b == 0#8) then none
  else if sl.guard < 2 ∨ 50 < sl.guard ∨ sl.dur < 10 ∨ 1000 < sl.dur then none
  else if !(sl.txn ++ sl.rxn).all (fun n => decide (n ≤ 63)) ∨ sl.txn.getD devid 0 ≠ 0 ∨ sl.rxn.getD devid 0 ≠ 0 then none
  else some sl

/-- Whether a count to or from peer q uses plane j (R388). -/
def usesPlane (devid q n j : Nat) : Bool :=
  let i := (j + 64 - (devid + q) % 64) % 64
  decide (1 ≤ i) && decide (i ≤ n)

/-- Whether the counts of a slot stay within the leasable slots of every fibre: 16 on a fibre that carries no base channel of
this package, 15 on any other (R388, R376). -/
def countsFit (devid : Nat) (l : List Nat) : Bool :=
  (List.range 64).all (fun j =>
    decide (((List.range 64).filter (fun q => q != devid && usesPlane devid q (l.getD q 0) j)).length
      ≤ if j = 2 * devid % 64 then 16 else 15))

/-- A rotation table from its header and the bytes of its slots. -/
def decodeRotation (devid : Nat) (hd slots : List Byte) : Option RotTable :=
  let w0 := ofBytes (hd.take 8)
  let w1 := ofBytes ((hd.drop 8).take 8)
  let n := bits w1 4 0
  let es := listOf n (fun k => decodeRotSlot devid ((slots.drop (192 * k)).take 192))
  if bits w1 31 5 ≠ 0 ∨ 16 < n ∨ !(hd.drop 16).all (fun b => b == 0#8) ∨ es.any (fun e => e.isNone) then none
  else
    let sl := es.filterMap id
    if sl.all (fun x => countsFit devid x.txn && countsFit devid x.rxn) then
      some { start := w0, begins := 0, id := BitVec.ofNat 32 (w1 / 2 ^ 32), slots := sl }
    else none

/-- Keep bytes as words. -/
def wordsOfBytes (bs : List Byte) : List Word := wordsOf bs

/-- `TROTATE` at acceptance: header and slots are read and checked. -/
def acceptTrotate (s : State) (x : Ctx) (t : Task) : Accepted :=
  if s.agreed 3 = false then .fault t.illegal s
  else s.withOperand x.num t.slot.b.toNat 64 (fun hd s =>
    let n := bits (ofBytes ((hd.drop 8).take 8)) 4 0
    let finish := fun (slots : List Byte) (s : State) =>
      if (s.part x.part).lq.toNat < 961 ∨ (decodeRotation s.devid hd slots).isNone then .fault t.illegal s
      else .ok { t with words := wordsOfBytes (hd ++ slots) } s
    if 16 < n then .fault t.illegal s
    else if n = 0 then finish [] s
    else s.withOperand x.num (t.slot.b.toNat + 64) (192 * n) finish)

/-! ### Contexts and pagers (R336, R337, R368) -/

/-- Whether a physical address lies in a window of a partition, for n bytes. -/
def State.rootOk (s : State) (part a : Nat) : Bool := a % 65536 == 0 && s.inWindows part a 65536

/-- A context descriptor that R337 allows, for a partition. -/
def State.descOk (s : State) (part : Nat) (w : List Word) : Bool :=
  let g := fun (i : Nat) => (w.getD i 0#64).toNat
  let hcap : CapW := { lo := w.getD 2 0#64, hi := w.getD 3 0#64 }
  let rzn := bits (g 4) 4 0
  g 0 % 256 == 0 && decide (g 0 < 2 ^ 56)
    && bits (g 1) 63 4 == 0 && decide (4 ≤ g 1)
    && hcap.has (pLoad ||| pExecute) && hcap.cursor % 64 == 0 && hcap.covers hcap.cursor 1344
    && !ctlMbzBits (g 4) && (s.agreed 6 || !bit (g 4) 16) && (rzn == 0 || (decide (10 ≤ rzn) && decide (rzn ≤ 30)))
    && bits (g 5) 63 52 == 0 && bits (g 5) 31 8 == 0 && bits (g 5) 2 0 == 0
    && g 6 % 4096 == 0 && g 8 % 32 == 0
    && bits (g 9) 63 16 == 0 && bits (g 9) 14 11 == 0
    && s.rootOk part (g 10)
    && bits (g 11) 63 25 == 0 && bit (g 11) 23 == false && bit (g 11) 19 == false && bits (g 11) 15 14 == 0
    && bits (g 11) 7 0 == 0 && bits (g 11) 18 16 == part && restZero w 12
where
  /-- MBZ bits of `ctxctl` (R323). -/
  ctlMbzBits (x : Nat) : Bool := bits x 63 17 != 0 || bits x 15 12 != 0 || bits x 7 5 != 0

/-- `TCTX` create at acceptance: the descriptor is read and its layout checked. -/
def acceptTctxCreate (s : State) (x : Ctx) (t : Task) : Accepted :=
  s.withOperand x.num t.slot.b.toNat 128 (fun bs s =>
    let w := wordsOf bs
    if s.descOk x.part w then .ok { t with words := w } s else .fault t.illegal s)

/-- `TCTX` destroy at acceptance. -/
def acceptTctxDestroy (s : State) (_x : Ctx) (t : Task) : Accepted := .ok t s
/-- `TCTX` halt at acceptance. -/
def acceptTctxHalt (s : State) (_x : Ctx) (t : Task) : Accepted := .ok t s
/-- `TCTX` resume at acceptance. -/
def acceptTctxResume (s : State) (_x : Ctx) (t : Task) : Accepted := .ok t s
/-- `TCTX` set priority at acceptance. -/
def acceptTctxSetPriority (s : State) (_x : Ctx) (t : Task) : Accepted := .ok t s

/-- A pager descriptor that R368 allows for pager p. -/
def pagerDescOk (p : Nat) (w : List Word) : Bool :=
  let g := fun (i : Nat) => (w.getD i 0#64).toNat
  let logq := bits (g 2) 19 16
  (if p = 0 then g 0 == 0 && g 1 == 0
    else g 0 % 65536 == 0 && g 1 % 65536 == 0 && decide (g 0 < 2 ^ 56) && decide (g 1 ≤ 2 ^ 56) && decide (g 0 < g 1))
    && bits (g 2) 63 20 == 0 && bits (g 2) 15 12 == 0 && decide (4 ≤ logq) && restZero w 3

/-- `TPAGER` register at acceptance: the descriptor is read and its layout checked. -/
def acceptTpagerRegister (s : State) (x : Ctx) (t : Task) : Accepted :=
  if s.agreed 1 = false then .fault t.illegal s
  else s.withOperand x.num t.slot.b.toNat 64 (fun bs s =>
    let w := wordsOf bs
    if pagerDescOk (bits t.slot.a.toNat 3 0) w then .ok { t with words := w } s else .fault t.illegal s)

/-- `TPAGER` unregister at acceptance. -/
def acceptTpagerUnregister (s : State) (_x : Ctx) (t : Task) : Accepted :=
  if s.agreed 1 = false then .fault t.illegal s else .ok t s

/-! ### The sequencer (R65 to R67, R71, R82) -/

/-- Whether a context's sequencer may accept a slot: not Faulted, its window runs, owes no write, recovers no journal (R358) and has an entry
free, and no task accepted with a fault waits for it to be handled. -/
def Ctx.canAccept (x : Ctx) : Bool :=
  !x.faulted && !x.recovering && x.unitRuns .window && x.owed.isEmpty && decide (x.window.length < Config.windowEntries)
    && !x.window.any (fun t => t.stat == .waiting && t.fault.isSome)

/-- A window entry before its opcode is looked at. -/
def Ctx.newTask (x : Ctx) (uid op : Nat) (sl : TaskSlot) : Task :=
  { uid := uid, op := op, slot := sl, addr := x.slotAddr x.accept, ringIdx := if x.accept.frames.isEmpty then some x.accept.ring else none,
    before := x.accept, after := x.accept.next, beforeMap := x.map, afterMap := x.map, skipped := false, stat := .waiting,
    fault := none, regions := [], words := [], news := [], olds := [], undo := [], launch := none, nextCohort := 0,
    lastStart := none, t0 := 0, seen := none, lastRead := false, staged := [], replays := 0, taken := [], order := uid }

/-- Enter a task in its context's window and move the sequencer on; ACCEPT is written for a ring slot (R67). -/
def State.enterTask (s : State) (c : Nat) (t : Task) : State :=
  let s := { s with nextUid := s.nextUid + 1 }.modCtx c (fun x =>
    { x with window := x.window ++ [t], accept := t.after, map := t.afterMap })
  match s.ctx c, t.ringIdx with
  | some x, some n => s.ctxWrite c x.stream (toBytes 8 ((n + 1) % 2 ^ 64))
  | _, _ => s

/-- Put the outcome of acceptance into effect; a task with a fault leaves positions and map as they would be after it. -/
def State.settleAccept (c : Nat) (t : Task) : Accepted → State
  | .stall s => s
  | .fault f s => s.enterTask c { t with fault := some f }
  | .ok t s => s.enterTask c t

/-- Whether the cell that word B names is malformed by its own fields, for an access of n bytes (R72, R103). -/
def slotCellBad (sl : TaskSlot) (n : Nat) : Bool :=
  match decodeCell sl.b with
  | none => true
  | some (.buf _ off) => off % n != 0
  | some (.addr va) => va % n != 0

/-- An illegal-task fault that lies in the slot itself, beyond what its word forms show: it stands also when the predicate skips the task
(R71): an opcode that the context may not use (R70, R430), an illegal size (R92), region (R96, R97) or cell (R72). -/
def State.slotIllegal (s : State) (x : Ctx) (op : Nat) (sl : TaskSlot) : Bool :=
  match op with
  | 0x01 => decide (sl.b.toNat = 0 ∨ 2 ^ 37 < sl.b.toNat ∨ (sl.flags.getLsbD 3 ∧ 2 ^ 26 < sl.b.toNat))
  | 0x05 => (bufferSide sl.b.toNat sl.c.toNat [1, 2]).isNone
  | 0x06 => (bufferSide sl.b.toNat sl.c.toNat [2]).isNone
  | 0x08 | 0x0B | 0x0C => slotCellBad sl 8
  | 0x0D => slotCellBad sl 16
  | 0x0F => !s.agreed 2 || bits sl.a.toNat 5 0 == s.devid
  | 0x10 => !s.agreed 3
  | 0x13 => sl.flags.getLsbD 3 && slotCellBad sl 8
  | 0x16 => !x.priv || !s.agreed 1
  | 0x17 => !x.priv
  | _ => false

/-- Accept one slot: the faults that lie in it, then its predicate, then the opcode's own part (R71). -/
def State.acceptTask (s : State) (c op : Nat) (sl : TaskSlot) (ok : Bool) (body : State → Ctx → Task → Accepted) : State :=
  match s.ctx c with
  | none => s
  | some x =>
    if x.canAccept = false then s
    else
      let t := x.newTask s.nextUid op sl
      let r :=
        if ok = false ∨ s.slotIllegal x op sl then Accepted.fault t.illegal s
        else if sl.flags.getLsbD 0 || sl.flags.getLsbD 1 then
          (s.readCell x sl.d).bind t s (fun v s =>
            if (sl.flags.getLsbD 0 && v == 0#64) || (sl.flags.getLsbD 1 && v != 0#64) then
              .ok { t with skipped := true, stat := .complete } s
            else body s x t)
        else body s x t
      State.settleAccept c t r

/-- What an opcode does at acceptance (R70); an opcode without a task is illegal. -/
def acceptBody (op : Nat) (sl : TaskSlot) : State → Ctx → Task → Accepted :=
  match op with
  | 0x01 => acceptTbuf
  | 0x02 => acceptTdrop
  | 0x03 => acceptTlaunch
  | 0x04 => acceptTcopy
  | 0x05 => acceptTfill
  | 0x06 => acceptTstamp
  | 0x07 => acceptTbr
  | 0x08 => acceptTbrc
  | 0x09 => acceptTcall
  | 0x0A => acceptTret
  | 0x0B => acceptTwaitv
  | 0x0C => acceptTsig
  | 0x0D => acceptTmark
  | 0x0E => acceptTfence
  | 0x0F => acceptTlease
  | 0x10 => acceptTrotate
  | 0x11 => acceptTport
  | 0x12 => acceptTscope
  | 0x13 => acceptTsetk
  | 0x14 => acceptTaddk
  | 0x15 => acceptTbrk
  | 0x16 => if bits sl.a.toNat 7 4 = 0 then acceptTpagerRegister else acceptTpagerUnregister
  | 0x17 => if bits sl.a.toNat 3 0 = 0 then acceptTctxCreate else acceptTctxDestroy
  | 0x18 => acceptTnop
  | _ => fun s _ t => .fault t.illegal s

/-- The four words of the slot at a context's acceptance position, when they are there: in the ring, only once SEQ matches
(R65). DEDUCED (log 58): all four come from one read, where R66 lets words 1 to 3 be read later than word 0; a slot that its writer
completes in R66's order reads the same. -/
def State.slotWords (s : State) (x : Ctx) : Option (List Word) × State :=
  match s.engRead x.num (x.slotAddr x.accept) 32 with
  | (.error _, s) => (none, s)
  | (.ok (bs, _), s) =>
    let w := wordsOf bs
    if x.accept.frames.isEmpty && bits (w.getD 0 0#64).toNat 63 48 != x.accept.ring % 2 ^ 16 then (none, s) else (some w, s)

/-- The opcode, operands and soundness of four slot words. -/
def slotTask (w : List Word) : Nat × TaskSlot × Bool :=
  let op := bits (w.getD 0 0#64).toNat 47 40
  (op, slotOperands (w.getD 0 0#64) (w.getD 1 0#64) (w.getD 2 0#64) (w.getD 3 0#64),
    (decodeSlot (w.getD 0 0#64) (w.getD 1 0#64) (w.getD 2 0#64) (w.getD 3 0#64)).isSome)

/-- The fault of a slot of the ring or of a procedure that cannot be read: the task enters with it (R44, R344, R365, R366; DEDUCED,
log 65). -/
def State.slotFault (s : State) (x : Ctx) : Option TFault × State :=
  match s.winRead x.num (x.slotAddr x.accept) 32 with
  | (.fault f, s) => (some f, s)
  | (_, s) => (none, s)

/-- `SLOT_ACCEPT`: the sequencer decodes the expected slot into a window entry. -/
def execSlotAccept (c : Nat) (s : State) : Host.Outcome State Fault Refusal :=
  match s.ctx c with
  | none => .next s
  | some x =>
    if x.canAccept = false then .next s
    else
      match s.slotWords x with
      | (some w, s) =>
        let r := slotTask w
        .next (s.acceptTask c r.1 r.2.1 r.2.2 (acceptBody r.1 r.2.1))
      | (none, s) =>
        match s.slotFault x with
        | (some f, s) => .next (s.enterTask c { (x.newTask s.nextUid 0 (slotOperands 0#64 0#64 0#64 0#64)) with fault := some f })
        | (none, s) => .next s

end Sys2Proof.Machine
end

