-- ==== Sys2Proof/Machine/TaskIssue.lean ====
section
/-!
DEFINITION. Issue of tasks (spec/03_task_stream.md R83, R84, R88, R94 to R106; R271 of spec/09_async_and_egress.md; R336 of
spec/15_privileged_state_and_traps.md; R346 of spec/16_scheduling_hardware.md; R366 to R369 of
spec/17_translation_and_pagers.md; R379, R386 of spec/18_optical_fabric.md): when a task issues, its undo versions, and what
each opcode does at its issue.
-/

namespace Sys2Proof.Machine

/-! ### When a task issues (R84, R88) -/

/-- `TPORT`, `TSCOPE`, `TCTX`, `TPAGER`, `TROTATE`: issued only after every older task is complete. -/
def orderedOp (op : Nat) : Bool := op == 0x11 || op == 0x12 || op == 0x17 || op == 0x16 || op == 0x10
/-- Tasks that hold back every younger one while in flight. -/
def fencingOp (op : Nat) : Bool := orderedOp op || op == 0x0E || op == 0x0B

/-- Whether a task is replayable (R88). -/
def Task.replayable (t : Task) : Bool :=
  match t.launch with
  | some l => l.replay != 0 && !l.imm && !t.regions.any (fun r => r.kind == 3)
  | none => true

/-- The tasks older than one in a window. -/
def Ctx.older (x : Ctx) (t : Task) : List Task := x.window.takeWhile (fun y => y.uid != t.uid)

/-- The conditions of R84 on the window. -/
def Ctx.mayIssue (x : Ctx) (t : Task) : Bool :=
  let o := x.older t
  !x.faulted && x.unitRuns .window && x.owed.isEmpty && t.stat == .waiting && t.fault.isNone
    && o.all (fun y => y.stat == .complete || !t.regions.any (fun r => y.regions.any (fun q => r.dependsOn q)))
    && (!orderedOp t.op || o.all (fun y => y.stat == .complete))
    && o.all (fun y => y.stat == .complete || !fencingOp y.op)
    && (t.replayable || o.all (fun y => y.stat == .complete && y.fault.isNone))
    && (t.op != 0x0B || !(match decodeCell t.slot.b with
          | some c => o.any (fun y => y.writesCell c)
          | none => false))

/-! ### Undo versions (R88) -/

/-- Why an undo version cannot be made. -/
inductive UndoFail where
  | empty (cls : Nat)
  | access (va : Nat) (e : EngFail)
  deriving DecidableEq, Repr

/-- Copy the declared bytes of each region written in place, with their stamps, into undo versions. -/
def State.drawUndo (c : Nat) : List Region → List (Region × Ver) → State → Except UndoFail (List (Region × Ver)) × State
  | [], u, s => (.ok u, s)
  | r :: rs, u, s =>
    match s.drawBlock c r.undoClass with
    | (none, s) => (.error (.empty r.undoClass), s)
    | (some v, s) =>
      match State.copyRuns c r.ver.va v.va r.undoBase r.granuleRows s with
      | (.error e, s) => (.error (.access (r.ver.va + r.off) e), s)
      | (.ok _, s) => State.drawUndo c rs (u ++ [(r, v)]) s

/-- The fault of a waiting task that its issue finds. -/
def State.taskFaults (s : State) (c t : Nat) (f : TFault) : State := s.holdFault c t f

/-- An access of the window for a task has failed: the task waits for the host or for a pager, or takes the fault (R366, R412). -/
def State.taskAccessFailed (s : State) (c t va : Nat) : EngFail → State
  | .wait => s
  | .held u kind =>
    match s.joinPager c u kind 16 (.task c t) with
    | (some _, s) => s
    | (none, s) => s.taskFaults c t { code := 0x22, sub := 0, detail := u }
  | e => (s.logFail c e).taskFaults c t (engFault va e)

/-- Make a task's undo versions, or say what happens instead: it waits, joins a pager, or takes a fault. -/
def State.withUndo (s : State) (x : Ctx) (t : Task) (f : State → State) : State :=
  let rs := if t.replayable then t.regions.filter (fun r => r.inPlace) else []
  match State.drawUndo x.num rs [] s with
  | (.ok u, s) => f (s.modTask x.num t.uid (fun t => { t with undo := u }))
  | (.error (.empty cls), _) =>
    if x.alone t.uid && !s.poolWaits x then s.taskFaults x.num t.uid { code := 0x21, sub := cls, detail := t.addr } else s
  | (.error (.access va e), s1) => (s.asking s1).taskAccessFailed x.num t.uid va e

/-! ### Helpers -/

/-- Set how far a task is. -/
def State.setStat (s : State) (c t : Nat) (st : TaskStat) : State := s.modTask c t (fun k => { k with stat := st })

/-- Raise an illegal-task fault at issue. -/
def State.illegalAt (s : State) (x : Ctx) (t : Task) : State := s.taskFaults x.num t.uid t.illegal

/-- Start the engine thread of a task (R256). -/
def State.taskEngine (s : State) (c t : Nat) (kind : EngineKind) : State :=
  let (id, s) := s.fresh
  { s with engines := s.engines ++ [
      { uid := id, ctx := c, task := t, crew := none, tid := 0, lop := none, kind := kind, words := [], done := [], held := [],
        sent := [], failed := false, buffer := [], block := none, staged := false, seq := 0 }] }

/-- A port of a context. -/
def Ctx.port (x : Ctx) (n : Nat) : Option Port := x.ports.find? (fun p => p.n == n)

/-! ### Launches and copies -/

/-- `TLAUNCH` at issue: its cohorts wait to be admitted (R16). -/
def issueTlaunch (s : State) (x : Ctx) (t : Task) : State := s.setStat x.num t.uid .issued

/-- Whether the ports that a `TCOPY` names are open in its directions, and its record fits its ring (R94, R105, R275). -/
def Task.portsOk (t : Task) (x : Ctx) : Bool :=
  (t.srck != 2 || (match x.port t.cport with
      | some p => p.kind == 3 || p.kind == 4
      | none => false))
    && (t.dstk != 2 || (match x.port t.cport with
      | some p => p.kind == 2 || (p.kind == 1 && (t.srck == 2 || decide (recordBytes t.copyBytes ≤ 2 ^ p.log2)))
      | none => false))

/-- `TCOPY` at issue: a copy from a port first takes its data (`INGRESS_CONSUME`). -/
def issueTcopy (s : State) (x : Ctx) (t : Task) : State :=
  if t.portsOk x = false then s.illegalAt x t
  else
    let s := s.setStat x.num t.uid .issued
    if t.srck = 2 ∧ t.wants ≠ 0 then s else s.taskEngine x.num t.uid .tcopy

/-- `TFILL` at issue. -/
def issueTfill (s : State) (x : Ctx) (t : Task) : State := (s.setStat x.num t.uid .issued).taskEngine x.num t.uid .tfill
/-- `TSTAMP` at issue. -/
def issueTstamp (s : State) (x : Ctx) (t : Task) : State := (s.setStat x.num t.uid .issued).taskEngine x.num t.uid .tstamp

/-! ### Waits, signals, marks (R101 to R104) -/

/-- The writes counted for the word that a task waits on, where it translates. -/
def State.cellWrites (s : State) (c va : Nat) : Option Nat :=
  match s.engMap c .load va 8 with
  | (.ok l, _) => some ((l.map (fun g => (s.store g.host).writeCount g.pa g.n)).sum)
  | _ => none

/-- One read of a waiting `TWAITV`, at its issue and after a write to the cell's granule; a read made after t0 + A does not count, but for one
that had begun in time and waits for the host (R412). -/
def State.readWait (s : State) (c : Nat) (t : Task) : State :=
  let count := s.cellWrites c (t.word 0)
  if (t.slot.a ≠ 0 ∧ t.t0 + t.slot.a.toNat < s.now ∧ t.lastRead = false) ∨ (t.seen.isSome ∧ t.seen = count) then s
  else
    match s.winRead c (t.word 0) 8 with
    | (.ok bs, s) =>
      if condHolds 64 (slotCond t.slot) (ofBytes bs) t.slot.c.toNat then s.setStat c t.uid .complete
      else s.modTask c t.uid (fun k => { k with seen := count, lastRead := false })
    | (.wait, s) => s.modTask c t.uid (fun k => { k with lastRead := true })
    | (.fault f, s) => s.taskFaults c t.uid f

/-- `TWAITV` at issue: a COND of 6 or 7 is illegal by its slot already. -/
def issueTwaitv (s : State) (x : Ctx) (t : Task) : State :=
  (s.modTask x.num t.uid (fun k => { k with stat := .issued, t0 := s.now })).readWait x.num { t with t0 := s.now }

/-- `TSIG` at issue: its write is staged. -/
def issueTsig (s : State) (x : Ctx) (t : Task) : State :=
  let k := StagedKind.signal (t.word 0) t.slot.c (t.slot.flags.getLsbD 3)
    (if t.slot.flags.getLsbD 4 then some (bits t.slot.a.toNat 10 0) else none)
  s.modTask x.num t.uid (fun y => { y with stat := .complete, staged := [{ seq := 0, kind := k, progress := 0 }] })

/-- `TMARK` at issue: its write is staged. -/
def issueTmark (s : State) (x : Ctx) (t : Task) : State :=
  s.modTask x.num t.uid (fun y =>
    { y with stat := .complete, staged := [{ seq := 0, kind := .mark (t.word 0) t.slot.c, progress := 0 }] })

/-- `TFENCE`: complete once every older task is complete, with `.RET` retired. -/
def issueTfence (s : State) (x : Ctx) (t : Task) : State :=
  let o := x.older t
  if (if t.slot.flags.getLsbD 3 then o.isEmpty else o.all (fun y => y.stat == .complete)) then s.setStat x.num t.uid .complete else s

/-! ### Settings (R105, R106, R271, R379, R386) -/

/-- Whether a staged effect is a record of a port. -/
def StagedKind.ofPort (k : StagedKind) (n : Nat) : Bool :=
  match k with
  | .record p _ _ _ => p == n
  | _ => false

/-- The same effect at another port. -/
def StagedKind.setPort (k : StagedKind) (n : Nat) : StagedKind :=
  match k with
  | .record _ d st b => .record n d st b
  | k => k

/-- Keep a port that a `TPORT` replaces, under the number m, for the records of older tasks that still wait in it (DEDUCED, log 35: they
were sent through the port as it was). -/
def Ctx.keepPort (x : Ctx) (n m : Nat) : Ctx :=
  if x.window.any (fun t => t.staged.any (fun g => g.kind.ofPort n)) then
    { x with
      ports := x.ports.map (fun p => if p.n == n then { p with n := m } else p)
      window := x.window.map (fun t => { t with
        staged := t.staged.map (fun g => if g.kind.ofPort n then { g with kind := g.kind.setPort m } else g) }) }
  else x

/-- The cell that the device zeroes when a port of a kind is set (R271). -/
def Task.portCellVa (t : Task) : Option Nat :=
  match bits t.slot.a.toNat 23 16 with
  | 1 => some (t.word 2)
  | 3 => some (t.word 3)
  | _ => none

/-- `TPORT` at issue: the device zeroes the cell that it writes, and the counts start at 0. A cell that it cannot reach holds the task back
or is its fault (R366). -/
def issueTport (s : State) (x : Ctx) (t : Task) : State :=
  let n := bits t.slot.a.toNat 5 0
  let kind := bits t.slot.a.toNat 23 16
  let p : Port := { n := n, kind := kind, bound := t.slot.b, desc := t.words, prod := 0, cons := 0, remainder := [], back := [] }
  let zeroed : Except EngFail Unit × State := match t.portCellVa with
    | some va => s.engWrite x.num va (toBytes 8 0) (fun _ => sTimeless)
    | none => (.ok (), s)
  match zeroed with
  | (.error e, s) => s.taskAccessFailed x.num t.uid (t.portCellVa.getD 0) e
  | (.ok _, s) =>
    let s := s.modCtx x.num (fun x => x.keepPort n (64 * (t.uid + 1) + n))
    (s.modCtx x.num (fun x =>
      { x with ports := x.ports.filter (fun q => q.n != n) ++ (if kind = 0 then [] else [p]) })).setStat x.num t.uid .complete

/-- `TSCOPE` at issue. -/
def issueTscope (s : State) (x : Ctx) (t : Task) : State :=
  let g := bits t.slot.a.toNat 4 0
  (s.modCtx x.num (fun x => { x with groups := x.groups.filter (fun p => p.1 != g) ++ [(g, coresOf t.words)] })).setStat
    x.num t.uid .complete

/-- `TLEASE` at issue: the target is set within the partition's quota, and the Anole moves towards it. -/
def issueTlease (s : State) (x : Ctx) (t : Task) : State :=
  let q := bits t.slot.a.toNat 5 0
  let n := bits t.slot.a.toNat 21 16
  let sum := ((s.ctxs.filter (fun y => y.part == x.part)).map (fun y =>
    (y.leases.filter (fun p => !(y.num == x.num && p.1 == q))).foldl (fun k p => k + p.2) 0)).foldl (· + ·) 0
  if x.leaseTo q < n ∧ (s.part x.part).lq.toNat < sum + n then s.illegalAt x t
  else
    ((s.modCtx x.num (fun x => { x with leases := x.leases.filter (fun p => p.1 != q) ++ (if n = 0 then [] else [(q, n)]) })).setStat
      x.num t.uid .complete).keepRequest q

/-- When cycle 0 of a table begins: at its START; when that is past and no rotation runs, with the first cycle start to come (R389, R394). -/
def State.tableBegins (s : State) (t : RotTable) : Nat :=
  let start := t.start * s.tickNs
  if s.fab.rotating ∨ s.now < t.start ∨ t.slots.isEmpty then start
  else start + ((s.now * s.tickNs - start) / t.period + 1) * t.period

/-- `TROTATE` at issue: the table is loaded, and its identity and counts go to every peer (R390). -/
def issueTrotate (s : State) (x : Ctx) (t : Task) : State :=
  let bs := t.words.flatMap (fun w => toBytes 8 w.toNat)
  match decodeRotation s.devid (bs.take 64) (bs.drop 64) with
  | none => s.illegalAt x t
  | some r =>
    let s := ({ s with fab := { s.fab with rotNext := some { r with begins := s.tableBegins r } } }).setStat x.num t.uid .complete
    (s.fab.present.filter (fun q => q != s.devid)).foldl (fun s q =>
      s.tell q (.tableId q r.id (r.slots.map (fun k => k.txn.getD q 0)) (r.slots.map (fun k => k.rxn.getD q 0)))) s

/-! ### Pagers (R366 to R369) -/

/-- Leave the outstanding faults of a pager to R366's no-pager rule: each agent's task takes the address of its own access. -/
def State.abandonPager (s : State) (p : Pager) : State :=
  (p.recs.flatMap (fun r => r.joined) ++ p.waiting.flatMap (fun f => f.joined)).foldl (fun s j => s.failJoined j.2 j.1) s

/-- The tasks of a context that would rename a buffer, or make it undefined, are illegal: it holds the queue of a pager now (R369). -/
def Ctx.keepQueue (x : Ctx) (lb : Nat) : Ctx :=
  let moves := fun (t : Task) => !t.skipped
    && (t.regions.any (fun r => r.lb == lb && r.whole) || (t.op == 0x02 && bits t.slot.a.toNat 11 0 == lb))
  { x with window := x.window.map (fun t => if moves t then { t with fault := t.fault.or (some t.illegal) } else t) }

/-- `TPAGER` register at issue. -/
def issueTpagerRegister (s : State) (x : Ctx) (t : Task) : State :=
  let p := bits t.slot.a.toNat 3 0
  let same := fun (n : Nat) => (s.ctx n).filter (fun y => y.part == x.part)
  let logq := bits (t.word 2) 19 16
  let qlb := bits (t.word 2) 11 0
  match same (bits t.slot.a.toNat 13 8), same (bits t.slot.a.toNat 21 16) with
  | some tc, some sc =>
    let clash := tc.pagers.any (fun q => q.p == p || (q.p != 0 && p != 0 && decide (q.base < t.word 1) && decide (t.word 0 < q.limit)))
    let queueOk := ((lbufOf sc.rmap qlb).map (fun b => decide (32 * 2 ^ logq ≤ b.size))).getD false
    if clash ∨ queueOk = false then s.illegalAt x t
    else
      ((s.modCtx tc.num (fun y => { y with pagers := y.pagers ++ [
        { p := p, base := t.word 0, limit := t.word 1, sctx := sc.num, qlb := qlb, logq := logq, next := 0, recs := [],
          waiting := [] }] })).modCtx sc.num (fun y => y.keepQueue qlb)).setStat x.num t.uid .complete
  | _, _ => s.illegalAt x t

/-- `TPAGER` unregister at issue. -/
def issueTpagerUnregister (s : State) (x : Ctx) (t : Task) : State :=
  let p := bits t.slot.a.toNat 3 0
  let same := fun (n : Nat) => (s.ctx n).filter (fun y => y.part == x.part)
  match same (bits t.slot.a.toNat 13 8), same (bits t.slot.a.toNat 21 16) with
  | some tc, some _ =>
    match tc.pagers.find? (fun q => q.p == p) with
    | none => s.illegalAt x t
    | some q =>
      ((s.modCtx tc.num (fun y => { y with pagers := y.pagers.filter (fun r => r.p != p) })).abandonPager q).setStat
        x.num t.uid .complete
  | _, _ => s.illegalAt x t

/-! ### Contexts (R336, R337, R346) -/

/-- The context number that a `TCTX` names. -/
def Task.ctxNum (t : Task) : Nat := bits t.slot.a.toNat 13 8

/-- A position at the start of a stream. -/
def Pos.start : Pos := { ring := 0, frames := [], ks := List.replicate 16 0#64 }

/-- The home die that a context finds once those for which `gone` holds are released: the lowest die of its partition with a free window
slot (R346). -/
def State.homeWithout (s : State) (part : Nat) (gone : Nat → Bool) : Option Nat :=
  (List.range Config.dies).find? (fun d =>
    (s.part part).dies.getLsbD d && decide ((s.ctxs.filter (fun y => y.home == d && !y.saved && !gone y.num)).length < 8))

/-- The home die of a new context, or of one that is restored. -/
def State.homeFor (s : State) (part : Nat) : Option Nat := s.homeWithout part (fun _ => false)

/-- Whether a partition may hold a further context: CQ bounds them (R343). -/
def State.partOpen (s : State) (p : Nat) : Bool := decide ((s.ctxs.filter (fun y => y.part == p)).length < (s.part p).cq.toNat)

/-- `ctxctl` of a descriptor: 0 in RZN and FRL stands for 20 and 3 (R323). -/
def descCtl (w : Word) : Word :=
  let x := w.toNat
  let rzn := if bits x 4 0 = 0 then 20 else bits x 4 0
  let frl := if bits x 11 8 = 0 then 3 else bits x 11 8
  BitVec.ofNat 64 (bits x 63 12 * 4096 + frl * 256 + bits x 7 5 * 32 + rzn)

/-- A context as its descriptor gives it (R337). -/
def ctxOfDesc (num home cycle : Nat) (w : List Word) : Ctx :=
  let g := fun (i : Nat) => (w.getD i 0#64).toNat
  { num := num, priv := bit (g 11) 24, prio := bits (g 11) 22 20, part := bits (g 11) 18 16, dcn := bits (g 11) 13 8,
    stream := g 0, logs := bits (g 1) 3 0, hcap := { lo := w.getD 2 0#64, hi := w.getD 3 0#64 },
    ctl := descCtl (w.getD 4 0#64), pendCtl := [], tvec := w.getD 5 0#64, save := g 6, savesz := g 7, faultAddr := g 8,
    fvec := bits (g 9) 10 0, firq := bit (g 9) 15, root := g 10, dhalt := false, refused := false, steps := 0, dbgwho := 0#64,
    faulted := false, halted := false, stop := none, saved := false, sealBytes := [], journal := none, recovering := false,
    dropWrite := none, gen := 0,
    retired := Pos.start, accept := Pos.start, map := [], rmap := [], window := [], free := [], unvacated := [], owned := [], poolIdx := 0,
    ports := [], groups := [], sbars := [], dtags := [], pagers := [], orphans := [], leases := [], kept := [], home := home,
    resSince := cycle, resTick := 0, waitSince := none, owed := [] }

/-- Create a context from the words of a descriptor: its stream header takes its reset values (R64). -/
def State.createCtx (s : State) (num home : Nat) (w : List Word) : State :=
  let x := ctxOfDesc num home s.cycle w
  { s with ctxs := s.ctxs ++ [x] }.ctxWrite num x.stream (List.replicate 256 0#8)

/-- `TCTX` create at issue. -/
def issueTctxCreate (s : State) (x : Ctx) (t : Task) : State :=
  match s.ctx t.ctxNum, (if s.partOpen x.part then s.homeFor x.part else none) with
  | none, some home => (s.createCtx t.ctxNum home t.words).setStat x.num t.uid .complete
  | _, _ => s.illegalAt x t

/-- Every version of a context that is a lease object, each once: it gives back an object-table entry of every die (R233). -/
def Ctx.leaseObjects (x : Ctx) : List Ver :=
  let l := x.map.map (fun b => b.ver) ++ x.rmap.map (fun b => b.ver) ++ x.window.flatMap (fun t => t.news ++ t.olds)
  (l.filter (fun v => v.lobj)).eraseDups

/-- Destroy a context: its work, its versions, its staged effects, its pagers and those it serves (R336, R349, R368). -/
def State.destroyCtx (s : State) (c : Nat) : State :=
  match s.ctx c with
  | none => s
  | some x =>
    let served := s.ctxs.flatMap (fun y => if y.num = c then [] else y.pagers.filter (fun p => p.sctx == c))
    let s := served.foldl State.abandonPager s
    let s := (s.killWork (fun k _ => k == c)).freeBlocks c x.leaseObjects
    let s := x.pagers.foldl (fun s p =>
      s.modCtx p.sctx (fun y => { y with orphans := y.orphans ++ p.recs.map (fun r => (p.qlb, p.logq, r.n)) })) s
    { s with
      ctxs := (s.ctxs.filter (fun y => y.num != c)).map (fun y => { y with pagers := y.pagers.filter (fun p => p.sctx != c) })
      tlb := s.tlb.filter (fun e => e.ctx != c) }

/-- The context of the issuing context's partition that a `TCTX` names. -/
def State.namedCtx (s : State) (x : Ctx) (t : Task) : Option Ctx := (s.ctx t.ctxNum).filter (fun y => y.part == x.part)

/-- `TCTX` destroy at issue. -/
def issueTctxDestroy (s : State) (x : Ctx) (t : Task) : State :=
  match s.namedCtx x t with
  | none => s.illegalAt x t
  | some y =>
    if y.num = x.num then
      s.modTask x.num t.uid (fun k => { k with stat := .complete, staged := [{ seq := 0, kind := .destroySelf, progress := 0 }] })
    else if y.saved ∨ (y.halted ∧ y.stop.isNone) then (s.destroyCtx y.num).setStat x.num t.uid .complete
    else (s.setStat x.num t.uid .issued).beginStop y.num .destroy [(x.num, t.uid)]

/-- `TCTX` halt at issue; one of the issuing context itself is complete at issue (DESIGN CHOICE, log 14). -/
def issueTctxHalt (s : State) (x : Ctx) (t : Task) : State :=
  match s.namedCtx x t with
  | none => s.illegalAt x t
  | some y =>
    if y.halted ∨ y.saved then (s.askHalt y []).setStat x.num t.uid .complete
    else if y.num = x.num then (s.setStat x.num t.uid .complete).askHalt y []
    else (s.setStat x.num t.uid .issued).askHalt y [(x.num, t.uid)]

/-- `TCTX` resume at issue: a halted context, or a Faulted one at its retired state. -/
def issueTctxResume (s : State) (x : Ctx) (t : Task) : State :=
  match s.namedCtx x t with
  | none => s.illegalAt x t
  | some y =>
    let s := if y.faulted then (s.squashWindow y.num).modCtx y.num (fun y => { y with faulted := false }) else s
    let s := if y.dhalt then s else match s.ctx y.num with
      | some y => s.resumeCtx y
      | none => s
    s.setStat x.num t.uid .complete

/-- `TCTX` set priority at issue. -/
def issueTctxSetPriority (s : State) (x : Ctx) (t : Task) : State :=
  match s.namedCtx x t with
  | none => s.illegalAt x t
  | some y => (s.modCtx y.num (fun y => { y with prio := t.slot.b.toNat })).setStat x.num t.uid .complete

/-! ### Issue -/

/-- A task that is complete from its acceptance on has nothing to do at issue. -/
def issueNothing (s : State) (_x : Ctx) (_t : Task) : State := s

/-- What an opcode does at issue. -/
def issueBody (op : Nat) (sl : TaskSlot) : State → Ctx → Task → State :=
  match op with
  | 0x03 => issueTlaunch
  | 0x04 => issueTcopy
  | 0x05 => issueTfill
  | 0x06 => issueTstamp
  | 0x0B => issueTwaitv
  | 0x0C => issueTsig
  | 0x0D => issueTmark
  | 0x0E => issueTfence
  | 0x0F => issueTlease
  | 0x10 => issueTrotate
  | 0x11 => issueTport
  | 0x12 => issueTscope
  | 0x16 => if bits sl.a.toNat 7 4 = 0 then issueTpagerRegister else issueTpagerUnregister
  | 0x17 =>
    match bits sl.a.toNat 3 0 with
    | 0 => issueTctxCreate
    | 1 => issueTctxDestroy
    | 2 => issueTctxHalt
    | 3 => issueTctxResume
    | _ => issueTctxSetPriority
  | _ => issueNothing

/-- Issue a task when R84 allows it: its undo versions first, then `body`. -/
def State.issueTask (s : State) (c t : Nat) (body : State → Ctx → Task → State) : State :=
  match s.ctx c with
  | none => s
  | some x =>
    match x.task t with
    | none => s
    | some k => if x.mayIssue k then s.withUndo x k (fun s => match s.ctx c, s.task c t with
        | some x, some k => body s x k
        | _, _ => s) else s

/-- `TASK_ISSUE`. -/
def execTaskIssue (c t : Nat) (s : State) : Host.Outcome State Fault Refusal :=
  match s.task c t with
  | none => .next s
  | some k => .next (s.issueTask c t (issueBody k.op k.slot))

/-- A task instruction: the sequencer of context `seqCtx` accepts it at its position, and it issues at once when it may. -/
def State.runTask (s : State) (op : Nat) (sl : TaskSlot) (ok : Bool) (accept : State → Ctx → Task → Accepted)
    (issue : State → Ctx → Task → State) : Host.Outcome State Fault Refusal :=
  let id := s.nextUid
  let c := s.seqCtx
  .next ((s.acceptTask c op sl ok accept).issueTask c id issue)

/-! ### The task instructions (R70) -/

/-- `TBUF` (R92). -/
def execTbuf (sl : TaskSlot) (s : State) : Host.Outcome State Fault Refusal :=
  s.runTask 0x01 sl (Instr.tbuf sl).wf acceptTbuf issueNothing
/-- `TDROP` (R93). -/
def execTdrop (sl : TaskSlot) (s : State) : Host.Outcome State Fault Refusal :=
  s.runTask 0x02 sl (Instr.tdrop sl).wf acceptTdrop issueNothing
/-- `TLAUNCH` (R91). -/
def execTlaunch (sl : TaskSlot) (s : State) : Host.Outcome State Fault Refusal :=
  s.runTask 0x03 sl (Instr.tlaunch sl).wf acceptTlaunch issueTlaunch
/-- `TCOPY` (R94). -/
def execTcopy (sl : TaskSlot) (s : State) : Host.Outcome State Fault Refusal :=
  s.runTask 0x04 sl (Instr.tcopy sl).wf acceptTcopy issueTcopy
/-- `TFILL` (R96). -/
def execTfill (sl : TaskSlot) (s : State) : Host.Outcome State Fault Refusal :=
  s.runTask 0x05 sl (Instr.tfill sl).wf acceptTfill issueTfill
/-- `TSTAMP` (R97). -/
def execTstamp (sl : TaskSlot) (s : State) : Host.Outcome State Fault Refusal :=
  s.runTask 0x06 sl (Instr.tstamp sl).wf acceptTstamp issueTstamp
/-- `TBR` (R99). -/
def execTbr (sl : TaskSlot) (s : State) : Host.Outcome State Fault Refusal :=
  s.runTask 0x07 sl (Instr.tbr sl).wf acceptTbr issueNothing
/-- `TBRC` (R99). -/
def execTbrc (sl : TaskSlot) (s : State) : Host.Outcome State Fault Refusal :=
  s.runTask 0x08 sl (Instr.tbrc sl).wf acceptTbrc issueNothing
/-- `TCALL` (R98). -/
def execTcall (sl : TaskSlot) (s : State) : Host.Outcome State Fault Refusal :=
  s.runTask 0x09 sl (Instr.tcall sl).wf acceptTcall issueNothing
/-- `TRET` of the task stream (R98). -/
def execTretTask (sl : TaskSlot) (s : State) : Host.Outcome State Fault Refusal :=
  s.runTask 0x0A sl (Instr.tretTask sl).wf acceptTret issueNothing
/-- `TWAITV` (R101). -/
def execTwaitv (sl : TaskSlot) (s : State) : Host.Outcome State Fault Refusal :=
  s.runTask 0x0B sl (Instr.twaitv sl).wf acceptTwaitv issueTwaitv
/-- `TSIG` (R102). -/
def execTsig (sl : TaskSlot) (s : State) : Host.Outcome State Fault Refusal :=
  s.runTask 0x0C sl (Instr.tsig sl).wf acceptTsig issueTsig
/-- `TMARK` (R103). -/
def execTmark (sl : TaskSlot) (s : State) : Host.Outcome State Fault Refusal :=
  s.runTask 0x0D sl (Instr.tmark sl).wf acceptTmark issueTmark
/-- `TFENCE` (R104). -/
def execTfence (sl : TaskSlot) (s : State) : Host.Outcome State Fault Refusal :=
  s.runTask 0x0E sl (Instr.tfence sl).wf acceptTfence issueTfence
/-- `TLEASE` (R379). -/
def execTlease (sl : TaskSlot) (s : State) : Host.Outcome State Fault Refusal :=
  s.runTask 0x0F sl (Instr.tlease sl).wf acceptTlease issueTlease
/-- `TROTATE` (R386). -/
def execTrotate (sl : TaskSlot) (s : State) : Host.Outcome State Fault Refusal :=
  s.runTask 0x10 sl (Instr.trotate sl).wf acceptTrotate issueTrotate
/-- `TPORT` (R105). -/
def execTport (sl : TaskSlot) (s : State) : Host.Outcome State Fault Refusal :=
  s.runTask 0x11 sl (Instr.tport sl).wf acceptTport issueTport
/-- `TSCOPE` (R106). -/
def execTscope (sl : TaskSlot) (s : State) : Host.Outcome State Fault Refusal :=
  s.runTask 0x12 sl (Instr.tscope sl).wf acceptTscope issueTscope
/-- `TSETK` (R100). -/
def execTsetk (sl : TaskSlot) (s : State) : Host.Outcome State Fault Refusal :=
  s.runTask 0x13 sl (Instr.tsetk sl).wf acceptTsetk issueNothing
/-- `TADDK` (R100). -/
def execTaddk (sl : TaskSlot) (s : State) : Host.Outcome State Fault Refusal :=
  s.runTask 0x14 sl (Instr.taddk sl).wf acceptTaddk issueNothing
/-- `TBRK` (R100). -/
def execTbrk (sl : TaskSlot) (s : State) : Host.Outcome State Fault Refusal :=
  s.runTask 0x15 sl (Instr.tbrk sl).wf acceptTbrk issueNothing
/-- `TPAGER` register (R368). -/
def execTpagerRegister (sl : TaskSlot) (s : State) : Host.Outcome State Fault Refusal :=
  s.runTask 0x16 sl (Instr.tpagerRegister sl).wf acceptTpagerRegister issueTpagerRegister
/-- `TPAGER` unregister (R368). -/
def execTpagerUnregister (sl : TaskSlot) (s : State) : Host.Outcome State Fault Refusal :=
  s.runTask 0x16 sl (Instr.tpagerUnregister sl).wf acceptTpagerUnregister issueTpagerUnregister
/-- `TCTX` create (R336). -/
def execTctxCreate (sl : TaskSlot) (s : State) : Host.Outcome State Fault Refusal :=
  s.runTask 0x17 sl (Instr.tctxCreate sl).wf acceptTctxCreate issueTctxCreate
/-- `TCTX` destroy (R336). -/
def execTctxDestroy (sl : TaskSlot) (s : State) : Host.Outcome State Fault Refusal :=
  s.runTask 0x17 sl (Instr.tctxDestroy sl).wf acceptTctxDestroy issueTctxDestroy
/-- `TCTX` halt (R336). -/
def execTctxHalt (sl : TaskSlot) (s : State) : Host.Outcome State Fault Refusal :=
  s.runTask 0x17 sl (Instr.tctxHalt sl).wf acceptTctxHalt issueTctxHalt
/-- `TCTX` resume (R336). -/
def execTctxResume (sl : TaskSlot) (s : State) : Host.Outcome State Fault Refusal :=
  s.runTask 0x17 sl (Instr.tctxResume sl).wf acceptTctxResume issueTctxResume
/-- `TCTX` set priority (R336). -/
def execTctxSetPriority (sl : TaskSlot) (s : State) : Host.Outcome State Fault Refusal :=
  s.runTask 0x17 sl (Instr.tctxSetPriority sl).wf acceptTctxSetPriority issueTctxSetPriority
/-- `TNOP` (R107). -/
def execTnop (sl : TaskSlot) (s : State) : Host.Outcome State Fault Refusal :=
  s.runTask 0x18 sl (Instr.tnop sl).wf acceptTnop issueNothing

/-! ### Events of waiting tasks (R101) -/

/-- Whether a task is a `TWAITV` that waits. -/
def Task.waits (t : Task) : Bool := t.op == 0x0B && t.stat == .issued && t.fault.isNone

/-- `TWAITV_REREAD`. -/
def execTwaitvReread (c t : Nat) (s : State) : Host.Outcome State Fault Refusal :=
  match s.task c t with
  | none => .next s
  | some k => if k.waits ∧ ((s.ctx c).map (fun x => x.unitRuns .window)).getD false then .next (s.readWait c k) else .next s

/-- `WAIT_TIMEOUT`: device time has reached t0 + A + 1. -/
def execWaitTimeout (c t : Nat) (s : State) : Host.Outcome State Fault Refusal :=
  match s.task c t with
  | none => .next s
  | some k =>
    if k.waits ∧ k.slot.a ≠ 0 ∧ k.lastRead = false ∧ k.t0 + k.slot.a.toNat < s.now then
      .next (s.taskFaults c t { code := 0x23, sub := 0, detail := k.slot.b.toNat })
    else .next s

end Sys2Proof.Machine
end

