-- ==== Sys2Proof/Machine/TaskRetire.lean ====
section
/-!
DEFINITION. The end of a task (spec/03_task_stream.md R85 to R89, R102, R103; spec/02_birth_times.md R58, R59;
R274, R275, R440 of spec/09_async_and_egress.md; R311, R312 of spec/13_program_fresh_egress.md; R329 of
spec/15_privileged_state_and_traps.md; R348, R349, R358 of spec/16_scheduling_hardware.md; R439): retirement, release of egress
records, faults of the task layer, re-fire and replay, ingress, the pool ring.
-/

namespace Sys2Proof.Machine

/-! ### Retirement writes (R439) -/

/-- Drop a retirement write, with its error record. -/
def State.dropRetireWrite (s : State) (c va : Nat) : State := s.logCtx c 4 0 none true va

/-- A retirement write of n bytes at va: `f` performs it over the mapped runs. True once it is performed or dropped, false while
it is held. -/
def State.retireAccess (s : State) (c va n : Nat) (f : List Seg → State → State) : Bool × State :=
  let failed := ((s.ctx c).bind (fun x => x.dropWrite)).any (fun u =>
    decide (va / 65536 ≤ u / 65536) && decide (u / 65536 ≤ (va + n - 1) / 65536))
  if failed then (true, (s.modCtx c (fun x => { x with dropWrite := none })).dropRetireWrite c va)
  else
    match s.engMap c .store va n with
    | (.ok l, s) => (true, f l s)
    | (.error .wait, s) => (false, s)
    | (.error (.held u kind), s) =>
      match s.joinPager c u kind 16 (.retirement c) with
      | (some _, s) => (false, s)
      | (none, s) => (true, s.dropRetireWrite c va)
    | (.error _, s) => (true, s.dropRetireWrite c va)

/-- Bytes with their stamps, cut at 64 KiB boundaries. -/
def pageRuns : Nat → Nat → List (Byte × Stamp) → List (Nat × List (Byte × Stamp))
  | 0, _, _ => []
  | fuel + 1, va, l =>
    if l.isEmpty then []
    else
      let k := 65536 - va % 65536
      (va, l.take k) :: pageRuns fuel (va + k) (l.drop k)

/-- All the page runs of bytes at va. -/
def runsAt (va : Nat) (l : List (Byte × Stamp)) : List (Nat × List (Byte × Stamp)) := pageRuns (l.length / 65536 + 2) va l

/-- Make writes in order as far as they go; the count done is carried on. -/
def State.retireRuns (c : Nat) : List (Nat × List (Byte × Stamp)) → Nat → State → Nat × State
  | [], k, s => (k, s)
  | (va, l) :: rest, k, s =>
    let st := granuleStamps (l.length / 32 + 2) va l
    match s.retireAccess c va l.length (fun segs s => State.segWrite segs (l.map (fun b => b.1)) (fun i => st.getD i sVacant) s) with
    | (true, s) => State.retireRuns c rest (k + 1) s
    | (false, s) => (k, s)

/-! ### Staged effects (R86, R102, R103, R94) -/

/-- Change a staged effect's progress. -/
def State.setProgress (s : State) (c t seq n : Nat) : State :=
  s.modTask c t (fun k => { k with staged := k.staged.map (fun g => if g.seq == seq then { g with progress := n } else g) })

/-- A staged effect is delivered: it leaves its task, and its staging version goes back. -/
def State.unstage (s : State) (c t : Nat) (g : Staged) : State :=
  (s.modTask c t (fun k => { k with staged := k.staged.filter (fun x => x.seq != g.seq) })).freeBlocks c g.block

/-- The cell write of `TSIG`, then its interrupt. A poisoned granule that `.OR` would read drops the write. -/
def State.retireSignal (s : State) (c va : Nat) (v : Word) (orOp : Bool) (vector : Option Nat) : Bool × State :=
  match s.retireAccess c va 8 (fun l s =>
      match (if orOp then s.segPoison l else none) with
      | some pa => s.logCtx c 2 0 none false pa
      | none =>
        let w := if orOp then BitVec.ofNat 64 (ofBytes (s.segBytes l)) ||| v else v
        State.segWrite l (toBytes 8 w.toNat) (fun _ => sTimeless) s) with
  | (false, s) => (false, s)
  | (true, s) => (true, match vector with
    | some n => s.sendMsix n
    | none => s)

/-- The write of `TMARK`: device time, then the tag. -/
def State.retireMark (s : State) (c va : Nat) (tag : Word) : Bool × State :=
  s.retireAccess c va 16 (fun l s => State.segWrite l (toBytes 8 s.now ++ toBytes 8 tag.toNat) (fun _ => sTimeless) s)

/-- Perform a staged effect other than a record at retirement; true once it is done with. -/
def State.retireEffect (s : State) (c t : Nat) (g : Staged) : Bool × State :=
  match g.kind with
  | .signal va v orOp vector => s.retireSignal c va v orOp vector
  | .mark va tag => s.retireMark c va tag
  | .hostCopy va bs st _ =>
    let ws := runsAt va (List.zip bs st)
    let (k, s) := State.retireRuns c (ws.drop g.progress) g.progress s
    (k == ws.length, s.setProgress c t g.seq k)
  | .destroySelf => (true, s)
  | .record _ _ _ _ => (false, s)

/-! ### Egress (R272, R274, R440) -/

/-- The bytes of a record with their stamps: header, payload, padding (R272). -/
def recordOf (now : Nat) (bs : List Byte) (st : List Stamp) : List (Byte × Stamp) :=
  let n := bs.length
  let hd := toBytes 4 n ++ toBytes 4 (combineList st).toNat ++ toBytes 8 now
  hd.map (fun b => (b, sTimeless)) ++ List.zip bs st ++ List.replicate (recordBytes n - 16 - n) (0#8, sTimeless)

/-- Bytes at an offset of a ring of size n at base, cut at the ring's end. -/
def ringSplit (base n off : Nat) (l : List (Byte × Stamp)) : List (Nat × List (Byte × Stamp)) :=
  let k := n - off % n
  [(base + off % n, l.take k), (base, l.drop k)].filter (fun p => !p.2.isEmpty)

/-- The 8-byte cell of a port: its value, or how the read of it ends. -/
def State.portCell (s : State) (c va : Nat) : Except EngFail Nat × State :=
  match s.engRead c va 8 with
  | (.ok r, s) => (.ok (ofBytes r.1), s)
  | (.error e, s) => (.error e, s)

/-- Whether a host ring has room for a record: a cell that no access will reach counts as a write that is dropped (log 15). -/
inductive Room where
  | yes | no | never
  deriving DecidableEq, Repr

/-- Room in a host ring for n bytes. -/
def State.hostRoom (s : State) (c : Nat) (p : Port) (n : Nat) : Room × State :=
  let va := (p.desc.getD 3 0#64).toNat
  match s.portCell c va with
  | (.ok cons, s) => (if n ≤ 2 ^ p.log2 - (p.prod + 2 ^ 64 - cons) % 2 ^ 64 then .yes else .no, s)
  | (.error (.held u kind), s) =>
    match s.joinPager c u kind 16 (.retirement c) with
    | (some _, s) => (.no, s)
    | (none, s) => (.never, s)
  | (.error .wait, s) => (.no, s)
  | (.error _, s) => (.never, s)

/-- Change a port of a context. -/
def State.modPort (s : State) (c n : Nat) (f : Port → Port) : State :=
  s.modCtx c (fun x => { x with ports := x.ports.map (fun p => if p.n == n then f p else p) })

/-- Write a record to a host ring: the record, then PROD, then the interrupt. True once it is done with. -/
def State.releaseHost (s : State) (c t : Nat) (p : Port) (g : Staged) (bs : List Byte) (st : List Stamp) : Bool × State :=
  let size := recordBytes bs.length
  let go : Room × State := if g.progress = 0 then s.hostRoom c p size else (.yes, s)
  match go with
  | (.no, s) => (false, s)
  | (.never, s) => (true, s.dropRetireWrite c (p.desc.getD 3 0#64).toNat)
  | (.yes, s) =>
    let ring := (ringSplit (p.desc.getD 0 0#64).toNat (2 ^ p.log2) p.prod (recordOf s.now bs st)).flatMap (fun r => runsAt r.1 r.2)
    let prod := (p.prod + size) % 2 ^ 64
    let ws := ring ++ [((p.desc.getD 2 0#64).toNat, (toBytes 8 prod).map (fun b => (b, sTimeless)))]
    let (k, s) := State.retireRuns c (ws.drop g.progress) g.progress s
    if k < ws.length then (false, s.setProgress c t g.seq k)
    else
      let s := s.modPort c p.n (fun p => { p with prod := prod })
      let irq := (p.desc.getD 4 0#64).toNat
      (true, if bit irq 15 then s.sendMsix (bits irq 10 0) else s)

/-- The port of this package that receives the records of a context with a domain context number from its port m (R271, R263). -/
def State.localPort (s : State) (dcn src m pport : Nat) : Option (Nat × Port) :=
  s.ctxs.findSome? (fun y =>
    if y.dcn != dcn then none
    else (y.ports.find? (fun q => q.n == pport && q.kind == 4 && bits (q.desc.getD 2 0#64).toNat 5 0 == src
      && bits (q.desc.getD 2 0#64).toNat 13 8 == m)).map (fun q => (y.num, q)))

/-- Whether a peer grants space for a record: its own port decides for this package itself, another package answers over the base
channel, which is a free choice here. -/
def State.peerRoom (s : State) (dcn m peer pport n : Nat) : Bool × State :=
  if s.reachable peer = false then (false, s)
  else if peer = s.devid then
    match s.localPort dcn s.devid m pport with
    | none => (false, s)
    | some (_, q) =>
      let waiting := s.fab.inPk.filter (fun k => k.kind == 7 && k.src == s.devid && k.dcn == dcn && k.tag == pport)
      let under := (waiting.map (fun k => k.length)).foldl (· + ·) 0
      (decide (q.prod - q.cons + under + n ≤ 2 ^ q.log2), s)
  else
    let (k, s) := s.choose 2
    (k == 1, s)

/-- The packets that carry a record to a peer, at most 4,096 bytes each (log 13). -/
def State.sendRecord (s : State) (dcn m peer pport mark : Nat) (l : List Byte) : State :=
  (List.range ((l.length + 4095) / 4096)).foldl (fun s i =>
    let bs := (l.drop (4096 * i)).take 4096
    let (id, s) := s.fresh
    s.postPacket { id := id, kind := 7, src := s.devid, dst := peer, xfer := 0, dalign := 0, sport := m, mark := mark, dcn := dcn,
                   tag := pport, ten := false, aop := 0, length := bs.length, cap := { lo := 0#64, hi := 0#64 }, offset := 4096 * i, runs := [],
                   data := bs }) s

/-- Deliver a record to a peer's port; true once it is handed over. -/
def State.releasePeer (s : State) (x : Ctx) (p : Port) (mark : Nat) (bs : List Byte) (st : List Stamp) : Bool × State :=
  let w := (p.desc.getD 0 0#64).toNat
  match s.peerRoom x.dcn (p.n % 64) (bits w 5 0) (bits w 13 8) (recordBytes bs.length) with
  | (false, s) => (false, s)
  | (true, s) => (true, s.sendRecord x.dcn (p.n % 64) (bits w 5 0) (bits w 13 8) mark ((recordOf s.now bs st).map (fun b => b.1)))

/-- Release one staged record; true once it is done with. -/
def State.releaseRecord (s : State) (x : Ctx) (t : Nat) (g : Staged) : Bool × State :=
  match g.kind with
  | .record n bs st _ =>
    match x.port n with
    | none => (true, s.dropRetireWrite x.num 0)
    | some p => if p.kind = 1 then s.releaseHost x.num t p g bs st else s.releasePeer x p g.seq bs st
  | _ => (false, s)

/-- Whether an earlier `SEND` of a task to a port is not staged yet. -/
def State.sendBefore (s : State) (c t n seq : Nat) : Bool :=
  s.engines.any (fun e => e.ctx == c && e.task == t && e.kind == .send n && decide (e.seq < seq) && !e.staged && !e.failed)

/-- The staged records of a task of context c that no earlier record of the same port precedes, staged or still to be staged (R86). -/
def State.headRecords (s : State) (c : Nat) (t : Task) : List Staged :=
  t.staged.filter (fun g =>
    match g.kind with
    | .record n _ _ _ => !t.staged.any (fun h => decide (h.seq < g.seq) && h.kind.ofPort n) && !s.sendBefore c t.uid n g.seq
    | _ => false)

/-- Write the journal, which lies at the start of the save area (R358). Its form is the device's own: 64 bytes of free values (DESIGN
CHOICE, log 60). -/
def State.writeJournal (s : State) (c : Nat) : State :=
  match s.ctx c with
  | none => s
  | some x =>
    let (n, s) := s.freeVal
    s.ctxWrite c x.save (toBytes 64 n)

/-- A staged effect is delivered, and marked done in its task's journal when that is valid (R358). -/
def State.deliverStaged (s : State) (c t : Nat) (g : Staged) : State :=
  let valid := ((s.ctx c).bind (fun x => x.journal)).any (fun j => j.1 == t)
  let s := s.unstage c t g
  if valid then s.writeJournal c else s

/-- Release the first of some records that can be. -/
def State.releaseFirst (x : Ctx) (t : Nat) : List Staged → State → State
  | [], s => s
  | g :: rest, s =>
    match s.releaseRecord x t g with
    | (true, s) => s.deliverStaged x.num t g
    | (false, s) => State.releaseFirst x t rest s

/-! ### Retirement (R85, R358) -/

/-- Whether the oldest task of a context may retire. -/
def Ctx.retiring (x : Ctx) : Option Task :=
  if x.faulted || !x.unitRuns .window || !x.owed.isEmpty then none
  else
    match x.window with
    | t :: _ => if t.stat = .complete ∧ t.fault.isNone then some t else none
    | [] => none

/-- Step 1, once for a task: the journal is written and valid, and the retired rename map is that of the task. -/
def State.beginRetire (s : State) (c : Nat) (t : Task) : State :=
  if ((s.ctx c).bind (fun x => x.journal)).any (fun j => j.1 == t.uid) then s
  else (s.modCtx c (fun x => { x with journal := some (t.uid, 1), rmap := t.afterMap })).writeJournal c

/-- Whether the device's own writes for a context are all made. -/
def State.paid (s : State) (c : Nat) : Bool := ((s.ctx c).map (fun x => x.owed.isEmpty)).getD true

/-- Perform the staged effects of a task in their order, as far as they go; each is marked done in the journal. -/
def State.retireEffects (c t : Nat) : List Staged → State → Bool × State
  | [], s => (true, s)
  | g :: rest, s =>
    match s.retireEffect c t g with
    | (true, s) => State.retireEffects c t rest (s.deliverStaged c t g)
    | (false, s) => (false, s)

/-- The retired state in the stream header: GEN odd, then RETIRED, DEPTH, the frames in use from the outermost in and K0 to K15, then GEN
even (R68). -/
def State.writeRetired (s : State) (c : Nat) : State :=
  match s.ctx c with
  | none => s
  | some x =>
    let r := x.retired
    let s := s.ctxWrite c (x.stream + 0x10) (toBytes 8 ((x.gen + 2 ^ 64 - 1) % 2 ^ 64))
    let s := s.ctxWrite c (x.stream + 0x08) (toBytes 8 r.ring)
    let s := s.ctxWrite c (x.stream + 0x18) (toBytes 8 r.frames.length ++ r.frames.reverse.flatMap (toBytes 8))
    let s := s.ctxWrite c (x.stream + 0x60) (r.ks.flatMap (fun k => toBytes 8 k.toNat))
    s.ctxWrite c (x.stream + 0x10) (toBytes 8 x.gen)

/-- The kept copies that a retiring `.REFIRE` copy leaves: one for each version that it wrote (R311). -/
def Task.keeps (t : Task) : List (Ver × Task) :=
  if t.op = 0x04 ∧ t.slot.flags.getLsbD 2 ∧ t.skipped = false then t.news.map (fun v => (v, t)) else []

/-- Steps 3 and 4. -/
def State.finishRetire (s : State) (c : Nat) (t : Task) : State :=
  let s := s.freeBlocks c (t.olds ++ t.undo.map (fun u => u.2))
  let s := s.modCtx c (fun x =>
    { x with
      retired := t.after
      gen := (x.gen + 2) % 2 ^ 64
      kept := x.kept ++ t.keeps
      window := x.window.filter (fun y => y.uid != t.uid)
      journal := none
      recovering := false })
  (s.writeRetired c).writeJournal c

/-- `TASK_RETIRE`: the oldest task retires once its records are released; the other staged effects are performed here. -/
def execTaskRetire (c : Nat) (s : State) : Host.Outcome State Fault Refusal :=
  match s.ctx c with
  | none => .next s
  | some x =>
    match x.retiring with
    | none => .next s
    | some t =>
      let s := s.beginRetire c t
      if s.paid c = false then .next s
      else if t.staged.any (fun g => g.kind == .destroySelf) then .next (s.destroyCtx c)
      else
        match State.retireEffects c t.uid t.staged s with
        | (true, s) => .next (s.finishRetire c t)
        | (false, s) => .next s

/-- `EGRESS_RELEASE`: a record of task t is released: at its retirement, or at once with IMM (R90). -/
def execEgressRelease (c t : Nat) (s : State) : Host.Outcome State Fault Refusal :=
  match s.ctx c with
  | none => .next s
  | some x =>
    match x.task t with
    | none => .next s
    | some k =>
      if (k.launch.map (fun l => l.imm)).getD false then
        if x.unitRuns .window ∧ x.faulted = false then .next (State.releaseFirst x t (s.headRecords c k) s) else .next s
      else
        match x.retiring with
        | none => .next s
        | some r =>
          let s' := s.beginRetire c r
          if r.uid ≠ t then .next s
          else if s'.paid c = false then .next s'
          else .next (State.releaseFirst x t (s.headRecords c k) s')

/-! ### Delivery (R87, R329) -/

/-- The 32 bytes of a fault record. -/
def faultRecord (now addr : Nat) (f : TFault) : List Byte :=
  toBytes 8 (f.code % 256 * 2 ^ 56 + f.sub % 256 * 2 ^ 48 + f.thsub % 256 * 2 ^ 40
      + (match f.thread with
          | some (h, cr, tid) => 2 ^ 37 + h % 2 ^ 24 * 2 ^ 13 + cr % 8 * 2 ^ 10 + tid % 1024
          | none => 0))
    ++ toBytes 8 addr ++ toBytes 8 f.detail ++ toBytes 8 now

/-- Deliver a fault to software, precise at a slot: the Faulted mark, the record, then the interrupt. -/
def State.deliver (s : State) (c addr : Nat) (f : TFault) : State :=
  match s.ctx c with
  | none => s
  | some x =>
    (s.setCtx { x with faulted := true, journal := none, recovering := false }).owe c
      (.write x.faultAddr (faultRecord s.now addr f) (if x.firq then some x.fvec else none))

/-- Handle the fault of the oldest task by delivering it. -/
def State.deliverOldest (s : State) (c : Nat) (t : Task) (f : TFault) : State := (s.squashWindow c).deliver c t.addr f

/-! ### Replay and re-fire (R58, R59, R311, R342) -/

/-- Regions as they stand in a map. -/
def resolveIn (m : List LBuf) (l : List Region) : List Region :=
  l.map (fun r => match lbufOf m r.lb with
    | some b => { r with ver := b.ver }
    | none => r)

/-- A task as it was at its acceptance, its progress undone. -/
def Task.rearmed (t : Task) : Task :=
  { t with
    stat := .waiting, fault := none, undo := [], staged := [], nextCohort := 0, lastStart := none, t0 := 0, seen := none, lastRead := false }

/-- Re-issue kept copies in order, ahead of a task: each draws a fresh version of its buffer; one whose buffer now holds a pager's queue
is illegal (R369). The copies, and the map after them, or the size class that has no version left. -/
def State.refire (c : Nat) (pos : Pos) : List Task → List LBuf → List Task → State → Except Nat (List Task × List LBuf × State)
  | [], m, out, s => .ok (out, m, s)
  | k :: ks, m, out, s =>
    let l := resolveIn m k.regions
    let enter := fun (r : Renamed) (f : Option TFault) (s : State) =>
      let (id, s) := s.fresh
      State.refire c pos ks r.map (out ++ [{ k.rearmed with
        uid := id, before := pos, after := pos, beforeMap := m, afterMap := r.map, regions := r.regions, news := r.news,
        olds := r.olds, taken := [], replays := 0, ringIdx := none, fault := f }]) s
    if s.movesQueue c l then enter { regions := l, map := m, news := [], olds := [] } (some k.illegal) s
    else
      match State.renameAll c l { regions := [], map := m, news := [], olds := [] } s with
      | .error cls => .error cls
      | .ok (r, s) => enter r none s

/-- The re-firable producers of a task, in their original order (R57, R311). -/
def Ctx.producers (x : Ctx) (t : Task) : List Task :=
  sortBy (fun a b => decide (a.order ≤ b.order))
    ((x.kept.filter (fun k => t.regions.any (fun r => r.kind == 0 && r.ver == k.1))).map (fun k => k.2))

/-- Replay the oldest task, behind re-issued producers: everything younger is squashed and accepted again. -/
def State.replayOldest (s : State) (c : Nat) (t : Task) (prods : List Task) (count : Nat) : State :=
  match s.ctx c with
  | none => s
  | some x =>
    let s0 := s
    let short := fun (s : State) (cls : Nat) =>
      if s0.poolWaits x then s0 else s.deliverOldest c t { code := 0x21, sub := cls, detail := t.addr }
    let s := s.squashAll c (x.window.filter (fun y => y.uid != t.uid))
    let s := (s.undoTask c t).freeBlocks c t.news
    match State.refire c t.before prods t.beforeMap [] s with
    | .error cls => short s cls
    | .ok (ps, m, s) =>
      if s.movesQueue c (resolveIn m t.regions) then s.deliverOldest c t t.illegal
      else
      match State.renameAll c (resolveIn m t.regions) { regions := [], map := m, news := [], olds := [] } s with
      | .error cls => short s cls
      | .ok (r, s) =>
        let t' := { t.rearmed with
          beforeMap := m, afterMap := r.map, regions := r.regions, news := r.news, olds := r.olds, replays := t.replays + count }
        s.modCtx c (fun x => { x with window := ps ++ [t'], accept := t'.after, map := t'.afterMap })

/-- The oldest task of a context with its held fault, when the window may handle it: while a stop is under way the fault is kept with its
task (R354). -/
def Ctx.faultHead (x : Ctx) : Option (Task × TFault) :=
  if x.faulted || x.stop.isSome || !x.unitRuns .window || !x.owed.isEmpty then none
  else
    match x.window with
    | t :: _ => t.fault.map (fun f => (t, f))
    | [] => none

/-- `TASK_FAULT`: a held fault of the oldest task, other than a freshness fault, is handled: delivered, or, for the model's code 0,
which containment holds with a task (R342), replayed. -/
def execTaskFault (c : Nat) (s : State) : Host.Outcome State Fault Refusal :=
  match s.ctx c with
  | none => .next s
  | some x =>
    match x.faultHead with
    | none => .next s
    | some (t, f) =>
      if f.code = 0x26 then .next s
      else if f.code = 0 then .next (s.replayOldest c t [] 0)
      else .next (s.deliverOldest c t f)

/-- `FRESHNESS_FAULT`: an escalated freshness fault of the oldest task is delivered, or its producers are re-fired and it is
replayed. -/
def execFreshnessFault (c : Nat) (s : State) : Host.Outcome State Fault Refusal :=
  match s.ctx c with
  | none => .next s
  | some x =>
    match x.faultHead with
    | none => .next s
    | some (t, f) =>
      if f.code ≠ 0x26 then .next s
      else
        let prods := x.producers t
        let (ctl, s) := s.ctlNow x
        if t.replayable = false ∨ prods = [] ∨ bits ctl.toNat 11 8 ≤ t.replays then .next (s.deliverOldest c t f)
        else .next (s.replayOldest c t prods 1)

/-! ### Ingress (R275) -/

/-- Virtual runs of n bytes of a ring from a count on. -/
def ringRuns (base size off n : Nat) : List (Nat × Nat) :=
  let k := min n (size - off % size)
  [(base + off % size, k), (base, n - k)].filter (fun p => p.2 != 0)

/-- What a piece of ingress data gives a copy, and what of it is left. -/
def Task.split (t : Task) (p : List (Byte × Option Stamp)) : List (Byte × Option Stamp) × List (Byte × Option Stamp) :=
  let n := if t.dstk = 2 then p.length else t.wants
  (p.take n, p.drop n)

/-- The producer count of an ingress ring: the host's cell, or the port's own. -/
def State.ingressProd (s : State) (c : Nat) (p : Port) : Except EngFail Nat × State :=
  if p.kind = 3 then s.portCell c (p.desc.getD 2 0#64).toNat else (.ok p.prod, s)

/-- Read the next record of an ingress ring for a task and consume it; none while it is not wholly there. Data of a peer, and of a host ring
in host memory, takes its stamp when it is written at its destination (R46); data of a host ring in device memory has its granules'
(R440). -/
def State.nextRecord (s : State) (c t : Nat) (p : Port) : Except EngFail (Option (List (Byte × Option Stamp))) × State :=
  let base := (p.desc.getD 0 0#64).toNat
  let size := 2 ^ p.log2
  let read := fun (off n : Nat) (s : State) =>
    State.readRuns (fun s => s.readRun c none true) (.task c t) (ringRuns base size off n) s
  match s.ingressProd c p with
  | (.error e, s) => (.error e, s)
  | (.ok prod, s) =>
    let avail := (prod + 2 ^ 64 - p.cons) % 2 ^ 64
    if avail < 32 then (.ok none, s)
    else
      match read p.cons 4 s with
      | (.error e, s) => (.error e, s)
      | (.ok hd, s) =>
        let len := ofBytes (hd.map (fun b => b.1))
        if avail < recordBytes len then (.ok none, s)
        else
          match read (p.cons + 16) len s with
          | (.error e, s) => (.error e, s)
          | (.ok l, s) =>
            let cons := (p.cons + recordBytes len) % 2 ^ 64
            let w : Except EngFail Unit × State :=
              if p.kind = 3 then s.engWrite c (p.desc.getD 3 0#64).toNat (toBytes 8 cons) (fun _ => sTimeless) else (.ok (), s)
            match w with
            | (.error e, s) => (.error e, s)
            | (.ok _, s) =>
              let irq := (p.desc.getD 4 0#64).toNat
              let s := s.modPort c p.n (fun p => { p with cons := cons })
              let s := if p.kind = 3 ∧ bit irq 15 then s.sendMsix (bits irq 10 0) else s
              (.ok (some (if p.kind = 3 then l else l.map (fun b => (b.1, none)))), s)

/-- Give a copy a piece of ingress data; what is left of it is kept by `keep`. Once the copy has enough, its engine starts. -/
def State.giveIngress (s : State) (c t : Nat) (p : Port) (piece : List (Byte × Option Stamp))
    (keep : List (List (Byte × Option Stamp)) → Port → Port) : State :=
  match s.task c t with
  | none => s
  | some k =>
    let (got, left) := k.split piece
    let s := s.modPort c p.n (keep (if left.isEmpty then [] else [left]))
    let k := { k with taken := k.taken ++ [got] }
    let s := s.modTask c t (fun _ => k)
    if k.wants = 0 then s.taskEngine c t .tcopy else s

/-- Whether a task is a copy that waits for ingress data. -/
def Task.ingests (t : Task) : Bool := t.op == 0x04 && t.srck == 2 && t.stat == .issued && t.fault.isNone && t.wants != 0

/-- Data that squashed copies had taken, which a copy takes first; a re-issued copy takes new data alone (R94, R95). -/
def Task.backOf (t : Task) (p : Port) : List (List (Byte × Option Stamp)) := if t.order = t.uid then p.back else []

/-- `INGRESS_CONSUME`: a copy takes what its port holds next: data that was taken for it before a squash, the rest of a split record, or the
next record of the ring. -/
def execIngressConsume (c t : Nat) (s : State) : Host.Outcome State Fault Refusal :=
  match s.ctx c with
  | none => .next s
  | some x =>
    match x.task t with
    | none => .next s
    | some k =>
      if k.ingests = false ∨ x.unitRuns .window = false then .next s
      else
        match x.port k.cport with
        | none => .next s
        | some p =>
          match k.backOf p, p.remainder with
          | piece :: rest, _ => .next (s.giveIngress c t p piece (fun l p => { p with back := l ++ rest }))
          | [], piece :: rest => .next (s.giveIngress c t p piece (fun l p => { p with remainder := l ++ rest }))
          | [], [] =>
            match s.nextRecord c t p with
            | (.ok none, s) => .next s
            | (.ok (some piece), s) => .next (s.giveIngress c t p piece (fun l p => { p with remainder := l }))
            | (.error e, s) => .next (s.taskAccessFailed c t 0 e)

/-! ### The pool ring (R349) -/

/-- Take pool entry n with word 1 given. -/
def State.takePool (s : State) (x : Ctx) (w : Nat) : State :=
  let full := match poolBlock w with
    | some v => decide (2 ^ 20 ≤ x.ownedOf v.cls)
    | none => false
  if full then s
  else
    let s := s.ctxWrite x.num x.poolAddr (toBytes 8 0)
    s.modCtx x.num (fun x => match poolBlock w with
      | some v => { x with poolIdx := x.poolIdx + 1, free := x.free ++ [v], owned := AList.put 0 v.cls (x.ownedOf v.cls + 1) x.owned }
      | none => { x with poolIdx := x.poolIdx + 1 })

/-- `POOL_ENTRY_TAKE`: the next entry of a context's pool ring is taken once its TAG is n + 1. -/
def execPoolEntryTake (c : Nat) (s : State) : Host.Outcome State Fault Refusal :=
  match s.ctx c with
  | none => .next s
  | some x =>
    if x.saved then .next s
    else
      match s.engRead c x.poolAddr 16 with
      | (.error _, s) => .next s
      | (.ok (bs, _), s) =>
        if ofBytes (bs.take 8) = (x.poolIdx + 1) % 2 ^ 64 then .next (s.takePool x (ofBytes (bs.drop 8))) else .next s

end Sys2Proof.Machine
end

