-- ==== Sys2Proof/Machine/Scheduling.lean ====
section
/-!
DEFINITION. The scheduling hardware (spec/16_scheduling_hardware.md R350 to R357; spec/01_machine_model.md R12, R15 to R21; R277
of spec/10_matrix_and_update.md; R335 of spec/15_privileged_state_and_traps.md): fit, admission, pre-emption, starts, release,
the stop of a context, its save and restore, islands.
-/

namespace Sys2Proof.Machine

/-! ### Fit (R12, R15, R17, R277) -/

/-- What a cohort needs. -/
structure Need where
  task : Nat
  threads : Nat
  regs : Nat
  crews : Nat
  scr : Nat
  acc : Nat
  deriving DecidableEq, Repr

/-- What occupies the clusters: resident cohorts and their crews. -/
structure Load where
  cohorts : List Cohort
  crews : List Crew
  deriving DecidableEq, Repr

/-- The resident cohorts and crews, without those of the contexts for which `gone` holds. -/
def State.load (s : State) (gone : Nat → Bool) : Load :=
  let hs := s.cohorts.filter (fun h => !h.saved && !gone h.ctx)
  { cohorts := hs, crews := s.crews.filter (fun c => hs.any (fun h => h.uid == c.cohort)) }

/-- Thread slots in use on a core. -/
def Load.slots (l : Load) (k : Nat) : Nat := ((l.crews.filter (fun c => c.core == k)).map (fun c => c.nthread)).foldl (· + ·) 0
/-- Registers in use in a partition of a core. -/
def Load.regs (l : Load) (k p : Nat) : Nat :=
  ((l.crews.filter (fun c => c.core == k)).map (fun c => crewRegs c.nthread c.nregs p)).foldl (· + ·) 0
/-- Scratchpad bytes in use on a core. -/
def Load.scratch (l : Load) (k : Nat) : Nat := ((l.crews.filter (fun c => c.core == k)).map (fun c => c.scrSize)).foldl (· + ·) 0
/-- Accumulator bytes in use on a cluster. -/
def Load.acc (l : Load) (q : Nat) : Nat := ((l.cohorts.filter (fun h => h.cluster == q)).map (fun h => h.accBytes)).foldl (· + ·) 0
/-- Plane pairs in use on a cluster. -/
def Load.planes (l : Load) (q : Nat) : Nat :=
  ((l.cohorts.filter (fun h => h.cluster == q && h.accBytes != 0)).map (fun h => h.ncrew)).foldl (· + ·) 0

/-- Whether one crew of a cohort fits a core. -/
def State.coreFits (s : State) (l : Load) (n : Need) (k : Nat) : Bool :=
  let e := s.coreEntry k
  e.avail && !e.fenced && decide (l.slots k + n.threads ≤ Config.threadSlots)
    && decide (l.scratch k + n.scr ≤ Config.scratchBytes)
    && (List.range 4).all (fun p => decide (l.regs k p + crewRegs n.threads n.regs p ≤ Config.partRegs))

/-- The cores of a cluster that have room for a crew of a cohort, those with the most free thread slots first, ties to the lowest; none
when the cohort does not fit the cluster. -/
def State.roomOn (s : State) (l : Load) (n : Need) (q : Nat) : Option (List Nat) :=
  let cores := (listOf Config.coresPerCluster (fun i => Config.coresPerCluster * q + i)).filter (s.coreFits l n)
  let sorted := sortBy (fun a b => decide (l.slots a < l.slots b) || (l.slots a == l.slots b && decide (a ≤ b))) cores
  if l.cohorts.any (fun h => h.cluster == q && h.task == n.task) then none
  else if Config.accBytes < l.acc q + n.acc ∨ (n.acc ≠ 0 ∧ Config.planePairs < l.planes q + n.crews) then none
  else if sorted.length < n.crews then none
  else some sorted

/-- The cores of a cluster that a cohort's crews would go to: those with the most free thread slots, ties to the lowest; none when
the cohort does not fit. -/
def State.fitOn (s : State) (l : Load) (n : Need) (q : Nat) : Option (List Nat) := (s.roomOn l n q).map (fun cs => cs.take n.crews)

/-- The clusters of a die. -/
def clustersOf (die : Nat) : List Nat := listOf Config.clustersPerDie (fun i => Config.clustersPerDie * die + i)

/-- The lowest cluster of a die that a cohort fits, with its cores. -/
def State.fitDie (s : State) (l : Load) (n : Need) (die : Nat) : Option (Nat × List Nat) :=
  (clustersOf die).findSome? (fun q => (s.fitOn l n q).map (fun cs => (q, cs)))

/-- The ways to take n of a list in its order, the first n of it first. -/
def waysToTake : Nat → List Nat → List (List Nat)
  | 0, _ => [[]]
  | _ + 1, [] => []
  | n + 1, x :: xs => (waysToTake n xs).map (fun l => x :: l) ++ waysToTake (n + 1) xs

/-- Every place for a cohort on a die: cluster and cores, the place that an admission would take first. -/
def State.placesOn (s : State) (l : Load) (n : Need) (die : Nat) : List (Nat × List Nat) :=
  (clustersOf die).flatMap (fun q =>
    match s.roomOn l n q with
    | some cs => (waysToTake n.crews cs).map (fun ks => (q, ks))
    | none => [])

/-- The need of a launch's cohort. -/
def Launch.need (l : Launch) (task : Nat) : Need :=
  { task := task, threads := l.threads, regs := l.regs, crews := l.crews, scr := l.scr, acc := l.acc }

/-- The need of a saved cohort, by the crews it still has. -/
def Cohort.need (h : Cohort) (cs : List Crew) : Need :=
  let c := cs.head?
  { task := h.task, threads := (c.map (fun c => c.nthread)).getD 0, regs := (c.map (fun c => c.nregs)).getD 0, crews := cs.length,
    scr := (c.map (fun c => c.scrSize)).getD 0, acc := h.accBytes }

/-! ### Waiting items (R351) -/

/-- A waiting item of a context: the head cohort of a launch, or the restore of the whole context. -/
inductive Item where
  | cohort (t : Nat) (l : Launch)
  | restore
  deriving DecidableEq, Repr

/-- The launch whose cohort is at the head of a context (R16). -/
def Ctx.headLaunch (x : Ctx) : Option (Task × Launch) :=
  x.window.findSome? (fun t =>
    match t.launch with
    | some l => if t.stat = .issued ∧ t.skipped = false ∧ t.nextCohort < l.cohorts then some (t, l) else none
    | none => none)

/-- The waiting item of a context; of its cohorts one or more may be saved while it is not (R342). -/
def State.itemOf (s : State) (x : Ctx) : Option Item :=
  if x.faulted || x.halted || x.stop.isSome then none
  else if x.saved || s.cohorts.any (fun h => h.ctx == x.num && h.saved) then some .restore
  else x.headLaunch.map (fun p => .cohort p.1.uid p.2)

/-- What tells one item of a context from the next: the cohort's task and number, none for a restore. -/
def Ctx.itemKey (x : Ctx) (i : Item) : Option (Nat × Nat) :=
  match i with
  | .cohort t _ => some (t, ((x.task t).map (fun k => k.nextCohort)).getD 0)
  | .restore => none

/-- Ticks that a context's item has waited since it became the head and found no fit. -/
def State.waited (s : State) (x : Ctx) (i : Item) : Nat :=
  match x.waitSince with
  | some (w, k) => if k = x.itemKey i then s.now - w else 0
  | none => 0

/-- The effective level of an item. -/
def State.level (s : State) (x : Ctx) (i : Item) : Nat :=
  let base := match i with
    | .cohort _ l => min l.prio x.prio
    | .restore => x.prio
  min 7 (base + s.waited x i / 2 ^ bits (s.part x.part).sched.toNat 20 16)

/-- The waiting items in the arbiters' order. -/
def State.items (s : State) : List (Ctx × Item) :=
  sortBy (fun a b =>
      let la := s.level a.1 a.2
      let lb := s.level b.1 b.2
      let wa := s.waited a.1 a.2
      let wb := s.waited b.1 b.2
      decide (lb < la) || (la == lb && (decide (wb < wa) || (wa == wb && decide (a.1.num ≤ b.1.num)))))
    (s.ctxs.filterMap (fun x => (s.itemOf x).map (fun i => (x, i))))

/-- The saved cohorts of a context with their crews. -/
def State.savedOf (s : State) (c : Nat) : List (Cohort × List Crew) :=
  (s.cohorts.filter (fun h => h.ctx == c && h.saved)).map (fun h => (h, s.crews.filter (fun k => k.cohort == h.uid)))

/-- Places for saved cohorts, each on a cluster of its die, all at once: cohort, cluster, cores. Every way to place them is tried (R355). -/
def State.placeAll (s : State) : List (Cohort × List Crew) → Load → Option (List (Nat × Nat × List Nat))
  | [], _ => some []
  | (h, cs) :: rest, l =>
    (s.placesOn l (h.need cs) h.die).findSome? (fun p =>
      let placed := List.zipWith (fun (c : Crew) k => { c with core := k }) cs p.2
      (s.placeAll rest { cohorts := l.cohorts ++ [{ h with cluster := p.1 }], crews := l.crews ++ placed }).map
        (fun r => (h.uid, p.1, p.2) :: r))

/-- The die whose arbiter considers the restore of a context. -/
def State.restoreDie (s : State) (x : Ctx) : Nat :=
  ((s.savedOf x.num).map (fun p => p.1.die)).foldl min (if (s.savedOf x.num).isEmpty then x.home else Config.dies)

/-- Whether an item fits on a die once the contexts for which `gone` holds are released. A context whose image still waits to be written
is not restored. -/
def State.itemFits (s : State) (gone : Nat → Bool) (die : Nat) (x : Ctx) (i : Item) : Bool :=
  match i with
  | .cohort t k => (s.part x.part).dies.getLsbD die && (s.fitDie (s.load gone) (k.need t) die).isSome
  | .restore =>
    s.restoreDie x == die && x.owed.isEmpty && (!x.saved || (s.homeWithout x.part gone).isSome)
      && (s.placeAll (s.savedOf x.num) (s.load gone)).isSome

/-- The item that a die's arbiter admits: the first that fits the die; none when it has admitted in this cycle (R347, R351). -/
def State.dieChoice (s : State) (die : Nat) : Option (Ctx × Item) :=
  if s.admits.contains die then none else s.items.find? (fun p => s.itemFits (fun _ => false) die p.1 p.2)

/-! ### Admission (R16, R19, R21) -/

/-- The lowest free crew slot of a core. -/
def State.freeSlot (s : State) (k : Nat) : Nat :=
  let used := (s.load (fun _ => false)).crews.filter (fun c => c.core == k)
  ((List.range 32).find? (fun i => !used.any (fun c => c.slot == i))).getD 0

/-- A thread at its start (R21); `ctxsel` names its own context (R320). -/
def Thread.start (ctx cr tid nregs : Nat) (code args : CapW) : Thread :=
  { crew := cr, tid := tid, pc := { hdr := code.cursor, slot := 0 }, clause := none
    regs := [{ v := args.lo, s := sTimeless }, { v := args.hi, s := sTimeless }] ++ List.replicate (nregs - 2) { v := 0#64, s := sVacant }
    tags := true :: List.replicate (nregs / 2 - 1) false
    flags := List.replicate 12 0, pend := [], lops := [], fpmode := 0#4, fpstat := 0#6, amax := 0#32, xmask := 0xFFFFFFFF#32,
    stale := 0#9, wbase := 0#8, stkptr := 0#64, repctr := 0#7, dither := 0#6, abs := List.replicate 7 0#64, ecause := 0#64,
    epc := 0#64, edetail := 0#64, elanes := 0#64, ewbase := 0#64, erep := 0#64, ememb := 0xFF#64, hnd := false, ctxsel := BitVec.ofNat 6 ctx,
    dbgsel := 0#64, st := .running, resume := .running, lastIssue := none, readySince := none, notBefore := 0, resumedAt := none,
    doneAt := 0, triedAt := none, yieldFor := [] }

/-- A crew at its start (R21, R210, R277). -/
def Crew.start (uid ctx task cohort crewid core slot : Nat) (l : Launch) (tvec : Word) : Crew :=
  { uid := uid, ctx := ctx, task := task, cohort := cohort, crewid := crewid, core := core, slot := slot, nthread := l.threads,
    nregs := l.regs, scr := Memory.empty, scrSize := l.scr
    cbs := List.replicate (l.threads / 32) (List.replicate 8 { mask := 0xFFFFFFFF#32, arr := 0#32 })
    bars := List.replicate 16 { gen := 0#32, arrived := [], released := none }
    tvec := tvec, pendTvec := [], rdvs := [], active := Plane.empty, shadow := Plane.empty, mq := [], mf := 0#6, drained := false }

/-- Start one crew with its threads on a core. -/
def State.startCrew (s : State) (ctx task cohort crewid core : Nat) (l : Launch) (tvec : Word) : State :=
  let (uid, s) := s.fresh
  let c := Crew.start uid ctx task cohort crewid core (s.freeSlot core) l tvec
  { s with crews := s.crews ++ [c], threads := s.threads ++ listOf l.threads (fun i => Thread.start ctx uid i l.regs l.code l.args) }

/-- Whether a context has a crew resident. -/
def State.hasCrews (s : State) (c : Nat) : Bool := (s.load (fun _ => false)).crews.any (fun k => k.ctx == c)

/-- Admit the head cohort of a launch on a cluster. -/
def State.admitCohort (s : State) (x : Ctx) (t : Nat) (l : Launch) (q : Nat) (cores : List Nat) : State :=
  let first := !s.hasCrews x.num
  let id := ((x.task t).map (fun k => k.nextCohort)).getD 0
  let (uid, s) := s.fresh
  let h : Cohort :=
    { uid := uid, ctx := x.num, task := t, cohortid := id, die := q / Config.clustersPerDie, cluster := q, ncrew := l.crews,
      acc := Memory.empty, accBytes := l.acc, admitted := s.cycle, started := none, saved := false }
  let s := { s with cohorts := s.cohorts ++ [h] }
  let s := (numbered (fun i k => (i, k)) cores).foldl (fun s p => s.startCrew x.num t uid p.1 p.2 l x.tvec) s
  ({ s with admits := s.admits ++ [h.die] }.modTask x.num t (fun k => { k with nextCohort := id + 1 })).modCtx x.num (fun x =>
    { x with waitSince := none, resSince := if first then s.cycle else x.resSince, resTick := if first then s.now else x.resTick })

/-! ### Restore (R335, R355) -/

/-- Poison of a saved image comes back with the granule of a scratchpad that the image's form has there, which is the device's own: a free
choice (R44, R335; DESIGN CHOICE, log 61). -/
def State.poisonRestored (s : State) (c : Nat) : State :=
  let cs := s.crews.filter (fun k => k.ctx == c)
  let (n, s) := s.freeVal
  let (g, s) := s.freeVal
  match cs[n % (cs.length + 1)]? with
  | some k => if k.scrSize = 0 then s else s.setCrew { k with scr := k.scr.putPoison (g % ((k.scrSize + 31) / 32)) true }
  | none => s

/-- Whether the saved image is as it was sealed; none while a line of it is awaited. An image that cannot be reached is not. -/
def State.sealOk (s : State) (x : Ctx) : Option Bool × State :=
  if x.sealBytes.isEmpty then (some true, s)
  else
    match s.engMap x.num .load (x.save + 4096) x.sealBytes.length with
    | (.ok l, s) =>
      if s.segBytes l ≠ x.sealBytes then (some false, s)
      else (some true, if (s.segPoison l).isSome then s.poisonRestored x.num else s)
    | (.error .wait, s) => (none, s)
    | (.error (.violation pa), s) => (some false, s.logCtx x.num 4 0 none false pa)
    | (.error _, s) => (some false, s)

/-- The address of the oldest task's slot, or of the next slot when the window is empty. -/
def Ctx.oldestAddr (x : Ctx) : Nat := (x.window.head?.map (fun t => t.addr)).getD (x.slotAddr x.accept)

/-- Put a saved cohort's crews on the cores found for it: each takes the lowest slot that is free there, its cohort's former ones among
them (R19). -/
def State.placeCohort (s : State) (p : Nat × Nat × List Nat) : State :=
  let cs := s.crews.filter (fun c => c.cohort == p.1)
  let s := (List.zip cs p.2.2).foldl (fun s q => s.setCrew { q.1 with core := q.2, slot := s.freeSlot q.2 }) s
  { s with
    cohorts := s.cohorts.map (fun h => if h.uid == p.1 then { h with cluster := p.2.1, saved := false, admitted := s.cycle } else h)
    admits := s.admits ++ [p.2.1 / Config.clustersPerDie] }

/-- Restore a context on the places found; an image that fails its check is not restored (code 0x29, SUB 5). Of a context that is not
saved itself, its saved cohorts come back (R342). -/
def State.restoreCtx (s : State) (x : Ctx) : State :=
  match s.placeAll (s.savedOf x.num) (s.load (fun _ => false)), (if x.saved then s.homeFor x.part else some x.home) with
  | some ps, some home =>
    match s.sealOk x with
    | (none, s) => s
    | (some false, s) =>
      ((s.squashWindow x.num).modCtx x.num (fun y => { y with sealBytes := [] })).deliver x.num x.oldestAddr
        { code := 0x29, sub := 5, detail := x.save }
    | (some true, s) =>
      let back := fun (t : Thread) => x.dhalt == false && ((s.crew t.crew).map (fun c => ps.any (fun p => p.1 == c.cohort))).getD false
      let s := ps.foldl State.placeCohort s
      (s.modCtx x.num (fun y =>
        { y with
          saved := false, sealBytes := [], home := home, waitSince := none
          resSince := if x.saved then s.cycle else y.resSince
          resTick := if x.saved then s.now else y.resTick })).wakeWhere back
  | _, _ => s

/-- What the arbiter of a die does in a cycle. -/
def State.arbiter (s : State) (die : Nat) : State :=
  match s.dieChoice die with
  | some (x, .cohort t l) =>
    match s.fitDie (s.load (fun _ => false)) (l.need t) die with
    | some (q, cores) => s.admitCohort x t l q cores
    | none => s
  | some (x, .restore) => s.restoreCtx x
  | none => s

/-- The arbiters of the dies below one act first (R351). -/
def State.arbitersBelow (s : State) (die : Nat) : State := (List.range die).foldl State.arbiter s

/-- `CONTEXT_RESTORE`: a pre-empted context is restored when the arbiter of its die chooses it. -/
def execContextRestore (c : Nat) (s : State) : Host.Outcome State Fault Refusal :=
  match s.ctx c with
  | none => .next s
  | some x =>
    let s' := s.arbitersBelow (s.restoreDie x)
    match s'.dieChoice (s.restoreDie x) with
    | some (y, .restore) => if y.num = c then .next (s'.restoreCtx y) else .next s
    | _ => .next s

/-! ### Pre-emption (R352) -/

/-- All sublists of a list. -/
def subsets {α : Type} : List α → List (List α)
  | [] => [[]]
  | x :: xs => let r := subsets xs; r ++ r.map (fun l => x :: l)

/-- The order of two lists by their first differing place. -/
def lexBefore : List Nat → List Nat → Option Bool
  | x :: xs, y :: ys => if x < y then some true else if y < x then some false else lexBefore xs ys
  | _, _ => none

/-- Whether one set of contexts of equal size is chosen before another. -/
def chosenBefore (a b : List Ctx) : Bool :=
  let lv := fun (l : List Ctx) => sortBy (fun x y => decide (y ≤ x)) (l.map (fun x => x.prio))
  let rs := fun (l : List Ctx) => sortBy (fun x y => decide (y ≤ x)) (l.map (fun x => x.resSince))
  let ns := fun (l : List Ctx) => sortBy (fun x y => decide (x ≤ y)) (l.map (fun x => x.num))
  match lexBefore (lv a) (lv b) with
  | some r => r
  | none =>
    match lexBefore (rs b) (rs a) with
    | some r => r
    | none => (lexBefore (ns a) (ns b)).getD true

/-- Whether an item would fit somewhere once the contexts for which `gone` holds are released. -/
def State.fitsWithout (s : State) (x : Ctx) (i : Item) (gone : Nat → Bool) : Bool :=
  (List.range Config.dies).any (fun d => s.itemFits gone d x i)

/-- The contexts to pre-empt for an item that fits nowhere: the first of the smallest sets that make room. -/
def State.victims (s : State) (x : Ctx) (i : Item) : List Ctx :=
  let e := s.level x i
  let stopping := fun (c : Nat) => s.orders.contains c || ((s.ctx c).map (fun y => y.stop.isSome)).getD false
  let may := s.ctxs.filter (fun y => y.part == x.part && y.num != x.num && !y.saved && !stopping y.num && decide (y.prio < e)
    && decide (bits (s.part x.part).sched.toNat 39 24 ≤ s.now - y.resTick))
  let ok := (subsets may).filter (fun l => s.fitsWithout x i (fun c => stopping c || l.any (fun y => y.num == c)))
  let least := (ok.map List.length).foldl min (may.length + 1)
  ((sortBy chosenBefore (ok.filter (fun l => l.length == least))).head?).getD []

/-- The wait of a context's item begins, unless it waits already. -/
def Ctx.waitsFrom (x : Ctx) (i : Item) (now : Nat) : Ctx :=
  if x.waitSince.any (fun w => w.2 == x.itemKey i) then x else { x with waitSince := some (now, x.itemKey i) }

/-- An item that fits nowhere: its wait begins, and the pre-emptions that make room for it are ordered. -/
def State.makeRoom (s : State) (c : Nat) : State :=
  match s.ctx c with
  | none => s
  | some x =>
    match s.itemOf x with
    | none => s
    | some i =>
      if s.fitsWithout x i (fun _ => false) then s
      else
        let x := x.waitsFrom i s.now
        let s := s.setCtx x
        { s with orders := s.orders ++ (s.victims x i).map (fun y => y.num) }

/-- The pre-emptions ordered in a cycle begin with the next one (R352). -/
def State.beginOrders (s : State) : State :=
  s.orders.foldl (fun s c => s.beginStop c .preempt []) { s with orders := [] }

/-- `COHORT_ADMIT`: the arbiter of a die admits the first waiting item that fits it; items that fit nowhere wait, and may have
contexts pre-empted. -/
def execCohortAdmit (die : Nat) (s : State) : Host.Outcome State Fault Refusal :=
  if Config.dies ≤ die then .next s
  else .next ((s.items.map (fun p => p.1.num)).foldl State.makeRoom ((s.arbitersBelow die).arbiter die))

/-! ### Starts and islands (R356, R357) -/

/-- An island. -/
def State.island (s : State) (i : Nat) : Island := s.islands.getD i { on := false, idleSince := 0, lastStart := none }

/-- The cycle in which a cohort's start falls due; none while its launch's previous cohort has not started, its island is down,
its context is being stopped, or it has started. -/
def State.startDue (s : State) (h : Cohort) : Option Nat :=
  let t := s.task h.ctx h.task
  let waits := s.cohorts.any (fun k => k.ctx == h.ctx && k.task == h.task && decide (k.cohortid < h.cohortid) && k.started.isNone)
  let stops := ((s.ctx h.ctx).map (fun x => x.stop.isSome || x.saved || x.halted)).getD true
  let i := s.island (islandOf h.cluster)
  if h.saved || h.started.isSome || waits || stops || !i.on then none
  else
    let stagger := ((t.bind (fun t => t.launch)).map (fun l => l.stagger)).getD 0
    let prev := ((t.bind (fun t => t.lastStart)).map (fun c => c + stagger)).getD 0
    let isl := (i.lastStart.map (fun c => c + 16)).getD 0
    some (max (h.admitted + 1) (max prev isl))

/-- Whether a due cohort starts before another of its island. -/
def startsBefore (a b : Nat × Cohort) : Bool :=
  decide (a.1 < b.1) || (a.1 == b.1 && (decide (a.2.admitted < b.2.admitted)
    || (a.2.admitted == b.2.admitted && (decide (a.2.ctx < b.2.ctx) || (a.2.ctx == b.2.ctx && decide (a.2.uid ≤ b.2.uid))))))

/-- The cohort of an island that starts next in this cycle. -/
def State.nextStart (s : State) (i : Nat) : Option Cohort :=
  let due := (s.cohorts.filter (fun h => islandOf h.cluster == i)).filterMap (fun h => (s.startDue h).map (fun d => (d, h)))
  (sortBy startsBefore (due.filter (fun p => decide (p.1 ≤ s.cycle)))).head?.map (fun p => p.2)

/-- `COHORT_START`: an admitted cohort's threads become eligible. -/
def execCohortStart (h : Nat) (s : State) : Host.Outcome State Fault Refusal :=
  match s.cohort h with
  | none => .next s
  | some k =>
    match s.nextStart (islandOf k.cluster) with
    | none => .next s
    | some n =>
      if n.uid ≠ h then .next s
      else
        let s := s.setCohort { k with started := some s.cycle }
        let s := { s with islands := modifyAt (fun i => { i with lastStart := some s.cycle }) (islandOf k.cluster) s.islands }
        .next (s.modTask k.ctx k.task (fun t => { t with lastStart := some s.cycle }))

/-- `ISLAND_POWER_DOWN`: an island without a resident crew for IDLE ticks goes down while IGATE is set. -/
def execIslandPowerDown (i : Nat) (s : State) : Host.Outcome State Fault Refusal :=
  let sched := (s.part (s.partOfDie (i / 4))).sched.toNat
  let isl := s.island i
  if isl.on && bit sched 12 && !s.islandBusy i && decide (bits sched 11 0 ≤ s.now - isl.idleSince) then
    .next { s with islands := modifyAt (fun k => { k with on := false }) i s.islands }
  else .next s

/-- `ISLAND_POWER_UP`: an island that is down and holds an admitted cohort comes up. -/
def execIslandPowerUp (i : Nat) (s : State) : Host.Outcome State Fault Refusal :=
  if !(s.island i).on && s.islandBusy i then .next { s with islands := modifyAt (fun k => { k with on := true }) i s.islands }
  else .next s

/-! ### Release (R18) -/

/-- Whether a crew may be released: its threads have exited, and its bulk, matrix and update operations are complete. -/
def State.crewDone (s : State) (c : Crew) : Bool :=
  s.threads.all (fun t => t.crew != c.uid || t.st == .exited) && c.mq.isEmpty && !s.engines.any (fun e => e.crew == some c.uid)

/-- Release a crew; with its last crew its cohort, and with the last cohort its launch is complete. -/
def State.releaseCrew (s : State) (c : Crew) : State :=
  let s := { s with crews := s.crews.filter (fun k => k.uid != c.uid), threads := s.threads.filter (fun t => t.crew != c.uid) }
  let s := s.modCtx c.ctx (fun x => { x with dtags := x.dtags.filter (fun g => g.crew != c.uid) })
  if s.crews.any (fun k => k.cohort == c.cohort) then s
  else
    let q := ((s.cohort c.cohort).map (fun h => h.cluster)).getD 0
    let s := ({ s with cohorts := s.cohorts.filter (fun h => h.uid != c.cohort) } : State).noteIdle q
    s.modTask c.ctx c.task (fun t =>
      match t.launch with
      | some l =>
        if l.cohorts ≤ t.nextCohort ∧ s.cohorts.all (fun h => h.ctx != c.ctx || h.task != c.task) then { t with stat := .complete } else t
      | none => t)

/-- `CREW_RELEASE`. -/
def execCrewRelease (cr : Nat) (s : State) : Host.Outcome State Fault Refusal :=
  match s.crew cr with
  | none => .next s
  | some c =>
    let saved := ((s.cohort c.cohort).map (fun h => h.saved)).getD false
    if s.crewDone c ∧ saved = false then .next (s.releaseCrew c) else .next s

/-! ### The stop of a context (R353, R354, R335) -/

/-- Whether a thread is where its core may acknowledge: at a clause boundary or not Ready, with its accesses complete. -/
def State.quiet (s : State) (t : Thread) : Bool :=
  let still := t.st != .running || t.pc.slot == 0 || (s.judge t (fun _ => true)).1.isNone
  still && !t.lops.any (fun o => o.access)

/-- Stop a thread whatever slot it stands at, with its issued results made visible (R163). -/
def Thread.stopNow (t : Thread) : Thread :=
  match t.st with
  | .escalated => t
  | .exited => t
  | .stopped => t
  | st => { t.handOver with st := .stopped, resume := st }

/-- The threads of a context on a core. -/
def State.onCore (s : State) (c k : Nat) (t : Thread) : Bool := s.ctxOf t == c && s.coreOf t == k

/-- Whether a unit has reached its boundary for a context. Every step of an engine is one event, so that an engine always stands
at one. -/
def State.atBoundary (s : State) (c : Nat) (u : StopUnit) : Bool :=
  match u with
  | .core k => s.threads.all (fun t => !s.onCore c k t || s.quiet t)
  | .matrix _ => true
  | .update _ => true
  | .copy _ => true
  | .sender _ => true
  | .window => true

/-- Squash an issued replayable task so that it issues again (R353, WPOL 1): it keeps its place and its versions, which are fresh
again. -/
def State.reissueTask (c : Nat) (s : State) (t : Task) : State :=
  let s := s.undoTask c t
  let s := t.news.foldl (fun s v =>
    let (z, s) := s.choose 2
    State.vacateBlock c v.va (classBytes v.cls) (z == 0) ((classBytes v.cls + 65535) / 65536) s) s
  s.modTask c t.uid (fun t => { t with stat := .waiting, undo := [], staged := [], nextCohort := 0, lastStart := none, t0 := 0, seen := none })

/-- What a unit does as it acknowledges. -/
def State.stopUnit (s : State) (x : Ctx) (u : StopUnit) : State :=
  match u with
  | .core k => s.mapThreads (fun t => if s.onCore x.num k t then t.stopNow else t)
  | .window =>
    if bit (s.part x.part).sched.toNat 13 then
      (x.window.filter (fun t => t.stat == .issued && t.replayable && t.fault.isNone)).reverse.foldl (State.reissueTask x.num) s
    else s
  | _ => s

/-- Complete the tasks that wait for a stop. -/
def State.stopTasks (s : State) (l : List (Nat × Nat)) : State := l.foldl (fun s p => s.setStat p.1 p.2 .complete) s

/-- Release the crews of a context that are done: they are not saved (R354). -/
def State.releaseDone (s : State) (c : Nat) : State :=
  (s.crews.filter (fun k => k.ctx == c && s.crewDone k)).foldl State.releaseCrew s

/-- Save a stopped context: the sealed image goes to its save area behind the journal, and its crews' resources are released. -/
def State.saveCtx (s : State) (x : Ctx) (halt : Bool) (resume : Bool) : State :=
  let (id, s) := (s.releaseDone x.num).fresh
  let bytes := Config.imageBytes id
  if halt ∧ x.savesz < 4096 + bytes.length then
    (s.modCtx x.num (fun y => { y with stop := none, halted := true })).deliver x.num x.oldestAddr
      { code := 0x29, sub := 6, detail := x.save }
  else
    let s := s.ctxWrite x.num (x.save + 4096) bytes
    let qs := (s.cohorts.filter (fun h => h.ctx == x.num && !h.saved)).map (fun h => h.cluster)
    let s := { s with cohorts := s.cohorts.map (fun (h : Cohort) => if h.ctx == x.num then { h with saved := true } else h) }
    let s := (s.mapThreads (fun t => if s.ctxOf t == x.num then t.stopNow else t)).modCtx x.num (fun y =>
      { y with stop := none, saved := true, halted := halt && !resume, sealBytes := bytes, waitSince := none })
    qs.foldl State.noteIdle s

/-- The stop of a context is complete. -/
def State.completeStop (s : State) (x : Ctx) (st : Stop) : State :=
  let s := match st.kind with
    | .preempt => s.saveCtx x false false
    | .halt => s.saveCtx x true st.resumeAsked
    | .destroy => s.destroyCtx x.num
  s.stopTasks st.tasks

/-- `UNIT_STOP_ACK`: a unit of a stopping context acknowledges; with the last acknowledgement the stop is complete. -/
def execUnitStopAck (c : Nat) (u : StopUnit) (s : State) : Host.Outcome State Fault Refusal :=
  match s.ctx c with
  | none => .next s
  | some x =>
    match x.stop with
    | none => .next s
    | some st =>
      if st.waiting.contains u = false ∨ s.atBoundary c u = false then .next s
      else
        let s := s.stopUnit x u
        let st := { st with waiting := st.waiting.filter (fun w => w != u) }
        let s := s.modCtx c (fun x => { x with stop := some st })
        match s.ctx c with
        | none => .next s
        | some x => if st.waiting.isEmpty then .next (s.completeStop x st) else .next s

end Sys2Proof.Machine
end

