-- ==== Sys2Proof/Machine/Clock.lean ====
section
/-!
DEFINITION. Device time and what it drives (spec/02_birth_times.md R61 to R63; R417, R423 of spec/20_host_stacks_bringup.md), the
rotating scan, and the records of pagers (R369, R370 of spec/17_translation_and_pagers.md).
-/

namespace Sys2Proof.Machine

/-! ### Pager records (R370) -/

/-- The address of a pager's next record, and the context that serves it: the queue is current in its retired map (R369). -/
def State.pagerSlot (s : State) (p : Pager) : Option Nat :=
  ((s.ctx p.sctx).bind (fun y => lbufOf y.rmap p.qlb)).map (fun b => b.ver.va + 32 * (p.next % 2 ^ p.logq))

/-- Words 1 to 3 of a pager record. -/
def pagerWords (c : Nat) (f : PFault) : List Nat :=
  [f.kind % 256 * 2 ^ 56 + c % 64 * 2 ^ 48 + f.acc % 256 * 2 ^ 40, f.unit % 2 ^ 40 * 65536, f.time]

/-- Write a pager record: words 1 to 3, then word 0, each an 8-byte write. -/
def State.writePagerRecord (s : State) (sctx va c n : Nat) (f : PFault) : State :=
  let s := (numbered (fun i w => (i, w)) (pagerWords c f)).foldl (fun s p => s.ctxWrite sctx (va + 8 + 8 * p.1) (toBytes 8 p.2)) s
  s.ctxWrite sctx va (toBytes 8 (n + 1))

/-- `PAGER_RECORD_WRITE`: the first waiting fault of pager p of context c becomes a record once its position reads TAG 0 and can be written. -/
def execPagerRecordWrite (c p : Nat) (s : State) : Host.Outcome State Fault Refusal :=
  match (s.ctx c).bind (fun x => x.pagers.find? (fun q => q.p == p)) with
  | none => .next s
  | some q =>
    match q.waiting, s.pagerSlot q with
    | f :: rest, some va =>
      match s.engRead q.sctx va 8 with
      | (.error _, s) => .next s
      | (.ok (bs, _), s) =>
        if ofBytes bs ≠ 0 then .next s
        else
          match s.engMap q.sctx .store va 32 with
          | (.error _, s) => .next s
          | (.ok _, s) =>
            let s := s.writePagerRecord q.sctx va c q.next f
            .next (s.modCtx c (fun x => x.modPager p (fun q =>
            { q with next := q.next + 1, recs := q.recs ++ [{ n := q.next, unit := f.unit, joined := f.joined }], waiting := rest })))
    | _, _ => .next s

/-! ### The scan (R62, R63, R423) -/

/-- Clamp the stamp of a granule against a time. -/
def Memory.clampGranule (m : Memory) (now g : Nat) : Memory := m.putStamp g (clampStamp now (m.stamp g))

/-- Clamp the stamp at a place. -/
def State.clampAt (s : State) : Loc → State
  | .dram pa => { s with mem := s.mem.clampGranule s.now (pa / 32) }
  | .hostLine pa => if s.hl.lines.contains (pa / 64) then { s with hmem := s.hmem.clampGranule s.now (pa / 32) } else s
  | .scratch cr off => s.modCrew cr (fun c => { c with scr := c.scr.clampGranule s.now (off / 32) })
  | .acc h off =>
    match s.cohort h with
    | none => s
    | some k => s.setCohort { k with acc := k.acc.clampGranule s.now (off / 32) }
  | .reg cr tid n =>
    match s.thread cr tid with
    | none => s
    | some t => s.setThread { t with regs := modifyAt (fun r => { r with s := clampStamp s.now r.s }) n t.regs }
  | .plane cr shadow =>
    s.modCrew cr (fun c =>
      if shadow then { c with shadow := { c.shadow with s := clampStamp s.now c.shadow.s } }
      else { c with active := { c.active with s := clampStamp s.now c.active.s } })

/-- `STAMP_SCAN_VISIT`: the rotating scan visits a stamp. -/
def execStampScanVisit (l : Loc) (s : State) : Host.Outcome State Fault Refusal := .next (s.clampAt l)

/-- The clamp of the Eft, whose time may be behind the device's: a stamp later than its time is left alone (DEDUCED, log 38). -/
def patrolStamp (now : Nat) (x : Stamp) : Stamp := if 2 ^ 29 ≤ stampAge now x then x else clampStamp now x

/-- Bytes of a stack. -/
def State.stackBytes (s : State) : Nat := s.height * 2 ^ 32
/-- A stack. -/
def State.stack (s : State) (n : Nat) : Stack := s.memStacks.getD n Stack.reset
/-- Change a stack. -/
def State.modStack (s : State) (n : Nat) (f : Stack → Stack) : State := { s with memStacks := modifyAt f n s.memStacks }

/-- `EFT_PATROL_VISIT`: the Eft of a stack visits a line and clamps its two stamps. -/
def execEftPatrolVisit (stack line : Nat) (s : State) : Host.Outcome State Fault Refusal :=
  let k := s.stack stack
  if k.started = false ∨ 16 ≤ stack ∨ s.stackBytes ≤ 64 * line then .next s
  else
    let g := (stack * s.stackBytes + 64 * line) / 32
    let put := fun (m : Memory) (g : Nat) => m.putStamp g (patrolStamp k.eftNow (m.stamp g))
    .next { s with mem := put (put s.mem g) (g + 1) }

/-! ### The visits that the device owes (R62) -/

/-- Visit every stamp of a store. -/
def Memory.scan (m : Memory) (f : Nat → Stamp → Stamp) : Memory :=
  { m with stamps := (m.stamps.map (fun p => (p.1, f p.1 p.2))).filter (fun p => p.2 != Memory.unlistedStamp) }

/-- Visit a register's stamp. -/
def Reg.scan (now : Nat) (r : Reg) : Reg := { r with s := clampStamp now r.s }
/-- Visit a plane's stamp. -/
def Plane.scan (now : Nat) (p : Plane) : Plane := { p with s := clampStamp now p.s }

/-- Visit the stamps of a thread's registers. -/
def Thread.scan (now : Nat) (t : Thread) : Thread := { t with regs := t.regs.map (Reg.scan now) }

/-- Clamp the stamps of the results that a thread has in flight, so that each lands clamped. -/
def Thread.clampFlight (now : Nat) (t : Thread) : Thread :=
  { t with
    pend := t.pend.map (fun p => { p with regs := p.regs.map (fun r => (r.1, r.2.scan now)) })
    lops := t.lops.map (fun o => { o with regs := o.regs.map (fun r => (r.1, r.2.scan now)) }) }

/-- Visit the stamps of a crew's scratchpad, planes and commands. -/
def Crew.scan (now : Nat) (c : Crew) : Crew :=
  { c with
    scr := c.scr.scan (fun _ => clampStamp now)
    active := c.active.scan now
    shadow := c.shadow.scan now
    mq := c.mq.map (fun m => { m with words := m.words.map (Reg.scan now) }) }

/-- Visit every stamp: the scans of registers, scratchpads, accumulators and host lines, and the patrols of the stacks, each by its own
time. They owe each stamp a visit in every 2^27 ticks; this one closes such a period. -/
def State.scanAll (s : State) : State :=
  let now := s.now
  { s with
    mem := s.mem.scan (fun g => patrolStamp (s.stack (32 * g / s.stackBytes)).eftNow)
    hmem := s.hmem.scan (fun g x => if s.hl.lines.contains (g / 2) then clampStamp now x else x)
    threads := s.threads.map (Thread.scan now)
    crews := s.crews.map (Crew.scan now)
    cohorts := s.cohorts.map (fun h => { h with acc := h.acc.scan (fun _ => clampStamp now) })
    engines := s.engines.map (fun e => { e with words := e.words.map (Reg.scan now) }) }

/-! ### The tick (R61, R101, R417, R423) -/

/-- Read the cells of the `TWAITV`s for which this is the last tick that counts. -/
def State.lastReads (s : State) : State :=
  let due := s.ctxs.flatMap (fun x =>
    (x.window.filter (fun t => t.waits && t.slot.a != 0 && t.t0 + t.slot.a.toNat == s.now)).map (fun t => (x.num, t)))
  due.foldl (fun s p => s.readWait p.1 p.2) s

/-- A beat on a stack's link: the latest one in flight. -/
def Stack.beat (now : Nat) (k : Stack) : Stack :=
  { k with reqs := k.reqs.filter (fun r => r.cmd != 6) ++ [
      { cmd := 6, tag := 0, gmask := 0, addr := 0, stamps := BitVec.ofNat 64 now, data := [] }] }

/-- What is left to slew after a tick, which was stretched or shortened by at most 1/1,024 of its period (R403). -/
def slewed (period : Nat) (x : Int) : Int := if 0 ≤ x then max 0 (x - period) else min 0 (x + period)

/-- Device time advances by one tick. Visits of single stamps may come at any time; a period of 2^27 ticks leaves none unvisited (R62). -/
def State.tick (s : State) : State :=
  let s := s.lastReads
  let s := { s with fab := { s.fab with slew := slewed s.tickNs s.fab.slew } }
  let now := (s.now + 1) % 2 ^ 64
  let s := { s with
    now := now, memStacks := s.memStacks.map (Stack.beat now), hl := { s.hl with swold := s.hl.swins }
    threads := s.threads.map (Thread.clampFlight now) }
  if now % 2 ^ 27 = 0 then s.scanAll else s

/-- Whether device time runs (R410). -/
def State.timeRuns (s : State) : Bool := s.hl.tickctl.getLsbD 8 && !s.hl.waitTime

/-- `DEVICE_TICK`. -/
def execDeviceTick (s : State) : Host.Outcome State Fault Refusal := if s.timeRuns then .next s.tick else .next s

end Sys2Proof.Machine
end

