-- ==== Sys2Proof/Machine/Control.lean ====
section
/-!
DEFINITION. Control flow, convergence barriers, the register window, repetition, traps from code and sleep
(spec/07_control_and_crosslane.md R191 to R201; R145 of spec/05_kelac_encoding.md for `WINB`).
-/

namespace Sys2Proof.Machine

/-! ### Branches (R191) -/

/-- The header a J-form instruction names: H + 4 * OFF17. -/
def Thread.target (t : Thread) (o : BitVec 17) : Nat := ofSigned 56 ((t.pc.hdr : Int) + 4 * toSigned 17 o.toNat)

/-- A branch that is taken when `p` holds of what the thread reads. -/
def State.runBranch (s : State) (i : Instr) (o : BitVec 17) (p : Thread → Bool) : Host.Outcome State Fault Refusal :=
  s.issueAll i (fun s t v => s.setThread (t.jump s.cycle (if p v then t.target o else t.nextHdr)))

/-- `BRA`. -/
def execBra (o : BitVec 17) (s : State) : Host.Outcome State Fault Refusal := s.runBranch (.bra o) o (fun _ => true)
/-- `BZ`. -/
def execBz (a : BitVec 7) (o : BitVec 17) (s : State) : Host.Outcome State Fault Refusal :=
  s.runBranch (.bz a o) o (fun v => v.val a == 0#64)
/-- `BNZ`. -/
def execBnz (a : BitVec 7) (o : BitVec 17) (s : State) : Host.Outcome State Fault Refusal :=
  s.runBranch (.bnz a o) o (fun v => v.val a != 0#64)

/-! ### Calls and jumps (R192) -/

/-- The scratchpad offset that `CALL` writes: `stkptr` - 8. -/
def Thread.pushOff (v : Thread) : Nat := (v.stkptr - 8#64).toNat

/-- `CALL`. DESIGN CHOICE (log 54): a `MOVSW` of `stkptr` that is still under way lands when it is due, over what `CALL` or `RET` wrote. -/
def execCall (o : BitVec 17) (s : State) : Host.Outcome State Fault Refusal :=
  s.issueWith (.call o) (fun vs s t v =>
    if v.stkptr.toNat % 8 ≠ 0 then s.takeTrap t (alignTrap v.stkptr.toNat)
    else
      match s.scratchCheck v v.pushOff 8 8 with
      | some tr =>
        s.trapAt t v vs (fun s u => u.stkptr.toNat % 8 == 0 && decide (s.scratchSize u < u.pushOff + 8)) tr
      | none =>
        let s := s.modScratch t (fun m => m.store s.now v.pushOff (toBytes 8 t.nextHdr) sTimeless)
        s.setThread { (t.jump s.cycle (t.target o)) with stkptr := v.stkptr - 8#64 }) id

/-- `RET`: a target that is not aligned is an alignment trap (R142). -/
def execRet (s : State) : Host.Outcome State Fault Refusal :=
  s.issueWith .ret (fun vs s t v =>
    let off := v.stkptr.toNat
    if off % 8 ≠ 0 then s.takeTrap t (alignTrap off)
    else
      match s.scratchCheck v off 8 8 with
      | some tr => s.trapAt t v vs (fun s u => u.stkptr.toNat % 8 == 0 && decide (s.scratchSize u < u.stkptr.toNat + 8)) tr
      | none =>
        let m := s.scratch v
        let target := m.readNat off 8 % 2 ^ 56
        if m.anyPoison off 8 then s.scratchPoison t
        else if target % 4 ≠ 0 then s.takeTrap t (alignTrap target)
        else s.setThread { (t.jump s.cycle target) with stkptr := v.stkptr + 8#64 }) id

/-- `JMPR`. -/
def execJmpr (a : BitVec 7) (s : State) : Host.Outcome State Fault Refusal :=
  s.issueAll (.jmpr a) (fun s t v =>
    let c := v.capAt a
    if v.tagAt a = false then s.takeTrap t (capTrap 1 c.cursor)
    else if c.has pExecute = false then s.takeTrap t (capTrap 2 c.cursor)
    else if c.covers c.cursor 1 = false then s.takeTrap t (capTrap 4 c.cursor)
    else if c.cursor % 4 ≠ 0 then s.takeTrap t (alignTrap c.cursor)
    else s.setThread (t.jump s.cycle c.cursor))

/-- `NOP`. -/
def execNop (s : State) : Host.Outcome State Fault Refusal :=
  s.issueAll .nop (fun s t _ => s.setThread (t.advance s.cycle 1))

/-! ### Exit and convergence barriers (R193, R195, R196, R29) -/

/-- Take a lane out of the member mask of barrier k of a thread's team. -/
def State.leaveCb (s : State) (t : Thread) (k : Nat) : State :=
  s.modCrew t.crew (fun c => c.modCb t.team k (fun b => { b with mask := b.mask &&& ~~~(1#32 <<< t.lane) }))

/-- `EXIT`. -/
def execExit (s : State) : Host.Outcome State Fault Refusal :=
  s.issueThen .exit (fun s t _ =>
    (List.range 8).foldl (fun s k => s.leaveCb t k)
      (s.setThread { t with st := .exited, lastIssue := some s.cycle, readySince := none })) State.settle

/-- `CJOIN`: a member is entered in the arrival set and held, any other lane goes on. -/
def execCjoin (k : BitVec 3) (s : State) : Host.Outcome State Fault Refusal :=
  s.issueThen (.cjoin k) (fun s t _ =>
    match s.crew t.crew with
    | none => s
    | some c =>
      if (c.cb t.team k.toNat).mask.getLsbD t.lane then
        (s.setCrew (c.modCb t.team k.toNat (fun b => { b with arr := b.arr ||| (1#32 <<< t.lane) }))).issueH t (.cjoin k.toNat)
      else s.setThread (t.advance s.cycle 1)) State.settle

/-- `CLEAVE`. -/
def execCleave (k : BitVec 3) (s : State) : Host.Outcome State Fault Refusal :=
  s.issueThen (.cleave k) (fun s t _ => (s.leaveCb t k.toNat).setThread (t.advance s.cycle 1)) State.settle

/-- The lanes of a team that have exited. -/
def State.exitedLanes (s : State) (cr team : Nat) : BitVec 32 :=
  (List.range 32).foldl (fun m l => if s.laneExited cr team l then m ||| (1#32 <<< l) else m) 0#32

/-- `BMASK`: of the threads of a team that issue it together, the highest lane's value stands. -/
def execBmask (a : BitVec 7) (k : BitVec 3) (s : State) : Host.Outcome State Fault Refusal :=
  s.issueWith (.bmask a k) (fun vs s t v =>
    let higher := vs.any (fun u => u.crew == v.crew && u.team == v.team && decide (v.lane < u.lane)
      && (s.preCheck (.bmask a k) u).isNone)
    let s :=
      if higher then s
      else
        let m := (v.val a).setWidth 32 &&& ~~~(s.exitedLanes t.crew t.team)
        s.modCrew t.crew (fun c => c.modCb t.team k.toNat (fun b => { b with mask := m }))
    s.setThread (t.advance s.cycle 1)) State.settle

/-! ### Register window and repetition (R145, R198) -/

/-- `WINB`. -/
def execWinb (k : BitVec 5) (s : State) : Host.Outcome State Fault Refusal :=
  s.issueAll (.winb k) (fun s t _ =>
    let base := 8 * k.toNat
    if t.regs.length ≤ base then s.takeTrap t { code := 4, detail := base }
    else s.setThread { (t.advance s.cycle 1) with wbase := BitVec.ofNat 8 base })

/-- `REP`: the next slot issues K[5:0] + 1 times. The stepping of its fields is the fetch's. -/
def execRep (t : BitVec 3) (k : BitVec 7) (s : State) : Host.Outcome State Fault Refusal :=
  s.issueAll (.rep t k) (fun s th _ =>
    s.setThread { (th.advance s.cycle 1) with repctr := BitVec.ofNat 7 (k.toNat % 64 + 1) })

/-! ### Traps from code and sleep (R200, R201) -/

/-- `TRAP`: the saved PC is the next clause header. -/
def execTrap (k : BitVec 7) (s : State) : Host.Outcome State Fault Refusal :=
  s.issueAll (.trap k) (fun s t _ =>
    s.takeTrapAt { t with lastIssue := some s.cycle, readySince := none } { hdr := t.nextHdr, slot := 0 }
      { code := 0x0C, arg := k.toNat, detail := t.pc.hdr })

/-- Whether breakpoints stop a thread's context for debug: DBG of `ctxctl` (R323). -/
def State.dbgOf (s : State) (t : Thread) : Bool := ((s.ctx (s.ctxOf t)).map (fun x => x.ctl.getLsbD 16)).getD false

/-- `BKPT`: the breakpoint trap, or a debug halt when DBG is set. -/
def execBkpt (k : BitVec 7) (s : State) : Host.Outcome State Fault Refusal :=
  s.issueAll (.bkpt k) (fun s t _ =>
    let t := { t with lastIssue := some s.cycle, readySince := none }
    let next : PC := { hdr := t.nextHdr, slot := 0 }
    if s.dbgOf t then
      (s.setThread { t.handOver with pc := next, clause := none, st := .stopped, resume := .running }).debugHalt (s.ctxOf t)
        (s.selector t)
    else s.takeTrapAt t next { code := 0x0D, arg := k.toNat, detail := t.pc.hdr })

/-- `SLEEP`: min(na(A), 2^24) cycles. -/
def execSleep (a : BitVec 7) (s : State) : Host.Outcome State Fault Refusal :=
  s.issueAll (.sleep a) (fun s t v =>
    let n := min (v.val a).toNat (2 ^ 24)
    let t := t.advance s.cycle 1
    s.setThread (if n = 0 then t else { t with st := .sleeping n }))

/-- `SLEEP_END`: a sleep whose cycles are over ends; the thread is eligible in this cycle (c + 1 + s). -/
def execSleepEnd (cr tid : Nat) (s : State) : Host.Outcome State Fault Refusal :=
  match s.thread cr tid with
  | some t =>
    match t.st with
    | .sleeping 0 => .next (s.setThread { t with st := .running, notBefore := s.cycle })
    | _ => .next s
  | none => .next s

end Sys2Proof.Machine
end

