-- ==== Sys2Proof/Machine/Errors.lean ====
section
/-!
DEFINITION. Errors, containment and resets of parts (spec/15_privileged_state_and_traps.md R340 to R342, R345;
spec/16_scheduling_hardware.md R358, R359; spec/10_matrix_and_update.md R298; R425 of spec/20_host_stacks_bringup.md; R7 of
spec/00_scope.md).
-/

namespace Sys2Proof.Machine

/-! ### Records (R345) -/

/-- The partition whose windows hold a physical address. -/
def State.partOfPa (s : State) (pa : Nat) : Option Nat := (List.range 8).find? (fun p => s.inWindows p pa 1)

/-- CLASS of a syndrome (R425). -/
def syndClass (n : Nat) : Option Nat :=
  match n with
  | 1 => some 1
  | 2 => some 2
  | 3 => some 2
  | 4 => some 4
  | 5 => some 1
  | 6 => some 3
  | _ => none

/-- The record of an error that a stack's link reported. -/
def State.logStack (s : State) (n cls action pa synd : Nat) : State :=
  s.logError (s.partOfPa pa) cls action none (0xF00 + n) false pa synd (s.stack n).corrected

/-- The record of an error of a core. -/
def State.logCore (s : State) (k cls action : Nat) (ctx : Option Nat) (addr : Nat) : State :=
  s.logError (some (s.partOfDie (dieOf k))) cls action ctx k false addr 0 (s.coreEntry k).errors

/-! ### Containment (R342) -/

/-- `cpol` of a partition as it is in this cycle. -/
def State.policy (s : State) (p : Nat) : Nat × State :=
  let (w, s) := pendingWord s.cycle (s.part p).pendPol (s.part p).cpol s
  (w.toNat, s)

/-- The threads of a crew stop for good: what becomes of them is the squash or the save of their task. -/
def State.stopCrew (s : State) (cr : Nat) : State :=
  s.mapThreads (fun (t : Thread) => if t.crew == cr then { t with st := .escalated } else t)

/-- A core of a crew's cluster, other than its own, that the crew fits with its cohort's other needs as they are. -/
def State.otherCore (s : State) (c : Crew) : Option Nat :=
  let l := s.load (fun _ => false)
  let l := { l with crews := l.crews.filter (fun k => k.uid != c.uid) }
  let n : Need := { task := c.task, threads := c.nthread, regs := c.nregs, crews := 1, scr := c.scrSize, acc := 0 }
  let q := clusterOf c.core
  let ok := (listOf Config.coresPerCluster (fun i => Config.coresPerCluster * q + i)).filter (fun k =>
    k != c.core && s.coreFits l n k && !l.crews.any (fun d => d.cohort == c.cohort && d.core == k))
  (sortBy (fun a b => decide (l.slots a < l.slots b) || (l.slots a == l.slots b && decide (a ≤ b))) ok).head?

/-- A cohort is saved and waits until the arbiter of its die finds it a place again (R335, R355). -/
def State.holdCohort (s : State) (h : Nat) : State :=
  let mine := fun (t : Thread) => ((s.crew t.crew).map (fun c => c.cohort == h)).getD false
  ({ s with cohorts := s.cohorts.map (fun (k : Cohort) => if k.uid == h then { k with saved := true } else k) } : State).mapThreads
    (fun t => if mine t then t.stopNow else t)

/-- Put a crew on another core of its cluster; while none has room, its cohort waits for a place (log 16). -/
def State.moveCrew (s : State) (c : Crew) : State :=
  match s.otherCore c with
  | some k =>
    (s.setCrew { c with core := k, slot := s.freeSlot k }).mapThreads (fun (t : Thread) =>
      if t.crew == c.uid then { t.finish with notBefore := s.cycle + 1, readySince := none } else t)
  | none => s.holdCohort c.cohort

/-- Whether an agent is a thread or a command of a crew. -/
def Joiner.ofCrew (j : Joiner) (cr : Nat) : Bool :=
  match j with
  | .thread c _ => c == cr
  | .command c _ => c == cr
  | _ => false

/-- The faults that a crew has joined go on without it (R374). -/
def Pager.leave (p : Pager) (cr : Nat) : Pager :=
  { p with
    recs := p.recs.map (fun r => { r with joined := r.joined.filter (fun j => !j.1.ofCrew cr) })
    waiting := p.waiting.map (fun f => { f with joined := f.joined.filter (fun j => !j.1.ofCrew cr) }) }

/-- A crew is set back to its start, with the same identity: nothing of what it had under way is left (R342, R374). -/
def State.rerunCrew (s : State) (c : Crew) (l : Launch) : State :=
  let tvec := ((s.ctx c.ctx).map (fun x => x.tvec)).getD 0#64
  let s := { s with
    threads := s.threads.filter (fun (t : Thread) => t.crew != c.uid) ++ listOf l.threads (fun i =>
      { Thread.start c.ctx c.uid i l.regs l.code l.args with notBefore := s.cycle + 1 })
    engines := s.engines.filter (fun e => e.crew != some c.uid)
    lates := s.lates.filter (fun l => l.crew != c.uid)
    early := s.early.filter (fun e => !e.1.ofCrew c.uid)
    wrote := s.wrote.filter (fun e => !e.1.ofCrew c.uid) }
  (s.setCrew (Crew.start c.uid c.ctx c.task c.cohort c.crewid c.core c.slot l tvec)).modCtx c.ctx (fun x =>
    { x with
      dtags := x.dtags.filter (fun g => g.crew != c.uid)
      pagers := x.pagers.map (fun p => p.leave c.uid)
      sbars := x.sbars.map (fun b => { b with arrived := b.arrived.filter (fun k => k.1 != c.uid) }) })

/-- Actions 4 and 5 for a task: replay at task granularity when it is the oldest, or containment's fault. -/
def State.containTask (s : State) (c t pol detail : Nat) : Nat × State :=
  match s.task c t with
  | none => (5, s)
  | some k =>
    if bit pol 0 && k.replayable then (4, s.holdFault c t { code := 0, sub := 0, detail := 0 })
    else (5, s.holdFault c t { code := 0x29, sub := 1, detail := detail })

/-- The first action whose condition holds for a crew, from an action on; its number and the state after it. Whether a crew's
state saves without an error is a free choice (log 16). -/
def State.containCrew (s : State) (c : Crew) (pol from_ : Nat) : Nat × State :=
  let l := (s.task c.ctx c.task).bind (fun t => t.launch)
  let (saves, s) := s.choose 2
  if from_ ≤ 2 ∧ bit pol 2 ∧ saves = 1 then (2, s.moveCrew c)
  else
    match l with
    | some l =>
      if from_ ≤ 3 ∧ bit pol 1 ∧ l.replay = 1 ∧ c.drained = false then
        let s := s.rerunCrew c l
        (3, ((s.crew c.uid).map s.moveCrew).getD s)
      else (s.stopCrew c.uid).containTask c.ctx c.task pol c.core
    | none => (s.stopCrew c.uid).containTask c.ctx c.task pol c.core

/-- Contain a crew and write its record. The spec names no address for it: a free value. -/
def State.contain (pol from_ : Nat) (s : State) (c : Crew) : State :=
  let k := c.core
  let (action, s) := s.containCrew c pol from_
  let (x, s) := s.freeVal
  s.logCore k 3 action (some c.ctx) (x % 2 ^ 56)

/-- The crews resident on a core. -/
def State.crewsOn (s : State) (k : Nat) : List Crew := (s.load (fun _ => false)).crews.filter (fun c => c.core == k)

/-- A core fault: fencing when it is authorised, then one action for each crew. -/
def State.coreFault (s : State) (k : Nat) : State :=
  let (pol, s) := s.policy (s.partOfDie (dieOf k))
  let s := if bit pol 2 then s.setCoreEntry { s.coreEntry k with fenced := true, avail := false, next := none } else s
  let cs := s.crewsOn k
  if cs.isEmpty then
    let (x, s) := s.freeVal
    s.logCore k 3 0 none (x % 2 ^ 56)
  else cs.foldl (State.contain pol 1) s

/-- `CORE_FAULT`. -/
def execCoreFault (core : Nat) (s : State) : Host.Outcome State Fault Refusal :=
  if Config.cores ≤ core then .next s else .next (s.coreFault core)

/-! ### Correctable and uncorrectable errors (R340, R341, R345) -/

/-- `CORRECTABLE_ERROR`: counted and logged; more than CETH of them in one core make a core fault. -/
def execCorrectableError (u : ErrUnit) (pa : Nat) (s : State) : Host.Outcome State Fault Refusal :=
  match u with
  | .core k =>
    if Config.cores ≤ k then .next s
    else
      let e := s.coreEntry k
      let s := (s.setCoreEntry { e with errors := e.errors + 1 }).logCore k 1 0 none pa
      let (pol, s) := s.policy (s.partOfDie (dieOf k))
      if bits pol 15 8 < e.errors + 1 then .next (s.coreFault k) else .next s
  | .stack n synd =>
    if 16 ≤ n ∨ syndClass synd ≠ some 1 then .next s
    else .next ((s.modStack n (fun k => { k with corrected := k.corrected + 1 })).logStack n 1 0 pa synd)

/-- Poison the granule at a place: where it lies, and whether there is one. Registers and planes hold no poison (R44). -/
def State.poisonAt (s : State) : Loc → Option (Option Nat × State)
  | .dram pa => some (some pa, { s with mem := s.mem.putPoison (pa / 32) true })
  | .hostLine pa => if s.hl.lines.contains (pa / 64) then some (some pa, { s with hmem := s.hmem.putPoison (pa / 32) true }) else none
  | .scratch cr off =>
    match s.crew cr with
    | none => none
    | some c => some (none, s.setCrew { c with scr := c.scr.putPoison (off / 32) true })
  | .acc h off =>
    match s.cohort h with
    | none => none
    | some k => some (none, s.setCohort { k with acc := k.acc.putPoison (off / 32) true })
  | .reg _ _ _ => none
  | .plane _ _ => none

/-- `UNCORRECTABLE_DATA_ERROR`: the granule is poisoned, and a record says so. Of a granule that has no physical address the record
gives a free value. -/
def execUncorrectableDataError (l : Loc) (u : ErrUnit) (s : State) : Host.Outcome State Fault Refusal :=
  match s.poisonAt l with
  | none => .next s
  | some (pa, s) =>
    let (x, s) := s.freeVal
    let a := pa.getD (x % 2 ^ 52)
    match u with
    | .core k => .next (s.logCore k 2 1 none a)
    | .stack n synd =>
      if 16 ≤ n then .next s
      else .next ((s.modStack n (fun k => { k with uncorrected := k.uncorrected + 1 })).logStack n 2 1 a synd)

/-! ### Resets of parts (R359) -/

/-- `CORE_RESET`: the crews' state is lost; each is handled from crew replay on. -/
def execCoreReset (core : Nat) (s : State) : Host.Outcome State Fault Refusal :=
  let (pol, s) := s.policy (s.partOfDie (dieOf core))
  .next ((s.crewsOn core).foldl (State.contain pol 3) s)

/-- `MATRIX_UNIT_RESET`: planes, queues and accumulator allotments of a cluster are lost; each crew of its cohorts is handled from
task replay on. -/
def execMatrixUnitReset (cluster : Nat) (s : State) : Host.Outcome State Fault Refusal :=
  let hs := s.cohorts.filter (fun h => !h.saved && h.cluster == cluster)
  let mine := fun (c : Crew) => hs.any (fun h => h.uid == c.cohort)
  let s := { s with
    cohorts := s.cohorts.map (fun (h : Cohort) => if !h.saved && h.cluster == cluster then { h with acc := Memory.empty } else h)
    crews := s.crews.map (fun c => if mine c then { c with active := Plane.empty, shadow := Plane.empty, mq := [] } else c) }
  let (pol, s) := s.policy (s.partOfDie (cluster / Config.clustersPerDie))
  .next ((s.crews.filter mine).foldl (State.contain pol 4) s)

/-- `COPY_ENGINE_RESET`: an engine thread's transfer is lost; its task is handled from task replay on. A task engine has no core:
its DETAIL is then a free value. -/
def execCopyEngineReset (e : Nat) (s : State) : Host.Outcome State Fault Refusal :=
  match s.engine e with
  | none => .next s
  | some x =>
    let core := s.engineCore x
    let part := ((s.ctx x.ctx).map (fun c => c.part)).getD 0
    let s := { s with engines := s.engines.filter (fun y => y.uid != e) }
    let (pol, s) := s.policy part
    let (v, s) := s.freeVal
    let (action, s) := s.containTask x.ctx x.task pol (core.getD v)
    let (a, s) := s.freeVal
    .next (s.logError (some part) 3 action (some x.ctx) (core.getD 0xFFF) false (a % 2 ^ 56) 0
      ((core.map (fun k => (s.coreEntry k).errors)).getD 0))

/-- Whether a task does something at its issue: those that are complete at acceptance do not (R83). -/
def Task.acts (t : Task) : Bool :=
  !t.skipped && ((3 ≤ t.op && t.op ≤ 6) || (0x0B ≤ t.op && t.op ≤ 0x12) || t.op == 0x16 || t.op == 0x17)

/-- The window of a context is lost: its journal's retirement is completed, the rest of its work is squashed and accepted again;
an issued task that cannot be replayed is delivered code 0x29, SUB 7. -/
def State.resetWindow (s : State) (x : Ctx) : State :=
  let kept := x.window.filter (fun t => x.journal.any (fun j => j.1 == t.uid))
  let rest := x.window.filter (fun t => !kept.any (fun k => k.uid == t.uid))
  match rest.find? (fun t => !t.replayable && t.stat != .waiting) with
  | none =>
    let s := s.squashAll x.num rest
    s.modCtx x.num (fun y =>
      match kept with
      | k :: _ => { y with accept := k.after, map := k.afterMap, recovering := true }
      | [] => { y with accept := y.retired, map := y.rmap })
  | some t =>
    let older := rest.takeWhile (fun y => y.uid != t.uid)
    let younger := (rest.dropWhile (fun y => y.uid != t.uid)).drop 1
    let s := s.squashAll x.num younger
    let s := s.killWork (fun c u => c == x.num && u == t.uid)
    let s := (older.filter (fun y => y.acts && y.stat != .waiting)).reverse.foldl (State.reissueTask x.num) s
    s.modCtx x.num (fun y =>
      { (y.setTask { t with fault := some { code := 0x29, sub := 7, detail := t.addr } }) with
        accept := t.after, map := t.afterMap, recovering := !kept.isEmpty })

/-- `WINDOW_LOGIC_RESET`: the windows of the contexts homed on a die are lost. -/
def execWindowLogicReset (die : Nat) (s : State) : Host.Outcome State Fault Refusal :=
  .next ((s.ctxs.filter (fun x => x.home == die && !x.saved)).foldl State.resetWindow s)

/-- `HOST_LINK_RESET`: host requests held and answers on their way are lost; snoops of flips are sent again, those of accesses when
the access is tried again. -/
def execHostLinkReset (s : State) : Host.Outcome State Fault Refusal :=
  let s := { s with hl := { s.hl with held := [], snoops := [] } }
  .next (s.hl.flips.foldl (fun s f => f.snoops.foldl (fun s l => s.toHost (.snoop (l * 64) false)) s) s)

/-- `COLD_RESET`: every register takes its reset value (R7). Host memory is the host's; the device's cached lines are gone. What
device memory then holds is not stated (log 4). -/
def execColdReset (s : State) : Host.Outcome State Fault Refusal :=
  .next { State.reset with
    devid := s.devid, height := s.height, hmem := { s.hmem with stamps := [], poison := [], tags := [] }
    fab := { Fabric.reset with domain := s.fab.domain }
    nextUid := s.nextUid, freeCtr := s.freeCtr }

end Sys2Proof.Machine
end

