-- ==== Sys2Proof/Machine/HostLink.lean ====
section
/-!
DEFINITION. The host link (spec/20_host_stacks_bringup.md R408 to R418, R426 to R434; R435, R436 of
spec/21_program_bias_flip.md; R224, R239 of spec/08_memory_instructions.md): host reads and writes, bias and its flips, stamp
windows, the management registers, boot, attestation and the first context.
-/

namespace Sys2Proof.Machine

/-- Change the host link. -/
def State.modHl (s : State) (f : HostLink → HostLink) : State := { s with hl := f s.hl }

/-! ### Violations of the host side (R344, R345, R409) -/

/-- A violation of the host: an error response and a record of the host-side log. -/
def State.hostViolation (s : State) (addr : Nat) : State := (s.logError none 4 0 none 0xFFF false addr 0 0).toHost (.error addr)

/-- Whether the device answers more than BAR0 and DOE (R427). -/
def State.booted (s : State) : Bool := s.hl.fail == 0

/-! ### Stamps of host writes (R416, R417) -/

/-- The stamp that windows give a host write at an address, by the lowest enabled one that contains it. -/
def windowStamp (ws : List StampWin) (now pa : Nat) : Stamp :=
  match ws.find? (fun w => bits w.stamp.toNat 33 32 != 0 && decide (w.base.toNat ≤ pa) && decide (pa < w.lim.toNat)) with
  | none => dataAt now
  | some w =>
    let st : Stamp := w.stamp.setWidth 32
    if bits w.stamp.toNat 33 32 = 1 then Stamp.withTick st (now % 2 ^ 30) else normaliseStamp now st

/-- The stamp of one granule of a host write: of two sets of windows in one tick either, by a free choice. -/
def State.hostStamp (s : State) (pa : Nat) : Stamp × State :=
  let a := windowStamp s.hl.swins s.now pa
  let b := windowStamp s.hl.swold s.now pa
  if a = b then (a, s)
  else
    let (k, s) := s.choose 2
    (if k = 0 then a else b, s)

/-- The bytes of a line. -/
def lineBytes (d : BitVec 512) : List Byte := toBytes 64 d.toNat

/-- The stamps of the two granules of a line, for a host write that arrives now. -/
def State.arrivalStamps (s : State) (pa : Nat) : (Stamp × Stamp) × State :=
  let (a, s) := s.hostStamp (pa / 64 * 64)
  let (b, s) := s.hostStamp (pa / 64 * 64 + 32)
  ((a, b), s)

/-- A host write of the masked bytes of one granule. -/
def State.hostGranule (s : State) (g : Nat) (bs : List (Option Byte)) (st : Stamp) : State :=
  if bs.all Option.isNone then s
  else
    let m := (numbered (fun i b => (i, b)) bs).foldl (fun m p =>
      match p.2 with
      | some b => m.putByte (32 * g + p.1) b
      | none => m) s.mem
    { s with mem := m.engineStamp s.now g (bs.all Option.isSome) st }

/-- A host write of a line's bytes under a mask, with the stamps of its granules. -/
def State.hostWriteLine (s : State) (pa : Nat) (d : BitVec 512) (mask : BitVec 64) (st : Stamp × Stamp) : State :=
  let bs := numbered (fun i b => if mask.getLsbD i then some b else none) (lineBytes d)
  let g := pa / 64 * 2
  (s.hostGranule g (bs.take 32) st.1).hostGranule (g + 1) (bs.drop 32) st.2

/-! ### Requests of the host (R412, R414, R64, R411) -/

/-- The lines of the stream header of a context, in device memory, by the tables as they stand: no line is asked for. -/
def State.headerLines (s : State) (x : Ctx) : List Nat :=
  let s : State := { s with tlb := [], hl := { s.hl with biasSet := false, flips := [] } }
  match (s.translate x.num .load x.stream 256).1 with
  | .page pa false => listOf 4 (fun i => pa / 64 + i)
  | _ => []

/-- Whether a line belongs to the bias table. -/
def State.isBiasLine (s : State) (pa : Nat) : Bool := s.inBiasTable (pa / 64 * 64) 64

/-- Whether a host write of a line is a violation: a stream header or the bias table. -/
def State.writeForbidden (s : State) (pa : Nat) : Bool :=
  s.isBiasLine pa || s.ctxs.any (fun x => (s.headerLines x).contains (pa / 64))

/-- Whether a page is in transition. -/
def State.inFlip (s : State) (page : Nat) : Bool := s.hl.flips.any (fun f => f.page == page)

/-- Start a flip of a page (R414): towards device bias its 64 lines are snooped. -/
def State.startFlip (s : State) (page : Nat) (toHost commanded : Bool) : State :=
  let lines := if toHost then [] else listOf 64 (fun i => page * 64 + i)
  let s := { s with hl := { s.hl with
    flips := s.hl.flips ++ [{ page := page, toHost := toHost, snoops := lines, commanded := commanded }]
    answered := s.hl.answered.filter (fun l => l / 64 != page) } }
  lines.foldl (fun s l => s.toHost (.snoop (l * 64) false)) s

/-- Return a line to the host, with the poison indication (R44). -/
def State.returnLine (s : State) (pa : Nat) : State :=
  let a := pa / 64 * 64
  s.toHost (.data a (BitVec.ofNat 512 (s.mem.readNat a 64)) (s.mem.anyPoison a 64))

/-- Serve a host request whose page is not in transition. While no bias table is set, a caching read flips nothing. -/
def State.serve (s : State) (r : HeldReq) : State :=
  match r with
  | .read pa caching =>
    if caching && s.hl.biasSet && !s.hostBias pa then
      let s := s.startFlip (pa / 4096) true false
      { s with hl := { s.hl with held := s.hl.held ++ [r] } }
    else
      let s := if caching then { s with hl := { s.hl with answered := s.hl.answered.filter (fun l => l != pa / 64) } } else s
      s.returnLine pa
  | .write pa d m _ st =>
    if s.writeForbidden pa then s.hostViolation pa else (s.hostWriteLine pa d m st).toHost (.complete (pa / 64 * 64))

/-- A host request: held while its page is in transition, else served. An address beyond the usable memory is a violation. -/
def State.request (s : State) (pa : Nat) (r : HeldReq) : State :=
  if s.booted = false then s
  else if s.capacity ≤ pa then s.hostViolation pa
  else if s.inFlip (pa / 4096) then { s with hl := { s.hl with held := s.hl.held ++ [r] } }
  else s.serve r

/-- `MEMRD`. -/
def execMemrd (pa : Nat) (s : State) : Host.Outcome State Fault Refusal := .next (s.request pa (.read pa false))
/-- `MEMRD_CACHING`. -/
def execMemrdCaching (pa : Nat) (s : State) : Host.Outcome State Fault Refusal := .next (s.request pa (.read pa true))
/-- A host write that arrives now: its stamps are those of its arrival, also when a flip holds it (R47, R417). -/
def State.hostWrite (s : State) (pa : Nat) (data : BitVec 512) (mask : BitVec 64) (ptl : Bool) : State :=
  let (st, s) := s.arrivalStamps pa
  s.request pa (.write pa data mask ptl st)

/-- `MEMWR`. -/
def execMemwr (pa : Nat) (data : BitVec 512) (s : State) : Host.Outcome State Fault Refusal :=
  .next (s.hostWrite pa data (BitVec.allOnes 64) false)
/-- `MEMWRPTL`. -/
def execMemwrptl (pa : Nat) (data : BitVec 512) (mask : BitVec 64) (s : State) : Host.Outcome State Fault Refusal :=
  .next (s.hostWrite pa data mask true)

/-- `UNSUPPORTED_REQUEST`. -/
def execUnsupportedRequest (code pa : Nat) (s : State) : Host.Outcome State Fault Refusal :=
  .next ((s.logError none 4 0 none 0xFFF false pa 0 0).toHost (.unsupported code))

/-- The data that an answered snoop brings is one host write of the whole line, a violation where a host write is one (R64, R411, R436). -/
def State.snoopData (s : State) (pa : Nat) (d : BitVec 512) : State :=
  if s.writeForbidden pa then s.hostViolation pa
  else
    let (st, s) := s.arrivalStamps pa
    s.hostWriteLine pa d (BitVec.allOnes 64) st

/-- `BIRSP`: the answer to an outstanding snoop. -/
def execBirsp (pa : Nat) (data : Option (BitVec 512)) (s : State) : Host.Outcome State Fault Refusal :=
  let line := pa / 64
  if s.hl.snoops.contains line = false ∧ s.hl.flips.any (fun f => f.snoops.contains line) = false then .next s
  else
    let s := match data with
      | some d => s.snoopData pa d
      | none => s
    .next { s with hl := { s.hl with
      answered := if s.hl.snoops.contains line then s.hl.answered ++ [line] else s.hl.answered
      snoops := s.hl.snoops.filter (fun l => l != line)
      flips := s.hl.flips.map (fun f => { f with snoops := f.snoops.filter (fun l => l != line) }) } }

/-- `HOST_SNOOP`: the device gives up its copy of a host line, which counts as a write for the reads that wait (R239). -/
def execHostSnoop (pa : Nat) (s : State) : Host.Outcome State Fault Refusal :=
  let s : State := { s with hl := { s.hl with lines := s.hl.lines.filter (fun l => l != pa / 64) } }
  .next { s with hmem := (s.hmem.noteWrite (pa / 64 * 2)).noteWrite (pa / 64 * 2 + 1) }

/-- `HOST_LINE_FILL`: a host line that the device does not hold arrives, with what the host holds of it, and is stamped at its
arrival. -/
def execHostLineFill (pa : Nat) (data : BitVec 512) (s : State) : Host.Outcome State Fault Refusal :=
  if s.agreed 5 = false ∨ s.hl.lines.contains (pa / 64) then .next s
  else
    let s : State := { s with hmem := s.hmem.putBytes (pa / 64 * 64) (lineBytes data) }
    .next (s.fillHost pa)

/-! ### Bias commands and flips (R411, R413, R414, R435) -/

/-- Bias vector of IRQVEC. -/
def State.sendBias (s : State) : State := s.sendMsix (bits s.hl.irqvec.toNat 26 16)

/-- A commanded flip is done: BIASST and its vector. -/
def State.biasDone (s : State) (page : Nat) (toHost : Bool) : State :=
  (s.modHl (fun h => { h with busy := false, bscPage := page, bscBias := toHost })).sendBias

/-- A bias command (R413) that is not a violation. -/
def State.runBias (s : State) (page : Nat) (toHost : Bool) : State :=
  if s.inFlip page then s.modHl (fun h => { h with busy := true, bscPage := page, pendingCmd := some (page, toHost) })
  else if s.hostBias (page * 4096) = toHost then s.biasDone page toHost
  else (s.modHl (fun h => { h with busy := true, bscPage := page })).startFlip page toHost true

/-- A write of BIASCMD. -/
def State.biasCommand (s : State) (page : Nat) (toHost : Bool) : State :=
  if s.hl.busy ∨ s.capacity ≤ page * 4096 ∨ s.hl.biasSet = false then s.hostViolation 0x30 else s.runBias page toHost

/-- `BIASCMD_TO_HOST`. -/
def execBiascmdToHost (page : Nat) (s : State) : Host.Outcome State Fault Refusal := .next (s.biasCommand page true)
/-- `BIASCMD_TO_DEVICE`. -/
def execBiascmdToDevice (page : Nat) (s : State) : Host.Outcome State Fault Refusal := .next (s.biasCommand page false)

/-- Write a page's bit in the bias table. -/
def State.writeBias (s : State) (page : Nat) (toHost : Bool) : State :=
  let a := s.hl.biasbase.toNat + page / 8
  let old := (s.mem.byte a).toNat
  let b := old - old / 2 ^ (page % 8) % 2 * 2 ^ (page % 8) + b2n toHost * 2 ^ (page % 8)
  { s with mem := s.mem.engineWrite s.now a [BitVec.ofNat 8 b] (fun _ => sTimeless) }

/-- Serve the requests held for a page in their order; one that starts a new flip leaves the later ones held. -/
def State.serveHeld (page : Nat) (s : State) : State :=
  let mine := fun (r : HeldReq) => (match r with
    | .read pa _ => pa / 4096
    | .write pa _ _ _ _ => pa / 4096) == page
  let rs := s.hl.held.filter mine
  let s' := rs.foldl (fun s r => if s.inFlip page then { s with hl := { s.hl with held := s.hl.held ++ [r] } } else s.serve r)
    { s with hl := { s.hl with held := s.hl.held.filter (fun r => !mine r) } }
  s'.modHl (fun h => { h with flips := h.flips.map (fun f => if f.page = page ∧ h.bscPage = page then { f with shown := true } else f) })

/-- `FLIP_COMPLETE`: the bit, BUSY, the vector, the held requests under the new bias, then a command that waited. -/
def execFlipComplete (page : Nat) (s : State) : Host.Outcome State Fault Refusal :=
  match s.hl.flips.find? (fun f => f.page == page) with
  | none => .next s
  | some f =>
    if f.snoops.isEmpty = false then .next s
    else
      let s := (s.modHl (fun h => { h with flips := h.flips.filter (fun g => g.page != page) })).writeBias page f.toHost
      let s := if f.commanded then s.biasDone page f.toHost else s
      let s := if f.shown then s.modHl (fun h => { h with bscBias := f.toHost }) else s
      let s := s.serveHeld page
      .next (match s.hl.pendingCmd with
        | some (p, b) => if p = page then (s.modHl (fun h => { h with pendingCmd := none })).runBias p b else s
        | none => s)

/-! ### Boot and attestation (R426 to R428, R431) -/

/-- The bytes of the BAR2 window up to the last one written. -/
def HostLink.imageBytes (h : HostLink) : List Byte :=
  let n := (h.image.map (fun c => c.1 + 1)).foldl max 0
  listOf n (fun a => AList.get 0#8 a h.image)

/-- The FAIL code of an image (R426). -/
def imageFail (bs : List Byte) : Nat :=
  if Config.ecdsaOk bs = false then 1
  else if Config.lmsOk bs = false then 2
  else if Config.imageVersion bs < Config.minVersion then 3
  else 0

/-- Stop boot at a stage with a FAIL code. -/
def State.stopBoot (s : State) (stage fail : Nat) : State := { s with hl := { s.hl with stage := stage, fail := fail } }

/-- How many islands of a die reach regulation before the first that does not; island 0 of die 0 is always on (R431). -/
def islandsUp (die : Nat) : Nat :=
  ((List.range 4).takeWhile (fun i => 4 * die + i == 0 || Config.islandOk (4 * die + i))).length

/-- The islands power up in ascending order on each die (R431): those of a die after one that fails stay down. -/
def State.powerIslands (s : State) : State :=
  { s with islands := (numbered (fun n (i : Island) =>
      if n % 4 < islandsUp (n / 4) then { i with on := true, idleSince := s.now } else i) s.islands) }

/-- The stacks start in ascending order up to the first whose Eft does not start (R431). -/
def startStacks : List Stack → List Stack
  | [] => []
  | k :: l => if Config.eftStarts k.image then { k with started := true } :: startStacks l else k :: l

/-- Boot: the image is verified, the islands are powered, the stacks are started once all report one height. -/
def State.boot (s : State) : State :=
  let bs := s.hl.imageBytes
  if imageFail bs ≠ 0 then s.stopBoot 1 (imageFail bs)
  else
    let s := s.powerIslands
    if (List.range Config.dies).all (fun d => islandsUp d == 4) = false then s.stopBoot 2 6
    else if Config.heightsOk = false then s.stopBoot 3 4
    else
      let s : State := { s with memStacks := startStacks s.memStacks }
      if s.memStacks.all (fun (k : Stack) => k.started) = false then s.stopBoot 3 5 else s.stopBoot 4 0

/-- A write of GO: boot begins once (R434). -/
def State.go (s : State) : State :=
  if s.hl.go ∨ s.hl.stage ≠ 0 then s.hostViolation 0x08 else (s.modHl (fun h => { h with go := true })).boot

/-- `BOOTST_GO`. -/
def execBootstGo (s : State) : Host.Outcome State Fault Refusal := .next s.go

/-- `GET_CERTIFICATE`. -/
def execGetCertificate (off len : Nat) (s : State) : Host.Outcome State Fault Refusal :=
  .next (s.toHost (.spdm ((Config.certChain.drop off).take len)))
/-- `CHALLENGE`: the device's signature over the host's nonce. -/
def execChallenge (nonce : BitVec 256) (s : State) : Host.Outcome State Fault Refusal :=
  .next (s.toHost (.spdm (Config.spdmSign (toBytes 32 nonce.toNat))))

/-- The measurements in order: boot image digest, 16 Eft image digests, fused security version, agreed features (R428). -/
def State.measurements (s : State) : List Byte :=
  toBytes 48 (Config.sha384 s.hl.imageBytes).toNat ++ s.memStacks.flatMap (fun k => toBytes 48 (Config.sha384 k.image).toNat)
    ++ toBytes 8 Config.minVersion ++ toBytes 16 s.hl.features.toNat

/-- `GET_MEASUREMENTS`: the measurements and the device's signature over them. -/
def execGetMeasurements (s : State) : Host.Outcome State Fault Refusal :=
  .next (s.toHost (.spdm (s.measurements ++ Config.spdmSign s.measurements)))

/-! ### Features, time, keys (R429, R410, R432) -/

/-- DEVFEAT: bits 0 to 7 are offered (R430). -/
def devFeat : BitVec 128 := 0xFF#128

/-- LOCK is set, once: the agreed vector stands from then on. -/
def State.setLock (s : State) : State :=
  if s.hl.lock then s else { s with hl := { s.hl with lock := true, features := devFeat &&& s.hl.hostfeat } }

/-- `FEATCTL_LOCK`. -/
def execFeatctlLock (s : State) : Host.Outcome State Fault Refusal := .next s.setLock

/-- EXTRA: HOSTFEAT asks for bits outside DEVFEAT. -/
def HostLink.extra (h : HostLink) : Bool := h.hostfeat &&& ~~~devFeat != 0#128

/-- The time master: the lowest `devid` of the packages in the domain (R403). -/
def State.master (s : State) : Nat := (s.fab.domain.filter (fun q => !s.fab.left.contains q)).foldl min s.devid
/-- Whether this package is the time master. -/
def State.isMaster (s : State) : Bool := s.master == s.devid

/-- A write of TICKCTL. -/
def State.writeTickctl (s : State) (v : Word) : State :=
  let x := v.toNat
  let run := s.hl.tickctl.getLsbD 8
  let k := bits x 4 0
  if bits x 63 9 ≠ 0 ∨ bits x 7 5 ≠ 0 ∨ k < 6 ∨ 20 < k then s.hostViolation 0x10
  else if run then (if bit x 8 ∧ k = bits s.hl.tickctl.toNat 4 0 then s else s.hostViolation 0x10)
  else
    let s := { s with hl := { s.hl with tickctl := v } }
    if bit x 8 = false then s
    else if s.agreed 2 ∧ s.isMaster = false then { s with hl := { s.hl with waitTime := true } }
    else { s with now := s.hl.timeset.toNat }

/-- `TICKCTL_WRITE`. -/
def execTickctlWrite (v : Word) (s : State) : Host.Outcome State Fault Refusal := .next (s.writeTickctl v)

/-- PEER of LKSEL. -/
def HostLink.peer (h : HostLink) : Nat := bits h.lksel.toNat 13 8
/-- DIR of LKSEL: receive. -/
def HostLink.dirRx (h : HostLink) : Bool := h.lksel.getLsbD 0

/-- The key in the key registers. -/
def HostLink.keyIn (h : HostLink) : LinkKey :=
  { key := BitVec.ofNat 256 ((h.lkeys.map (fun w => w.toNat)).foldr (fun w n => w + 2 ^ 64 * n) 0), epoch := bits h.lkepoch.toNat 35 0 }

/-- Take a new key into use on the transmit direction: numbers start at 0 again, and what was held is sent (R402). -/
def State.switchTx (s : State) (q : Nat) : State :=
  let s := s.modLink q (fun l =>
    match l.txNext with
    | some k => { l with tx := some k, txNext := none, txN := 0, stall := false, txRekey := false }
    | none => l)
  State.sendWaiting q ((s.fab.linkOr q).waiting.length) s

/-- Take a new key into use on the receive direction. -/
def Link.switchRx (l : Link) : Link :=
  match l.rxNext with
  | some k => { l with rx := some k, rxNext := none, rxN := 0, rxRekey := false }
  | none => l

/-- Install a key for the selected direction: the first with any epoch, a later one with the next epoch. -/
def State.installKey (s : State) : State :=
  let h := s.hl
  let q := h.peer
  let k := h.keyIn
  let l := s.fab.linkOr q
  let cur := if h.dirRx then l.rx else l.tx
  let next := if h.dirRx then l.rxNext else l.txNext
  let ok := match cur, next with
    | none, _ => true
    | some c, none => k.epoch == c.epoch + 1
    | _, some _ => false
  if q = s.devid ∨ ok = false then s.hostViolation 0x2038
  else
    let s := { s with hl := { s.hl with lkeys := [0#64, 0#64, 0#64, 0#64], lkepoch := 0#64 } }
    let first := cur.isNone
    if h.dirRx then s.modLink q (fun l => if first then { l with rx := some k } else { l with rxNext := some k })
    else
      let s := s.modLink q (fun l => if first then { l with tx := some k } else { l with txNext := some k })
      if l.stall then s.switchTx q else s

/-- `LKGO`. -/
def execLkgo (s : State) : Host.Outcome State Fault Refusal := .next s.installKey

/-! ### Context 0 (R433) -/

/-- A write of CTX0. -/
def State.writeCtx0 (s : State) (v : Word) : State :=
  let a := v.toNat
  let w := wordsOf (s.mem.read a 128)
  let ready := s.hl.stage = 4 ∧ s.hl.fail = 0 ∧ s.hl.lock ∧ s.hl.biasSet ∧ s.hl.tickctl.getLsbD 8
  if ready ∧ a % 128 = 0 ∧ a + 128 ≤ s.capacity ∧ s.mem.anyPoison a 128 = false ∧ (s.ctx 0).isNone ∧ s.partOpen 0 ∧ s.descOk 0 w then
    match s.homeFor 0 with
    | some home =>
      let s := s.createCtx 0 home w
      (s.modCtx 0 (fun x => { x with priv := true })).stopBoot 5 0
    | none => s.hostViolation 0x20
  else s.hostViolation 0x20

/-- `CTX0`. -/
def execCtx0 (v : Word) (s : State) : Host.Outcome State Fault Refusal := .next (s.writeCtx0 v)

/-! ### Mailboxes (R424) -/

/-- A write of a mailbox's CMD: it goes over the stack's link. -/
def State.mailbox (s : State) (n code : Nat) : State :=
  if 16 ≤ n ∨ (s.stack n).busy then s.hostViolation (0x3000 + 0x100 * n)
  else s.modStack n (fun k =>
    { k with
      cmd := BitVec.ofNat 64 code, busy := true
      reqs := k.reqs ++ [{ cmd := 5, tag := 0, gmask := 0, addr := 0, stamps := 0#64, data := [] }] })

/-- `LOAD_FIRMWARE_IMAGE`. -/
def execLoadFirmwareImage (stack : Nat) (s : State) : Host.Outcome State Fault Refusal := .next (s.mailbox stack 1)
/-- `START_FIRMWARE`. -/
def execStartFirmware (stack : Nat) (s : State) : Host.Outcome State Fault Refusal := .next (s.mailbox stack 2)
/-- `READ_FIRMWARE_VERSION`. -/
def execReadFirmwareVersion (stack : Nat) (s : State) : Host.Outcome State Fault Refusal := .next (s.mailbox stack 3)
/-- `READ_COUNTS`. -/
def execReadCounts (stack : Nat) (s : State) : Host.Outcome State Fault Refusal := .next (s.mailbox stack 4)

/-! ### Management registers (R409) -/

/-- A write that needs a condition, else a violation at its offset. -/
def State.writeIf (s : State) (off : Nat) (ok : Bool) (s' : State) : State := if ok then s' else s.hostViolation off

/-- A write of stamp window n, register r (R416). -/
def State.writeWindow (s : State) (off n r : Nat) (v : Word) : State :=
  let x := v.toNat
  let addrOk := bits x 63 52 == 0 && bits x 11 0 == 0
  let put := fun (f : StampWin → StampWin) => s.modHl (fun h => { h with swins := modifyAt f n h.swins })
  match r with
  | 0 => s.writeIf off addrOk (put (fun w => { w with base := v }))
  | 1 => s.writeIf off addrOk (put (fun w => { w with lim := v }))
  | _ =>
    s.writeIf off (bits x 63 34 == 0 && bits x 33 32 != 3 && (bits x 33 32 == 0 || s.agreed 0)) (put (fun w => { w with stamp := v }))

/-- A scheduler word that R350 and R430 allow. -/
def State.schedOk (s : State) (x : Nat) : Bool :=
  bits x 63 40 == 0 && bits x 23 21 == 0 && bits x 15 14 == 0 && decide (4 ≤ bits x 20 16) && decide (bits x 20 16 ≤ 24)
    && (!bit x 12 || s.agreed 4)

/-- A write of word i of partition entry p (R343, R418). -/
def State.writePart (s : State) (off p i : Nat) (v : Word) : State :=
  let x := v.toNat
  let put := fun (f : Part → Part) => s.modPart p f
  if i = 15 then s.writeIf off (s.schedOk x) (put (fun e => { e with sched := v }))
  else if s.ctxs.any (fun y => y.part == p) then s.hostViolation off
  else
    match i with
    | 0 =>
      let clash := (List.range 8).any (fun q => q != p && (s.part q).dies &&& v != 0#64)
      s.writeIf off (decide (x < 256) && !clash) (put (fun e => { e with dies := v }))
    | 9 => put (fun e => { e with lq := v })
    | 10 => s.writeIf off (decide (1 ≤ x) && decide (x ≤ 64)) (put (fun e => { e with cq := v }))
    | 11 => put (fun e => { e with elog := v, elogSet := true, elogNext := 0 })
    | 12 => put (fun e => { e with elogn := v, elogSet := true, elogNext := 0 })
    | 13 => s.writeIf off (x % 4096 == 0) (put (fun e => { e with hwinbase := v }))
    | 14 => s.writeIf off (x % 4096 == 0) (put (fun e => { e with hwinlim := v }))
    | _ =>
      s.writeIf off (x % 2 ^ 30 == 0)
        (put (fun e => { e with win := modifyAt (fun w => if i % 2 = 1 then (v, w.2) else (w.1, v)) ((i - 1) / 2) e.win }))

/-- A write of a link key register (R432). -/
def State.writeKeyReg (s : State) (off : Nat) (v : Word) : State :=
  let x := v.toNat
  match off with
  | 0x2008 => s.writeIf off (bits x 63 14 == 0 && bits x 7 1 == 0) (s.modHl (fun h => { h with lksel := v }))
  | 0x2030 => s.writeIf off (bits x 63 36 == 0) (s.modHl (fun h => { h with lkepoch := v }))
  | 0x2038 => s.writeIf off (bits x 63 1 == 0) (if bit x 0 then s.installKey else s)
  | 0x2040 => s
  | _ => s.modHl (fun h => { h with lkeys := modifyAt (fun _ => v) ((off - 0x2010) / 8) h.lkeys })

/-- A write of mailbox n at a byte of its page (R424); DATA and STATUS are the device's. -/
def State.writeMailbox (s : State) (off n r : Nat) (v : Word) : State :=
  if r = 0 then s.writeIf off (bits v.toNat 63 8 == 0) (s.mailbox n v.toNat)
  else if r = 0x10 then s.modStack n (fun k => { k with addr := v })
  else if r = 0x08 ∨ 0x80 ≤ r then s
  else s.hostViolation off

/-- n bytes of zeros from a, aligned, as one run: whole granules that the device itself writes are TIMELESS (R46), and lose their poison. -/
def Memory.zeroRun (m : Memory) (a n : Nat) : Memory :=
  let out := fun (k b e : Nat) => decide (k < b) || decide (e ≤ k)
  let g := a / 32
  let k := n / 32
  { bytes := m.bytes.filter (fun c => out c.1 a (a + n))
    stamps := m.stamps.filter (fun c => decide (c.1 < g)) ++ listOf k (fun i => (g + i, sTimeless))
      ++ m.stamps.filter (fun c => decide (g + k ≤ c.1))
    poison := m.poison.filter (fun c => out c.1 g (g + k))
    tags := m.tags
    writes := m.writes }

/-- A write of BIASBASE (R411): 64 KiB alignment, a table inside device memory, before CTX0. The table starts with every page in
device bias. -/
def State.writeBiasbase (s : State) (v : Word) : State :=
  let a := v.toNat
  s.writeIf 0x28 (a % 65536 == 0 && decide (a + s.biasBytes ≤ s.capacity) && (s.ctx 0).isNone && s.hl.stage != 5)
    { s with
      hl := { s.hl with biasbase := v, biasSet := true }
      mem := s.mem.zeroRun a s.biasBytes }

/-- FABCTL's ranges (R378). -/
def fabctlOk (x : Nat) : Bool :=
  bits x 63 48 == 0 && bits x 31 24 == 0 && bits x 19 16 == 0 && bits x 47 32 != 0 && bits x 23 20 != 0 && decide (16 ≤ bits x 15 0)

/-- A write at an offset of BAR0. -/
def State.writeBar0 (s : State) (off : Nat) (v : Word) : State :=
  let x := v.toNat
  if off % 8 ≠ 0 then s.hostViolation off
  else if off = 0x00 ∨ off = 0x38 then s
  else if off = 0x08 then s.writeIf off (bits x 63 9 == 0) (if bit x 8 then s.go else s)
  else if off = 0x10 then s.writeTickctl v
  else if off = 0x18 then s.writeIf off (!s.hl.tickctl.getLsbD 8) (s.modHl (fun h => { h with timeset := v }))
  else if off = 0x20 then s.writeCtx0 v
  else if off = 0x28 then s.writeBiasbase v
  else if off = 0x30 then s.writeIf off (bits x 63 52 == 0 && bits x 11 1 == 0) (s.biasCommand (bits x 51 12) (bit x 0))
  else if off < 0x100 then s.writeWindow off ((off - 0x40) / 24) ((off - 0x40) % 24 / 8) v
  else if off = 0x100 then s.writeIf off (x % 4096 == 0 && decide (x < s.capacity))
    (s.modHl (fun h => { h with hlogbase := v, hlogSet := true, hlogNext := 0 }))
  else if off = 0x108 then s.writeIf off (decide (4 ≤ x) && decide (x ≤ 16))
    (s.modHl (fun h => { h with hlogn := v, hlogSet := true, hlogNext := 0 }))
  else if off = 0x110 then
    s.writeIf off (bits x 63 43 == 0 && bits x 31 27 == 0 && bits x 15 11 == 0) (s.modHl (fun h => { h with irqvec := v }))
  else if 0x1000 ≤ off ∧ off < 0x1400 then s.writePart off ((off - 0x1000) / 0x80) (off % 0x80 / 8) v
  else if off = 0x2000 then s.writeIf off (fabctlOk x) { s with fab := { s.fab with fabctl := v } }
  else if 0x2008 ≤ off ∧ off ≤ 0x2040 then s.writeKeyReg off v
  else if 0x3000 ≤ off ∧ off < 0x4000 then s.writeMailbox off ((off - 0x3000) / 0x100) (off % 0x100) v
  else s.hostViolation off

/-- A write of 8 bytes of the BAR2 window, 64 MiB, before GO runs the image. -/
def State.writeBar2 (s : State) (a : Nat) (v : Word) : State :=
  s.modHl (fun h => { h with
    image := (numbered (fun i b => (i, b)) (toBytes 8 v.toNat)).foldl (fun m p => AList.put 0#8 (a + p.1) p.2 m) h.image })

/-- A write of HOSTFEAT in the Aqlin DVSEC: word 0 or 1, read-only once LOCK is set (R429). -/
def State.writeHostfeat (s : State) (hi : Bool) (v : Word) : State :=
  if s.hl.lock then s
  else s.modHl (fun h => { h with
    hostfeat := if hi then v ++ h.hostfeat.extractLsb' 0 64 else h.hostfeat.extractLsb' 64 64 ++ v })

/-- A write at an offset of the Aqlin DVSEC: DEVFEAT and EXTRA are read-only and ignore it (R7, R429). -/
def State.writeDvsec (s : State) (off : Nat) (v : Word) : State :=
  match off with
  | 0x10 | 0x18 => s
  | 0x20 => s.writeHostfeat false v
  | 0x28 => s.writeHostfeat true v
  | 0x30 => if v.getLsbD 0 then s.setLock else s
  | _ => s.hostViolation (2 ^ 33 + off)

/-- `HOST_REGISTER_WRITE`: a host write at an offset of BAR0; from 2^32 on, of the BAR2 window; from 2^33 on, of the Aqlin DVSEC
(log 17). -/
def execHostRegisterWrite (off : Nat) (v : Word) (s : State) : Host.Outcome State Fault Refusal :=
  if off < 2 ^ 32 then .next (s.writeBar0 off v)
  else if off < 2 ^ 32 + 2 ^ 26 then .next (s.writeBar2 (off - 2 ^ 32) v)
  else if 2 ^ 33 ≤ off then .next (s.writeDvsec (off - 2 ^ 33) v)
  else .next (s.hostViolation off)

/-! ### Reads of registers (R409, and the maps) -/

/-- A word of a partition entry. -/
def Part.word (e : Part) (i : Nat) : Word :=
  match i with
  | 0 => e.dies
  | 9 => e.lq
  | 10 => e.cq
  | 11 => e.elog
  | 12 => e.elogn
  | 13 => e.hwinbase
  | 14 => e.hwinlim
  | 15 => e.sched
  | _ =>
    let w := e.win.getD ((i - 1) / 2) (0#64, 0#64)
    if i % 2 = 1 then w.1 else w.2

/-- LKST of the selected direction. -/
def State.lkst (s : State) : Word :=
  let l := s.fab.linkOr s.hl.peer
  let k := if s.hl.dirRx then l.rx else l.tx
  let stall := !s.hl.dirRx && l.stall
  let rekey := if s.hl.dirRx then l.rxRekey else l.txRekey
  BitVec.ofNat 64 (b2n k.isSome * 2 ^ 63 + b2n stall * 2 ^ 62 + b2n rekey * 2 ^ 61 + ((k.map (fun k => k.epoch)).getD 0) % 2 ^ 36)

/-- A byte offset of a mailbox page, as read. -/
def Stack.readReg (k : Stack) (r : Nat) : Option Word :=
  if r = 0 then some k.cmd
  else if r = 8 then some (BitVec.ofNat 64 (b2n k.busy * 2 ^ 63 + k.result % 256))
  else if r = 0x10 then some k.addr
  else if 0x80 ≤ r then some (k.data.getD ((r - 0x80) / 8) 0#64)
  else none

/-- What a host read of an offset of BAR0 returns; none for an offset that the map does not list. -/
def State.readBar0 (s : State) (off : Nat) : Option Word :=
  let h := s.hl
  if off % 8 ≠ 0 then none
  else if off = 0x00 then some (BitVec.ofNat 64 (s.height * 2 ^ 40 + 0x00070000))
  else if off = 0x08 then some (BitVec.ofNat 64 (h.fail * 16 + h.stage))
  else if off = 0x10 then some h.tickctl
  else if off = 0x18 then some h.timeset
  else if off = 0x20 ∨ off = 0x30 then some 0#64
  else if off = 0x28 then some h.biasbase
  else if off = 0x38 then some (BitVec.ofNat 64 (b2n h.busy * 2 ^ 63 + h.bscPage % 2 ^ 40 * 4096 + b2n h.bscBias))
  else if 0x40 ≤ off ∧ off < 0x100 then
    (h.swins[(off - 0x40) / 24]?).map (fun w => match (off - 0x40) % 24 / 8 with
      | 0 => w.base
      | 1 => w.lim
      | _ => w.stamp)
  else if off = 0x100 then some h.hlogbase
  else if off = 0x108 then some h.hlogn
  else if off = 0x110 then some h.irqvec
  else if 0x1000 ≤ off ∧ off < 0x1400 then some ((s.part ((off - 0x1000) / 0x80)).word (off % 0x80 / 8))
  else if off = 0x2000 then some s.fab.fabctl
  else if off = 0x2008 then some h.lksel
  else if 0x2010 ≤ off ∧ off ≤ 0x2028 ∨ off = 0x2038 then some 0#64
  else if off = 0x2030 then some h.lkepoch
  else if off = 0x2040 then some s.lkst
  else if 0x3000 ≤ off ∧ off < 0x4000 then (s.stack ((off - 0x3000) / 0x100)).readReg (off % 0x100)
  else none

/-- What a host read at an offset of the Aqlin DVSEC returns (R429). -/
def State.readDvsec (s : State) (off : Nat) : Option Word :=
  match off with
  | 0x10 => some (devFeat.extractLsb' 0 64)
  | 0x18 => some (devFeat.extractLsb' 64 64)
  | 0x20 => some (s.hl.hostfeat.extractLsb' 0 64)
  | 0x28 => some (s.hl.hostfeat.extractLsb' 64 64)
  | 0x30 => some (BitVec.ofNat 64 (b2n s.hl.extra * 2 + b2n s.hl.lock))
  | _ => none

/-- What a host read of an offset returns, numbered as for `HOST_REGISTER_WRITE`; none for an offset that no map lists. -/
def State.readRegister (s : State) (off : Nat) : Option Word :=
  if off < 2 ^ 32 then s.readBar0 off
  else if off < 2 ^ 32 + 2 ^ 26 then
    some (BitVec.ofNat 64 (ofBytes (listOf 8 (fun i => AList.get 0#8 (off - 2 ^ 32 + i) s.hl.image))))
  else if 2 ^ 33 ≤ off then s.readDvsec (off - 2 ^ 33)
  else none

/-- `UNLISTED_OFFSET_READ`: a violation of the host, which also returns zero; a listed offset reads as its register. -/
def execUnlistedOffsetRead (off : Nat) (s : State) : Host.Outcome State Fault Refusal :=
  match s.readRegister off with
  | some v => .next (s.toHost (.value off v))
  | none => .next ((s.hostViolation off).toHost (.value off 0#64))

end Sys2Proof.Machine
end

