-- ==== Sys2Proof/Machine/Stacks.lean ====
section
/-!
DEFINITION. The stack links and the base dies (spec/20_host_stacks_bringup.md R419 to R425): requests, their performance and
their responses, the mailbox commands, time beats.
-/

namespace Sys2Proof.Machine

/-! ### Requests (R420, R422) -/

/-- Whether a request reads, writes or asks the stamps of a line. -/
def StackReq.isLine (r : StackReq) : Bool := decide (1 ≤ r.cmd) && decide (r.cmd ≤ 3)

/-- The compute die puts a request on a stack's link: one outstanding request per tag; a code that names no command is answered
with a command error (R420). -/
def Stack.send (k : Stack) (r : StackReq) : Stack :=
  if 1023 < r.tag ∨ k.reqs.any (fun x => x.isLine && x.tag == r.tag) ∨ k.resps.any (fun x => x.tag == r.tag && x.cmd != 5) then k
  else if r.isLine then { k with reqs := k.reqs ++ [r] }
  else if r.cmd = 5 ∨ r.cmd = 6 then k
  else { k with resps := k.resps ++ [
    { cmd := r.cmd, tag := r.tag, addr := r.addr, status := 4, gpois := 0, synd := 4, stamps := 0#64, data := [] }] }

/-- The requests to one line are performed in the order they arrive (R422): the request of a command and tag, with the requests that
stay, when none to its line came before it. -/
def takeReq (cmd tag : Nat) (l : List StackReq) : Option (StackReq × List StackReq) :=
  match takeFirst (fun r => r.cmd == cmd && r.tag == tag) l with
  | none => none
  | some (r, rest) =>
    let before := l.takeWhile (fun x => !(x.cmd == cmd && x.tag == tag))
    if r.isLine && before.any (fun x => x.isLine && x.addr / 64 == r.addr / 64) then none else some (r, rest)

/-- The line a request names, when it lies in the stack (R419, R421). -/
def State.stackLine (s : State) (n : Nat) (r : StackReq) : Option Nat :=
  if r.addr % 64 = 0 ∧ r.addr + 64 ≤ s.stackBytes then some (n * s.stackBytes + r.addr) else none

/-- Answer a request. -/
def State.respond (s : State) (n : Nat) (r : StackReq) (status gpois synd : Nat) (stamps : Word) (data : List Byte) : State :=
  s.modStack n (fun k => { k with resps := k.resps ++ [
    { cmd := r.cmd, tag := r.tag, addr := r.addr, status := status, gpois := gpois, synd := synd, stamps := stamps, data := data }] })

/-- Perform a line request of a command and tag: an address outside the stack is an address error. -/
def State.performLine (s : State) (n cmd tag : Nat) (f : Nat → StackReq → State → State) : State :=
  let k := s.stack n
  match takeReq cmd tag k.reqs with
  | none => s
  | some (r, rest) =>
    if k.started = false ∨ 16 ≤ n then s
    else
      let s := s.modStack n (fun k => { k with reqs := rest })
      match s.stackLine n r with
      | none => s.respond n r 3 0 4 0#64 []
      | some a => f a r s

/-- The two stamps of a line. -/
def State.lineStamps (s : State) (a : Nat) : Word := s.mem.stamp (a / 32 + 1) ++ s.mem.stamp (a / 32)
/-- The poisoned granules of a line. -/
def State.linePoison (s : State) (a : Nat) : Nat := b2n (s.mem.isPoison (a / 32)) + 2 * b2n (s.mem.isPoison (a / 32 + 1))

/-- `STACK_READ`: the line with its stamps. -/
def execStackRead (stack tag : Nat) (s : State) : Host.Outcome State Fault Refusal :=
  .next (s.performLine stack 1 tag (fun a r s =>
    let p := s.linePoison a
    s.respond stack r (if p = 0 then 0 else 2) p (if p = 0 then 0 else 2) (s.lineStamps a) (s.mem.read a 64)))

/-- A granule as a write request gives it, with its stamp. -/
def Memory.stackGranule (m : Memory) (g : Nat) (bs : List Byte) (st : Stamp) : Memory :=
  (((m.putBytes (32 * g) bs).putStamp g st).putPoison g false).noteWrite g

/-- The masked granules of a write request, their stamps clamped against the Eft's time (R62). -/
def Memory.stackWrite (m : Memory) (now a : Nat) (r : StackReq) : Memory :=
  let g := a / 32
  let m := if bit r.gmask 0 then m.stackGranule g (r.data.take 32) (patrolStamp now (r.stamps.extractLsb' 0 32)) else m
  if bit r.gmask 1 then m.stackGranule (g + 1) ((r.data.drop 32).take 32) (patrolStamp now (r.stamps.extractLsb' 32 32)) else m

/-- `STACK_WRITE`: the masked granules with their stamps. -/
def execStackWrite (stack tag : Nat) (s : State) : Host.Outcome State Fault Refusal :=
  .next (s.performLine stack 2 tag (fun a r s =>
    let s : State := { s with mem := s.mem.stackWrite (s.stack stack).eftNow a r }
    s.respond stack r 0 0 0 0#64 []))

/-- `STACK_STAMP_READ`: a line's two stamps. -/
def execStackStampRead (stack tag : Nat) (s : State) : Host.Outcome State Fault Refusal :=
  .next (s.performLine stack 3 tag (fun a r s => s.respond stack r 0 0 0 (s.lineStamps a) []))

/-! ### The mailbox (R424) -/

/-- Command 1: the image at ADDR is read and verified by the base die's boot code. -/
def Stack.load (k : Stack) (m : Memory) (capacity : Nat) : Stack :=
  let a := k.addr.toNat
  let n := Config.fwImageLen a
  let bs := m.read a n
  if capacity < a + n then { k with result := 3 }
  else if Config.ecdsaOk bs = false ∨ Config.lmsOk bs = false then { k with result := 1 }
  else if Config.imageVersion bs < Config.minVersion then { k with result := 2 }
  else { k with image := bs, loaded := true, result := 0 }

/-- The base die performs the command in CMD. -/
def Stack.command (k : Stack) (m : Memory) (capacity : Nat) : Stack :=
  match k.cmd.toNat with
  | 1 => k.load m capacity
  | 2 => if k.loaded && Config.eftStarts k.image then { k with started := true, result := 0 } else { k with result := 3 }
  | 3 => { k with data := [BitVec.ofNat 64 (Config.fwVersion k.image)], result := 0 }
  | 4 => { k with data := [BitVec.ofNat 64 k.corrected, BitVec.ofNat 64 k.uncorrected], result := 0 }
  | _ => { k with result := 3 }

/-- `STACK_MAILBOX`: the base die performs the mailbox request; BUSY falls. -/
def execStackMailbox (stack tag : Nat) (s : State) : Host.Outcome State Fault Refusal :=
  match takeReq 5 tag (s.stack stack).reqs with
  | none => .next s
  | some (r, rest) =>
    let m := s.mem
    let c := s.capacity
    .next ((s.modStack stack (fun k => { (k.command m c) with reqs := rest, busy := false })).respond stack r 0 0 0 0#64 [])

/-- `TIME_BEAT`: the Eft takes the beat in flight as its `now`. -/
def execTimeBeat (stack : Nat) (s : State) : Host.Outcome State Fault Refusal :=
  match takeReq 6 0 (s.stack stack).reqs with
  | none => .next s
  | some (r, rest) =>
    .next (s.modStack stack (fun k => { k with reqs := rest, eftNow := if k.started then r.stamps.toNat else k.eftNow }))

/-! ### Responses (R421, R422, R425) -/

/-- The compute die marks the granules that a response says are uncorrectable (R43). -/
def Memory.markPoison (m : Memory) (a gpois : Nat) : Memory :=
  let m := if bit gpois 0 then m.putPoison (a / 32) true else m
  if bit gpois 1 then m.putPoison (a / 32 + 1) true else m

/-- The record that a response's status calls for. -/
def State.recordResponse (s : State) (n : Nat) (r : StackResp) : State :=
  let a := n * s.stackBytes + r.addr
  match r.status with
  | 0 => s
  | 1 => (s.modStack n (fun k => { k with corrected := k.corrected + 1 })).logStack n 1 0 a r.synd
  | 2 => (s.modStack n (fun k => { k with uncorrected := k.uncorrected + 1 })).logStack n 2 1 a r.synd
  | _ => s.logStack n 4 0 a r.synd

/-- `STACK_RESPONSE`: the response under a tag arrives. -/
def execStackResponse (stack tag : Nat) (s : State) : Host.Outcome State Fault Refusal :=
  match takeFirst (fun (r : StackResp) => r.tag == tag) (s.stack stack).resps with
  | none => .next s
  | some (r, rest) =>
    let s := s.modStack stack (fun k => { k with resps := rest })
    let s : State := { s with mem := s.mem.markPoison (stack * s.stackBytes + r.addr) r.gpois }
    .next (s.recordResponse stack r)

end Sys2Proof.Machine
end

