-- ==== Sys2Proof/Machine/Fabric.lean ====
section
/-!
DEFINITION. The link layer (spec/18_optical_fabric.md R395 to R403; R432 of spec/20_host_stacks_bringup.md): a flit that arrives,
acknowledgement and replay, a link that goes down or comes up, rekeying, time exchange.
-/

namespace Sys2Proof.Machine

/-! ### Acknowledgement and replay (R395, R399) -/

/-- Whether a kept flit is acknowledged by the low 16 bits of the next number the peer expects. -/
def ackedBy (ack n : Nat) : Bool :=
  let d := (ack % 65536 + 65536 - n % 65536) % 65536
  decide (1 ≤ d) && decide (d ≤ 32768)

/-- Acknowledged flits leave the replay buffer, and flits that waited for its space leave. -/
def State.ackFlits (s : State) (q ack : Nat) : State :=
  let s := s.modLink q (fun l => { l with replay := l.replay.filter (fun f => !ackedBy ack f.n) })
  State.sendWaiting q ((s.fab.linkOr q).waiting.length) s

/-- Send kept flits again, bit for bit, on the current channel set. -/
def State.resend (s : State) (q : Nat) (l : List SentFlit) : State :=
  l.foldl (fun s f => s.toFabric (.flit q (s.flitPlane q f.out.type f.n) f.bytes)) s

/-- `REPLAY_REQUEST`: the peer asks for flit n and every later one again. Data flits of a peer that rotation serves wait for its next
window, which sends them again (R393). -/
def execReplayRequest (peer n : Nat) (s : State) : Host.Outcome State Fault Refusal :=
  let l := s.fab.linkOr peer
  let again := l.replay.dropWhile (fun f => f.n != n)
  if l.up = false ∨ again.isEmpty then .next s
  else
    let s := s.modLink peer (fun l => { l with failN := n, fails := if l.failN = n then l.fails + 1 else 1 })
    .next (if again.all (fun f => s.mayCarry peer f.out.type) then s.resend peer again else s)

/-! ### A flit arrives (R393, R395 to R399, R401) -/

/-- What the receiver makes of a flit under a key: nothing for a bad CRC, the tag's verdict for a good one. -/
inductive FlitCheck where
  | bad
  | badTag
  | good (f : GoodFlit)
  deriving DecidableEq, Repr

/-- Whether the CRC of a flit is that of number n (R398). -/
def crcGood (n : Nat) (bs : List Byte) : Bool :=
  bs.length == 256 && Config.crc32 (n % 2 ^ 32) (bs.take 252) == BitVec.ofNat 32 (ofBytes (bs.drop 252))

/-- Check flit n from src to dst. -/
def checkFlit (k : LinkKey) (src dst n : Nat) (bs : List Byte) : FlitCheck :=
  if crcGood n bs = false then .bad
  else
    let head := bs.take 4
    let cipher := (bs.drop 4).take 240
    let nonce := nonceOf src dst k.epoch n
    if Config.gcmTag k.key nonce head cipher ≠ BitVec.ofNat 64 (ofBytes ((bs.drop 244).take 8)) then .badTag
    else
      let h := ofBytes head
      .good { type := bits h 31 28, valid := bits h 27 20, mbz := bits h 19 16, ack := bits h 15 0,
              payload := (xorBytes cipher (keyStream k nonce)).take (bits h 27 20) }

/-- The channel set that a peer's flits come on: its base channel and leased channels. -/
def State.rxSet (s : State) (q : Nat) : List Nat := withPlane ((s.fab.linkOr q).planesRx) (basePlane q s.devid) true

/-- The number expected next on a plane: the first one of its channel that has not arrived (R397, R398); none where the peer has no
channel. While rotation runs, base and window channels share the numbers, so that the first one missing is expected on each. -/
def State.expectOn (s : State) (q j : Nat) : Option Nat :=
  let l := s.fab.linkOr q
  let js := if s.fab.rotating then [j] else s.rxSet q
  if js.contains j = false then none
  else (listOf Config.replayFlits (fun i => l.rxN + i)).find? (fun m => !l.rxHeld.any (fun h => h.1 == m) && js.getD (m % js.length) 0 == j)

/-- A violation of the fabric, which belongs to no context. -/
def State.fabricViolation (s : State) : State := s.logError none 4 0 none 0xFFF false 0 0 0

/-- Enter a received packet; what the wire does not carry of a request is a free value (log 13). -/
def State.enterPacket (s : State) (q : Nat) (bs : List Byte) : State :=
  let (id, s) := s.fresh
  let (x, s) := s.freeVal
  let (d, s) := s.choose 32
  let p := packetOfBytes id q s.devid x d bs
  { s with fab := { s.fab with inPk := s.fab.inPk ++ [p] } }

/-- The payload of a data flit joins its packet, which is passed on once whole (R393). A header that R396 does not allow is a
violation, and its bytes are dropped. -/
def State.takeData (s : State) (q : Nat) (payload : List Byte) : State :=
  let bs := (s.fab.linkOr q).partBytes ++ payload
  let put := fun (s : State) (b : List Byte) => s.modLink q (fun l => { l with partBytes := b })
  if bs.length < 8 then put s bs
  else
    match packetSize (ofBytes (bs.take 8)) with
    | none => (put s []).fabricViolation
    | some n => if bs.length < n then put s bs else (put s []).enterPacket q (bs.take n)

/-- Pass a good flit on. Control and time flits bring the messages that other rows of the table are. A HEAD that R395 does not allow is a
violation. -/
def State.passFlit (s : State) (q : Nat) (f : GoodFlit) : State :=
  let s := s.modLink q (fun l => { l with rxN := l.rxN + 1, rxFails := 0, ackDue := l.ackDue || f.type != 0 })
  if 3 < f.type ∨ 240 < f.valid ∨ f.mbz ≠ 0 then s.fabricViolation
  else
    let s := s.ackFlits q f.ack
    if f.type = 1 then s.takeData q f.payload else s

/-- Pass on the flits that have arrived ahead, as far as they follow on. -/
def State.passHeld (q : Nat) : Nat → State → State
  | 0, s => s
  | fuel + 1, s =>
    let l := s.fab.linkOr q
    match takeFirst (fun h => h.1 == l.rxN) l.rxHeld with
    | none => s
    | some (h, rest) => State.passHeld q fuel ((s.modLink q (fun l => { l with rxHeld := rest })).passFlit q h.2)

/-- Flit m has passed its checks: it is passed on in the order of the numbers, or discarded behind one that has failed (R397, R399). -/
def State.goodFlit (s : State) (q m : Nat) (f : GoodFlit) : State :=
  let l := s.fab.linkOr q
  if l.rxBad.any (fun n => decide (n < m)) then s
  else
    let s := s.modLink q (fun l => { l with rxBad := if l.rxBad = some m then none else l.rxBad })
    if m = l.rxN then State.passHeld q l.rxHeld.length (s.passFlit q f)
    else s.modLink q (fun l => { l with rxHeld := l.rxHeld ++ [(m, f)] })

/-- Flit m has failed: it and every later one are discarded, and the peer is asked for it again, once; a replay of it that fails is asked
for again (R399, R400). What was in flight behind a failed flit shows by a later number's CRC. -/
def State.failFlit (s : State) (q m : Nat) (flit : List Byte) : State :=
  let again := fun (s : State) => s.tell q (.replayFrom q m)
  let first := again (s.modLink q (fun l => { l with rxBad := some m, rxHeld := l.rxHeld.filter (fun h => decide (h.1 < m)), rxFails := 0 }))
  match (s.fab.linkOr q).rxBad with
  | none => first
  | some n =>
    if m < n then first
    else if n < m ∨ (listOf Config.replayFlits (fun i => n + 1 + i)).any (fun k => crcGood k flit) then s
    else again (s.modLink q (fun l => { l with rxFails := l.rxFails + 1 }))

/-- `FLIT_RECEIVE`: a flit arrives from a peer on a plane. At the last number of a key the next key takes over (R402). -/
def execFlitReceive (peer : Nat) (flit : PlaneFlit) (s : State) : Host.Outcome State Fault Refusal :=
  let s := s.modLink peer (fun l => if l.rxN = 2 ^ 48 then l.switchRx else l)
  let l := s.fab.linkOr peer
  match l.rx, s.expectOn peer flit.plane with
  | some k, some m =>
    if l.up = false ∨ 2 ^ 48 ≤ m then .next s
    else
      match checkFlit k peer s.devid m flit.bytes with
      | .bad => .next (s.failFlit peer m flit.bytes)
      | .badTag => .next (s.fabricViolation.failFlit peer m flit.bytes)
      | .good f => .next (s.goodFlit peer m f)
  | _, _ => .next s

/-! ### Down and up (R400, R432) -/

/-- REPLIM of FABCTL (R378). -/
def Fabric.replim (f : Fabric) : Nat := bits f.fabctl.toNat 23 20
/-- STARVE of FABCTL. -/
def Fabric.starve (f : Fabric) : Nat := bits f.fabctl.toNat 47 32
/-- TSYNC of FABCTL. -/
def Fabric.tsync (f : Fabric) : Nat := bits f.fabctl.toNat 15 0

/-- The number at which a link's flits go on after it was down: the last acknowledged one is the last not sent again. -/
def Link.resumeAt (l : Link) : Nat := (l.replay.head?.map (fun f => f.n)).getD l.txN

/-- A link that went down holds nothing. -/
def Link.drop (l : Link) : Link :=
  { l with up := false, txN := l.resumeAt, replay := [], rxHeld := [], rxBad := none, ackDue := false, waiting := [], partBytes := [],
           fails := 0, rxFails := 0, planesTx := [], planesRx := [], changes := [] }

/-- Every leased channel of a pair is free, its drops to be offered, and its requests are gone. -/
def Fabric.forget (f : Fabric) (q : Nat) : Fabric :=
  { f with
    freed := f.freed ++ (f.rxc.filter (fun c => c.peer == q)).map (fun c => c.plane)
    txc := f.txc.filter (fun c => c.peer != q)
    rxc := f.rxc.filter (fun c => c.peer != q)
    requests := f.requests.filter (fun r => r.peer != q)
    queued := f.queued.filter (fun r => r.peer != q)
    promised := f.promised.filter (fun r => r.2 != q)
    confirms := f.confirms.filter (fun c => c.peer != q) }

/-- The engine threads whose packets for a peer are unacknowledged end as a bulk fault, SUB 4. -/
def State.failEngines (s : State) (q : Nat) : State :=
  (s.engines.filter (fun e => e.unit == .sender e.uid && e.peer == q && !e.sent.isEmpty)).foldl
    (fun s e => s.engineFail e { code := 0x24, sub := 4, detail := e.remote.cursor }) s

/-- The domain context numbers of the egress records that wait for a link or are on it without an acknowledgement. -/
def Fabric.recordsTo (f : Fabric) (q : Nat) : List Nat :=
  let l := f.linkOr q
  l.replay.filterMap (fun k => k.out.egress) ++ l.waiting.filterMap (fun k => k.egress)
    ++ (f.outPk.filter (fun p => p.dst == q && p.kind == 7)).map (fun p => p.dcn)

/-- An egress record that a link took down with it leaves an error record (log 13). -/
def State.lostRecord (s : State) (dcn : Nat) : State :=
  let c := s.ctxs.find? (fun x => x.dcn == dcn)
  s.logError (c.map (fun x => x.part)) 4 0 (c.map (fun x => x.num)) 0xFFF true 0 0 0

/-- Take a link down: its peer has left the domain. Egress records that it held are lost; the operations of the rest end. -/
def State.linkDown (s : State) (q : Nat) : State :=
  let lost := s.fab.recordsTo q
  let s : State := { s with fab := { s.fab.forget q with
    present := s.fab.present.filter (fun p => p != q)
    left := s.fab.left.filter (fun p => p != q) ++ [q]
    outPk := s.fab.outPk.filter (fun p => p.dst != q) } }
  lost.foldl State.lostRecord ((s.modLink q Link.drop).failEngines q)

/-- `LINK_DOWN`: REPLIM consecutive replays of one flit have failed, at either end. -/
def execLinkDown (peer : Nat) (s : State) : Host.Outcome State Fault Refusal :=
  let l := s.fab.linkOr peer
  if l.up ∧ (s.fab.replim < l.fails ∨ s.fab.replim ≤ l.rxFails) then .next (s.linkDown peer) else .next s

/-- The identity and counts of a table go to a peer (R390). -/
def State.tellTable (s : State) (q : Nat) : Option RotTable → State
  | none => s
  | some r => s.tell q (.tableId q r.id (r.slots.map (fun k => k.txn.getD q 0)) (r.slots.map (fun k => k.rxn.getD q 0)))

/-- A member enters a list once. -/
def addOnce (l : List Nat) (q : Nat) : List Nat := if l.contains q then l else l ++ [q]

/-- Whether the base channel of a peer can be tuned: that of a package of the domain has its slots; one that comes to the domain needs a
free slot of its plane at each end of this package (R376). -/
def State.baseTuned (s : State) (q : Nat) : Bool :=
  s.fab.domain.contains q || (s.freeMod (basePlane s.devid q) && s.freeDrop (basePlane s.devid q))

/-- `LINK_UP`: both directions have keys and the base channel is tuned; the peer is present in the domain. -/
def execLinkUp (peer : Nat) (s : State) : Host.Outcome State Fault Refusal :=
  let l := s.fab.linkOr peer
  if s.agreed 2 = false ∨ peer = s.devid ∨ 64 ≤ peer ∨ l.up ∨ l.tx.isNone ∨ l.rx.isNone ∨ s.baseTuned peer = false then .next s
  else
    let s := s.modLink peer (fun l => { l with up := true })
    let s : State := { s with fab := { s.fab with
      domain := addOnce s.fab.domain peer, present := addOnce s.fab.present peer, left := s.fab.left.filter (fun p => p != peer) } }
    let s := (s.tellTable peer s.fab.rot).tellTable peer s.fab.rotNext
    .next ((s.keepRequest peer).pumpPeer peer)

/-! ### Rekeying (R402) -/

/-- `REKEY_INTERRUPT`: a direction's number has reached 2^48 - 2^20. Both ends agree on the next epoch in a control flit under the old key,
which this end sends with it (DEDUCED, log 62). -/
def execRekeyInterrupt (peer : Nat) (rx : Bool) (s : State) : Host.Outcome State Fault Refusal :=
  let l := s.fab.linkOr peer
  let n := if rx then l.rxN else l.txN
  let done := if rx then l.rxRekey else l.txRekey
  if done ∨ n < 2 ^ 48 - 2 ^ 20 then .next s
  else
    let s := s.modLink peer (fun l => if rx then { l with rxRekey := true } else { l with txRekey := true })
    let epoch := ((if rx then l.rx else l.tx).map (fun k => k.epoch + 1)).getD 0
    .next ((s.sendMsix (bits s.hl.irqvec.toNat 42 32)).tell peer (.keyNext peer rx epoch))

/-- `DIRECTION_STALL`: flit 2^48 - 1 has been sent; the direction stalls until its next key. -/
def execDirectionStall (peer : Nat) (s : State) : Host.Outcome State Fault Refusal :=
  let l := s.fab.linkOr peer
  if l.stall ∨ l.txN < 2 ^ 48 then .next s
  else
    let s := s.modLink peer (fun l => { l with stall := true })
    .next (if l.txNext.isSome then s.switchTx peer else s)

/-! ### Time (R403, R410) -/

/-- Whether an exchange with the master is due: the first, or TSYNC ticks after the last. -/
def State.syncDue (s : State) : Bool :=
  s.agreed 2 && !s.isMaster && (s.hl.waitTime || (s.timeRuns && decide (s.fab.tsyncAt + s.fab.tsync ≤ s.now)))

/-- The four timestamps are there. Of the first exchange device time starts at the master's, which has gone on by less than a tick; a later
one gives what the nanosecond clock is to be slewed by, so that the tick itself stays. -/
def State.takeTime (s : State) (t1 t2 t3 : Nat) : State :=
  if s.hl.waitTime then
    let (d, s) := s.choose 2
    let now := (t3 / s.tickNs + d) % 2 ^ 64
    { s with now := now, hl := { s.hl with waitTime := false }, fab := { s.fab with tsyncAt := now } }
  else
    let (t4, s) := s.nsNow
    { s with fab := { s.fab with slew := (((t2 : Int) - t1) + ((t3 : Int) - t4)) * 512 } }

/-- `TIME_SYNC`: a message of the exchange with the master: this package asks it; it is asked; it is answered. -/
def execTimeSync (m : TimeMsg) (s : State) : Host.Outcome State Fault Refusal :=
  match m with
  | .start =>
    if s.syncDue = false then .next s
    else
      let (t1, s) := s.nsNow
      .next ({ s with fab := { s.fab with tsyncAt := s.now } }.tell s.master (.timeRequest s.master t1))
  | .request q t1 =>
    if s.agreed 2 = false ∨ s.isMaster = false ∨ s.fab.present.contains q = false then .next s
    else
      let (t2, s) := s.nsNow
      let (t3, s) := s.nsNow
      .next (s.tell q (.timeReply q t1 t2 (max t2 t3)))
  | .reply t1 t2 t3 => if s.agreed 2 = false ∨ s.isMaster then .next s else .next (s.takeTime t1 t2 t3)

end Sys2Proof.Machine
end

