-- ==== Sys2Proof/Machine/Receiver.lean ====
section
/-!
DEFINITION. The fabric receiver (spec/09_async_and_egress.md R255, R257, R263 to R265, R269, R270, R274; R404 of
spec/18_optical_fabric.md; R44, R46): requests performed in the paired context, and the replies that come back.
-/

namespace Sys2Proof.Machine

/-! ### The paired context and the remote capability (R263, R264) -/

/-- A received packet that may be worked on: of the kind asked for, and not held by a pager. -/
def State.readyPacket (s : State) (n kind : Nat) : Option Packet :=
  match s.inPacket n with
  | none => none
  | some p =>
    let held := s.ctxs.any (fun x => x.pagers.any (fun g =>
      g.recs.any (fun r => r.joined.any (fun j => j.1 == .fabric n)) || g.waiting.any (fun f => f.joined.any (fun j => j.1 == .fabric n))))
    if p.kind = kind ∧ held = false then some p else none

/-- The paired context of a packet. -/
def State.paired (s : State) (p : Packet) : Option Ctx := s.ctxs.find? (fun x => x.dcn == p.dcn)

/-- The address of a request's first byte. -/
def Packet.va (p : Packet) : Nat := (p.cap.cursor + p.offset) % 2 ^ 56

/-- The context in which a request of n bytes may be performed under a permission, or nothing when R264 rejects it. -/
def State.allowed (s : State) (p : Packet) (perm n : Nat) : Option Nat :=
  match s.paired p with
  | none => none
  | some x =>
    if p.cap.has perm && p.cap.covers p.va n && decide (p.va + n ≤ Config.scratchWindow) then some x.num else none

/-- What an access that fails does to a received request: held by a pager, or rejected (R264); poison is SUB 2 (R44). -/
def State.requestFailed (s : State) (p : Packet) (c : Nat) (acc : Nat) : EngFail → State
  | .held va kind =>
    match s.joinPager c va kind acc (.fabric p.id) with
    | (some _, s) => s
    | (none, s) => s.rejectPacket p 1 va
  | .struct _ => s.rejectPacket p 1 p.va
  | .violation pa => (s.logCtx c 4 0 none false pa).refusePacket p 1
  | .poison pa => (s.logCtx c 2 0 none false pa).refusePacket p 2
  | .host va => s.rejectPacket p 1 va
  | .wait => s

/-- The stamps of a packet's runs as the receiver takes them (R404). -/
def Packet.stamps (p : Packet) (now : Nat) : List Stamp := (stampsOfRuns p.runs).map (normaliseStamp now)

/-- An engine write that must reach device memory alone. -/
def State.devWrite (s : State) (c va : Nat) (bs : List Byte) (f : Nat → Stamp) : Except EngFail Unit × State :=
  match s.devMap c .store va bs.length with
  | (.error e, s) => (.error e, s)
  | (.ok l, s) => (.ok (), State.segWrite l bs f s)

/-- A read that must reach device memory alone, every byte with the stamp of its granule. -/
def State.devRun (s : State) (c va n : Nat) : Except EngFail (List (Byte × Option Stamp)) × State :=
  match s.devMap c .load va n with
  | (.error e, s) => (.error e, s)
  | (.ok l, s) =>
    match s.segPoison l with
    | some pa => (.error (.poison pa), s)
    | none => (.ok (knownStamps (l.flatMap (fun g => s.mem.readStamped g.pa g.n))), s)

/-! ### Writes (R264, R269) -/

/-- The counter that a packet's delivery tag is bound to: none when it names none, `some none` when the tag is unbound. -/
def State.tagCounter (s : State) (p : Packet) (c : Nat) : Option (Option DTag) :=
  if p.ten then some ((s.ctx c).bind (fun x => x.dtags.find? (fun g => g.tag == p.tag))) else none

/-- Write a run of a packet's bytes in context c. -/
def State.deliverRun (p : Packet) (c : Nat) (s : State) (va n : Nat) : Except EngFail Unit × State :=
  let st := p.stamps s.now
  s.devWrite c va ((p.data.drop (va - p.va)).take n) (fun i => st.getD (i + (va / 32 - p.va / 32)) sVacant)

/-- Write a packet's bytes, make its counter add, acknowledge it. -/
def State.deliverWrite (s : State) (p : Packet) (c : Nat) (tag : Option DTag) : State :=
  let j : Joiner := .fabric p.id
  match State.writeRuns (State.deliverRun p c) j (s.wroteRuns j p.va p.data.length) s with
  | (.error e, s) => s.requestFailed p c 16 e
  | (.ok _, s) =>
    let s := match tag with
      | some g => s.counterAdd g.crew g.off p.data.length
      | none => s
    ((s.endEarly j).answer p 2 0 [] []).dropPacket p.id

/-- `WRITE_PACKET`. -/
def execWritePacket (n : Nat) (s : State) : Host.Outcome State Fault Refusal :=
  match s.readyPacket n 1 with
  | none => .next s
  | some p =>
    match s.allowed p pStore p.data.length with
    | none => .next (s.rejectPacket p 1 p.va)
    | some c =>
      match s.tagCounter p c with
      | some none => .next (s.rejectPacket p 3 p.va)
      | some (some g) => .next (s.deliverWrite p c (some g))
      | none => .next (s.deliverWrite p c none)

/-! ### Reads (R265) -/

/-- `READ_REQUEST`. -/
def execReadRequest (n : Nat) (s : State) : Host.Outcome State Fault Refusal :=
  match s.readyPacket n 3 with
  | none => .next s
  | some p =>
    match s.allowed p pLoad p.length with
    | none => .next (s.rejectPacket p 1 p.va)
    | some c =>
      let j : Joiner := .fabric n
      match State.readRuns (fun s => s.devRun c) j (s.earlyRuns j [(p.va, p.length)]) s with
      | (.error e, s) => .next (s.requestFailed p c 16 e)
      | (.ok l, s) =>
        let bs := arriveAt s.now l
        .next (((s.endEarly j).answer p 4 0 (runsOf (granuleStamps (p.length / 32 + 2) p.dalign bs)) (bs.map (fun b => b.1))).dropPacket p.id)

/-! ### Atomics (R265) -/

/-- The new value of a fabric atomic, or no write: operand words b and c, old value. -/
def fabricAtomic (op b c old : Nat) : Option Nat :=
  match op with
  | 0 => some ((old + b) % 2 ^ 64)
  | 1 => some (old ||| b)
  | 2 => some b
  | 3 => if old = b then some c else none
  | 4 => some (max old b)
  | _ => some (fmtF32.add rcRne (fmtF32.decode old) (fmtF32.decode (b % 2 ^ 32))).v

/-- `ATOMIC_REQUEST`. -/
def execAtomicRequest (n : Nat) (s : State) : Host.Outcome State Fault Refusal :=
  match s.readyPacket n 5 with
  | none => .next s
  | some p =>
    let w := atomWidth p.aop
    match s.allowed p pAtomic w with
    | none => .next (s.rejectPacket p 1 p.va)
    | some c =>
      if p.va % w ≠ 0 ∨ 5 < p.aop then .next (s.rejectPacket p 1 p.va)
      else
        match s.devMap c .atomic p.va w with
        | (.error e, s) => .next (s.requestFailed p c 16 e)
        | (.ok l, s) =>
          match s.segPoison l with
          | some pa => .next (s.requestFailed p c 16 (.poison pa))
          | none =>
            let pa := ((l.head?).map (fun g => g.pa)).getD 0
            let old := s.mem.readNat pa w
            let st := s.mem.stamp (pa / 32)
            let b := ofBytes (p.data.take 8)
            let d := ofBytes ((p.data.drop 8).take 8)
            let s : State := match fabricAtomic p.aop b d old with
              | none => s
              | some v => { s with mem := s.mem.store s.now pa (toBytes w v) ((p.stamps s.now).getD 0 sVacant) }
            .next ((s.answer p 6 0 [(1, st)] (toBytes 8 old)).dropPacket p.id)

/-! ### Egress records (R274) -/

/-- Bytes of an egress record into the ring of a kind-4 port; its granules take DATA at the arrival tick. -/
def State.ringWrite (c : Nat) : List (Nat × List (Byte × Stamp)) → State → Except EngFail Unit × State
  | [], s => (.ok (), s)
  | (va, l) :: rest, s =>
    match s.devWrite c va (l.map (fun b => b.1)) (fun _ => dataAt s.now) with
    | (.error e, s) => (.error e, s)
    | (.ok _, s) => State.ringWrite c rest s

/-- `EGRESS_RECORD`: bytes of a record arrive at a kind-4 port, in their order. They wait while the ring has no room. -/
def execEgressRecord (n : Nat) (s : State) : Host.Outcome State Fault Refusal :=
  match s.readyPacket n 7 with
  | none => .next s
  | some p =>
    let first := (s.fab.inPk.find? (fun k => k.kind == 7 && k.src == p.src && k.dcn == p.dcn && k.tag == p.tag)).map (fun k => k.id)
    if first ≠ some n then .next s
    else
      match s.localPort p.dcn p.src p.sport p.tag with
      | none => .next (s.rejectPacket p 1 0)
      | some (c, q) =>
        if 2 ^ q.log2 < (q.prod + 2 ^ 64 - q.cons) % 2 ^ 64 + p.data.length then .next s
        else
          let now := s.now
          let ws := ringSplit (q.desc.getD 0 0#64).toNat (2 ^ q.log2) q.prod (p.data.map (fun b => (b, dataAt now)))
          match State.ringWrite c ws s with
          | (.error e, s) => .next (s.requestFailed p c 16 e)
          | (.ok _, s) =>
            .next ((s.modPort c q.n (fun q => { q with prod := (q.prod + p.data.length) % 2 ^ 64 })).dropPacket n)

/-! ### Replies (R257, R258, R265, R404) -/

/-- The engine thread and its packet that a reply is for. -/
def State.replyTo (s : State) (p : Packet) : Option (Engine × Nat) :=
  (s.engines.find? (fun e => e.sent.any (fun k => e.xfer k == p.xfer))).bind (fun e =>
    (e.sent.find? (fun k => e.xfer k == p.xfer)).map (fun k => (e, k)))

/-- Packet k of an engine thread is done: n bytes are delivered. -/
def State.replied (s : State) (e k n : Nat) : State :=
  match s.engine e with
  | none => s
  | some e => (s.setEngine { e with done := e.done ++ [k], sent := e.sent.filter (fun x => x != k) }).localAdd e n

/-- Take a reply: the engine thread that it is for goes on; one that has abandoned its work takes nothing. -/
def State.takeReply (s : State) (p : Packet) (f : Engine → Nat → Piece → State) : State :=
  match s.replyTo p with
  | none => s.dropPacket p.id
  | some (e, k) =>
    if e.failed then s.dropPacket p.id
    else
      match (s.planOf e).rows.piece k with
      | none => s.dropPacket p.id
      | some q => f e k q

/-- `WRITE_ACKNOWLEDGEMENT`: the packet is written at the peer, and its local add is made. -/
def execWriteAcknowledgement (n : Nat) (s : State) : Host.Outcome State Fault Refusal :=
  match s.readyPacket n 2 with
  | none => .next s
  | some p => .next (s.takeReply p (fun e k q => (s.replied e.uid k q.n).dropPacket n))

/-- Write a run of the bytes that a read request has brought, for an engine thread whose packet begins at va0. -/
def State.dataRun (p : Packet) (e : Engine) (va0 : Nat) (s : State) (va n : Nat) : Except EngFail Unit × State :=
  let st := p.stamps s.now
  let l := numbered (fun i b => (b, st.getD ((va0 % 32 + i) / 32) sVacant)) p.data
  s.engPut e.ctx e.crew va ((l.drop (va - va0)).take n)

/-- `READ_DATA`: the bytes are written at the destination with their stamps, then the local add. -/
def execReadData (n : Nat) (s : State) : Host.Outcome State Fault Refusal :=
  match s.readyPacket n 4 with
  | none => .next s
  | some p =>
    .next (s.takeReply p (fun e k q =>
      if e.held.contains k then s
      else
        let va := (s.planOf e).rows.pieceVa q
        let j : Joiner := .fabric n
        match State.writeRuns (State.dataRun p e va) j (s.wroteRuns j va p.data.length) s with
        | (.ok _, s) => ((s.endEarly j).replied e.uid k q.n).dropPacket n
        | (.error f, s) => s.packetFailed e k f))

/-- `ATOMIC_RESULT`: the old value goes to D with its granule's stamp, the flags of `.fadd` with it; the local add is made. -/
def execAtomicResult (n : Nat) (s : State) : Host.Outcome State Fault Refusal :=
  match s.readyPacket n 6 with
  | none => .next s
  | some p =>
    .next (s.takeReply p (fun e k _ =>
      let old := ofBytes (p.data.take 8)
      let st := (p.stamps s.now).getD 0 sVacant
      let op := match e.kind with
        | .batom op => op
        | _ => 0
      let fl : BitVec 6 := if op = 5 then (fmtF32.add rcRne (fmtF32.decode old) (fmtF32.decode (e.word 2 % 2 ^ 32))).fl else 0#6
      let s := s.modLop (e.crew.getD 0) e.tid (e.lop.getD 0) (fun x =>
        { x with regs := x.regs.map (fun r => (r.1, { v := BitVec.ofNat 64 old, s := st })), fset := fl })
      (s.replied e.uid k (atomWidth op)).dropPacket n))

/-! ### Granules ahead of their packet (R304) -/

/-- A read request reads one granule ahead of the others. -/
def State.requestEarly (s : State) (n g : Nat) : State :=
  let j : Joiner := .fabric n
  match s.readyPacket n 3 with
  | none => s
  | some p =>
    match s.allowed p pLoad p.length with
    | none => s
    | some c =>
      if (s.earlyOf j g).isSome || !(decide (p.va / 32 ≤ g) && decide (32 * g < p.va + p.length)) then s
      else
        match s.devRun c (32 * g) 32 with
        | (.ok l, s) => { s with early := s.early ++ [(j, g, l)] }
        | (.error _, s1) => s.asking s1

/-- One granule of a run of n bytes at va is written ahead of the others by `wr`. -/
def State.wroteOne (s : State) (j : Joiner) (va n g : Nat) (wr : State → Nat → Nat → Except EngFail Unit × State) : State :=
  match (granuleRuns va n).find? (fun r => r.1 / 32 == g) with
  | none => s
  | some r =>
    if s.wrote.contains (j, g) then s
    else
      match wr s r.1 r.2 with
      | (.ok _, s) => { s with wrote := s.wrote ++ [(j, g)] }
      | (.error _, s1) => s.asking s1

/-- A received packet writes one granule ahead of the others: a write that would be performed, or the data of a read request. -/
def State.packetWroteIn (s : State) (n g : Nat) : State :=
  let j : Joiner := .fabric n
  match s.readyPacket n 1 with
  | some p =>
    match s.allowed p pStore p.data.length, s.tagCounter p ((s.allowed p pStore p.data.length).getD 0) with
    | none, _ => s
    | some _, some none => s
    | some c, _ => s.wroteOne j p.va p.data.length g (State.deliverRun p c)
  | none =>
    match (s.readyPacket n 4).bind (fun p => (s.replyTo p).map (fun r => (p, r))) with
    | none => s
    | some (p, e, k) =>
      match (s.planOf e).rows.piece k with
      | none => s
      | some q =>
        if e.failed || e.held.contains k then s
        else s.wroteOne j ((s.planOf e).rows.pieceVa q) p.data.length g (State.dataRun p e ((s.planOf e).rows.pieceVa q))

/-- The remote address of piece q of an engine thread. -/
def State.remoteVa (s : State) (e : Engine) (q : Piece) : Nat :=
  match e.kind with
  | .bget => (shapeSrc (e.word 4) e.remote.cursor).pieceVa q
  | _ => (s.planOf e).rows.pieceVa q

/-- `REJECT`: the issuing task takes a bulk fault with the SUB that the peer gives. A rejection under R264 is a violation, which this end
logs with the address in the peer's context (R344; log 13); a data error is the peer's to log. -/
def execReject (n : Nat) (s : State) : Host.Outcome State Fault Refusal :=
  match s.readyPacket n 8 with
  | none => .next s
  | some p =>
    .next (s.takeReply p (fun e _ q =>
      let s := if p.aop = 2 then s else s.logCtx e.ctx 4 0 (s.engineCore e) true (s.remoteVa e q)
      (s.engineFail e { code := 0x24, sub := p.aop, detail := s.remoteVa e q }).dropPacket n))

end Sys2Proof.Machine
end

