-- ==== Sys2Proof/Machine/Leases.lean ====
section
/-!
DEFINITION. The events of leases (spec/18_optical_fabric.md R380 to R385, R390): requests and grants, offers, revocation, release, and
a channel's passage through its states.
-/

namespace Sys2Proof.Machine

/-! ### The receiver of a request (R380, R381) -/

/-- Whether this package's receive fibre of plane j may take a channel from a sender: not its base plane, no channel there, a free
drop. -/
def State.dropFor (s : State) (p j : Nat) : Bool :=
  j != basePlane p s.devid && !s.fab.rxc.any (fun c => c.plane == j && c.peer == p) && s.freeDrop j

/-- Tune drops for a sender. -/
def State.tuneDrops (s : State) (p : Nat) (js : List Nat) : State :=
  { s with fab := { s.fab with rxc := s.fab.rxc ++ js.map (fun j => { plane := j, peer := p, st := .retune true }) } }

/-- `LEASE_REQUEST`: every plane of the set with a free drop is granted; a remainder is queued with its age. -/
def execLeaseRequest (peer : Nat) (planes : BitVec 64) (want tick : Nat) (s : State) : Host.Outcome State Fault Refusal :=
  if s.leasesSuspended ∨ s.fab.present.contains peer = false ∨ peer = s.devid then .next s
  else
    let js := ((planesOf planes).filter (s.dropFor peer)).take want
    let s := (s.tuneDrops peer js).tell peer (.leaseGrant peer (planeMask js))
    let left := want - js.length
    .next { s with fab :=
      if left = 0 then { s.fab with queued := s.fab.queued.filter (fun r => r.peer != peer) }
      else s.fab.enqueue { peer := peer, want := left, tick := tick } }

/-- Take one plane from a queued request: one whose remainder falls to 0 leaves the queue (R381). -/
def takeWant (l : List LeaseReq) (q : Nat) : List LeaseReq :=
  (l.map (fun r => if r.peer == q then { r with want := r.want - 1 } else r)).filter (fun r => r.want != 0)

/-- Offer a plane to senders in order; each that this end may serve accepts or declines by what its own slots allow, a free choice
here. -/
def State.offerPlane (j : Nat) : List Nat → State → State
  | [], s => s
  | q :: rest, s =>
    if s.dropFor q j = false then State.offerPlane j rest s
    else
      let s := s.tell q (.offer q j)
      let (k, s) := s.choose 2
      if k = 0 then State.offerPlane j rest s
      else
        let s := s.tuneDrops q [j]
        { s with fab := { s.fab with queued := takeWant s.fab.queued q } }

/-- `DROP_SLOT_OFFER`: a drop of a plane that has become free is offered, once: first to the request that a revocation freed it for, then
in queue order. -/
def execDropSlotOffer (plane : Nat) (s : State) : Host.Outcome State Fault Refusal :=
  if s.leasesSuspended ∨ 64 ≤ plane ∨ s.fab.freed.contains plane = false then .next s
  else
    let qs := s.fab.queued.map (fun r => r.peer)
    let first := (s.fab.promised.filter (fun p => p.1 == plane && qs.contains p.2)).map (fun p => p.2)
    let s : State := { s with fab := { s.fab with
      promised := s.fab.promised.filter (fun p => p.1 != plane), freed := s.fab.freed.erase plane } }
    .next (State.offerPlane plane (first ++ qs.filter (fun q => !first.contains q)) s)

/-! ### Revocation (R382) -/

/-- Leased channels from a sender. -/
def Fabric.leasedFrom (f : Fabric) (q : Nat) : List Nat := (f.rxc.filter (fun c => c.peer == q && c.st == .active)).map (fun c => c.plane)

/-- The sender with the most leased channels, ties to the higher `devid`. -/
def State.mostLeased (s : State) : Nat :=
  (List.range 64).foldl (fun h q => if (s.fab.leasedFrom h).length ≤ (s.fab.leasedFrom q).length then q else h) 0

/-- The holder's planes on which a starved sender could accept as far as this end sees, highest first. -/
def State.revocable (s : State) (h r : Nat) : List Nat :=
  sortBy (fun a b => decide (b ≤ a))
    ((s.fab.leasedFrom h).filter (fun j => j != basePlane r s.devid && !s.fab.rxc.any (fun c => c.plane == j && c.peer == r)))

/-- The age of a request after a revocation: its own, or the tick of the revocation. -/
def Fabric.requeue (f : Fabric) (h now : Nat) : Fabric :=
  match f.queued.find? (fun r => r.peer == h) with
  | some r => f.enqueue { r with want := r.want + 1 }
  | none => f.enqueue { peer := h, want := 1, tick := now }

/-- Revoke a holder's channel on a plane for a starved sender. -/
def State.revokeFor (s : State) (h r j : Nat) : State :=
  let f := (s.fab.setRx h j (.drain none)).requeue h s.now
  ({ s with fab := { f with revokedAt := some s.now, promised := f.promised ++ [(j, r)] } }).tell h (.revoke h j)

/-- `REVOCATION`: a request that has waited STARVE ticks makes the receiver revoke one channel of the sender that holds most, if it
holds two more; at most one in each tick. Whether the starved sender could accept on a plane hangs on its own slots too, which is a
free choice here. -/
def execRevocation (peer : Nat) (s : State) : Host.Outcome State Fault Refusal :=
  match s.fab.queued.find? (fun r => r.peer == peer) with
  | none => .next s
  | some r =>
    let h := s.mostLeased
    if s.leasesSuspended ∨ s.now < r.tick + s.fab.starve ∨ s.fab.revokedAt = some s.now
        ∨ (s.fab.leasedFrom h).length < (s.fab.leasedFrom peer).length + 2 then .next s
    else
      let js := s.revocable h peer
      let (k, s) := s.choose (js.length + 1)
      match js[k]? with
      | none => .next s
      | some j => .next (s.revokeFor h peer j)

/-! ### The sender (R380, R383) -/

/-- Take a plane of a grant: a reserved one, or one of an offer that this end accepts. -/
def State.takeGrant (q : Nat) (s : State) (j : Nat) : State :=
  let mine := s.fab.requests.any (fun r => r.peer == q)
  if s.fab.txc.any (fun c => c.peer == q && c.plane == j && c.st == .reserved) then
    { s with fab := { s.fab.setTx q j (.retune true) with requests := takeWant s.fab.requests q } }
  else if mine && s.eligible q j then
    { s with fab := { s.fab with
      txc := s.fab.txc ++ [{ plane := j, peer := q, st := .retune true }]
      requests := takeWant s.fab.requests q } }
  else s

/-- `LEASE_GRANT`: granted planes retune towards ACTIVE; every other reservation towards the peer is free. An offered plane arrives as
a grant of it (log 19). -/
def execLeaseGrant (peer : Nat) (planes : BitVec 64) (s : State) : Host.Outcome State Fault Refusal :=
  if s.leasesSuspended then .next s
  else
    let s := (planesOf planes).foldl (State.takeGrant peer) s
    .next (({ s with fab := { s.fab with txc := s.fab.txc.filter (fun c => !(c.peer == peer && c.st == .reserved)) } } : State).keepRequest peer)

/-- Channels to a peer that are ACTIVE or about to be, without reservations. -/
def Fabric.leasedTo (f : Fabric) (q : Nat) : Nat :=
  (f.txc.filter (fun c => c.peer == q && (c.st == .retune true || c.st == .active))).length

/-- Announce in a control flit that a channel joins or leaves its link from the flit after that one on (R385, R397). -/
def State.announceSet (q j : Nat) (join : Bool) (s : State) : State :=
  let n := (s.fab.linkOr q).txN + 1
  (s.modLink q (fun l => { l with changes := l.changes ++ [(j, join, n)] })).tell q (.setChange q j join n)

/-- A channel is to leave its link: it drains up to the number announced. -/
def State.announceLeave (q : Nat) (s : State) (j : Nat) : State :=
  State.announceSet q j false { s with fab := s.fab.setTx q j (.drain (some ((s.fab.linkOr q).txN + 1))) }

/-- `LEASE_RELEASE`: a sender that holds more than its target releases the excess, highest-numbered planes first; a target that is met
needs no request. -/
def execLeaseRelease (peer : Nat) (s : State) : Host.Outcome State Fault Refusal :=
  let t := s.leaseTarget peer
  let n := s.fab.leasedTo peer
  if s.leasesSuspended ∨ n < t then .next s
  else
    let s : State := { s with fab := { s.fab with
      requests := s.fab.requests.filter (fun r => r.peer != peer)
      txc := s.fab.txc.filter (fun c => !(c.peer == peer && c.st == .reserved)) } }
    let act := sortBy (fun a b => decide (b ≤ a)) ((s.fab.txc.filter (fun c => c.peer == peer && c.st == .active)).map (fun c => c.plane))
    .next ((act.take (n - t)).foldl (fun s j => (s.announceLeave peer j).tell peer (.release peer j)) s)

/-! ### Channels joining and leaving (R384, R385, R397) -/

/-- The state of a slot of one direction. -/
def Fabric.slot (f : Fabric) (q j : Nat) (tx : Bool) : Option SlotState :=
  (((if tx then f.txc else f.rxc).find? (fun c => c.peer == q && c.plane == j)).map (fun c => c.st))
/-- Set the state of a slot of one direction. -/
def Fabric.setSlot (f : Fabric) (q j : Nat) (tx : Bool) (st : SlotState) : Fabric := if tx then f.setTx q j st else f.setRx q j st
/-- A slot of one direction is FREE. -/
def Fabric.freeSlot (f : Fabric) (q j : Nat) (tx : Bool) : Fabric :=
  if tx then { f with txc := f.txc.filter (fun c => !(c.peer == q && c.plane == j)) }
  else { f with rxc := f.rxc.filter (fun c => !(c.peer == q && c.plane == j)) }

/-- The channel set of one direction. -/
def Link.planes (l : Link) (tx : Bool) : List Nat := if tx then l.planesTx else l.planesRx
/-- The next flit number of one direction. -/
def Link.number (l : Link) (tx : Bool) : Nat := if tx then l.txN else l.rxN
/-- Change the channel set of one direction. -/
def Link.setPlanes (l : Link) (tx : Bool) (js : List Nat) : Link := if tx then { l with planesTx := js } else { l with planesRx := js }

/-- A sender whose channel is revoked asks for it anew, aged from now (R382). -/
def State.lostChannel (s : State) (q : Nat) : State :=
  { s with fab := { s.fab with
    requests :=
      if s.fab.requests.any (fun r => r.peer == q) then s.fab.requests.map (fun r => if r.peer == q then { r with want := r.want + 1 } else r)
      else s.fab.requests ++ [{ peer := q, want := 1, tick := s.now }] } }

/-- The change of a sending set that was announced for number n, when the link has come to it. -/
def State.changeTx (s : State) (q j : Nat) (join : Bool) (n : Nat) : State :=
  let l := s.fab.linkOr q
  if l.changes.contains (j, join, n) ∧ n ≤ l.txN then s.modLink q Link.applyChanges
  else if join = false ∧ s.fab.slot q j true = some .active ∧ n = l.txN + 1 then (s.announceLeave q j).lostChannel q
  else s

/-- The change of a receiving set that the peer has announced for number n. -/
def State.changeRx (s : State) (q j : Nat) (join : Bool) (n : Nat) : State :=
  let l := s.fab.linkOr q
  if l.rxN ≠ n ∨ !(s.fab.slot q j false == some .active || (!join && (s.fab.slot q j false == some (.drain none)))) then s
  else
    let s := s.modLink q (fun l => { l with planesRx := withPlane l.planesRx j join })
    if join then s else { s with fab := s.fab.setRx q j (.drain (some n)) }

/-- `CHANNEL_SET_CHANGE`: the link comes to the agreed flit number, and a channel that is ACTIVE joins its set, or one that is ACTIVE or
draining leaves it. A sender's ACTIVE channel that no one has announced leaves because the receiver revokes it: the sender announces it
from its next flit on (R382, R385). -/
def execChannelSetChange (peer plane : Nat) (tx join : Bool) (n : Nat) (s : State) : Host.Outcome State Fault Refusal :=
  if (s.fab.linkOr peer).up = false then .next s
  else .next (if tx then s.changeTx peer plane join n else s.changeRx peer plane join n)

/-- `DRAIN_END`: the last flit before the announced number has been sent; the slot retunes. -/
def execDrainEnd (peer plane : Nat) (tx : Bool) (s : State) : Host.Outcome State Fault Refusal :=
  let l := s.fab.linkOr peer
  match s.fab.slot peer plane tx with
  | some (.drain (some n)) =>
    if l.number tx < n ∨ (l.planes tx).contains plane then .next s
    else .next { s with fab := s.fab.setSlot peer plane tx (.retune false) }
  | _ => .next s

/-- `RETUNE_SETTLED`: the slot becomes ACTIVE: after a grant, when the channel is announced, or in a guard for the slot to come. After a
drain it is FREE, and a drop is to be offered. -/
def execRetuneSettled (peer plane : Nat) (tx : Bool) (s : State) : Host.Outcome State Fault Refusal :=
  match s.fab.slot peer plane tx with
  | some (.retune true) =>
    let s : State := { s with fab := s.fab.setSlot peer plane tx .active }
    .next (if tx && !s.fab.rotating then (State.announceSet peer plane true s).keepRequest peer else s)
  | some (.retune false) =>
    let s : State := { s with fab := s.fab.freeSlot peer plane tx }
    .next (if tx then s.keepRequest peer else { s with fab := { s.fab with freed := s.fab.freed ++ [plane] } })
  | _ => .next s

end Sys2Proof.Machine
end

