-- ==== Sys2Proof/Machine/Rotation.lean ====
section
/-!
DEFINITION. The events of the rotation (spec/18_optical_fabric.md R389 to R394): confirmation of a table, guards, data windows.
-/

namespace Sys2Proof.Machine

/-- `TABLEID_CONFIRM`: a peer's table identity with its counts per slot, as this package's counts must meet them (R390). -/
def execTableidConfirm (peer : Nat) (tableId : BitVec 32) (txn rxn : List Nat) (s : State) : Host.Outcome State Fault Refusal :=
  let c : RotConfirm := { peer := peer, id := tableId, txn := txn, rxn := rxn }
  .next { s with fab := { s.fab with
    confirms := s.fab.confirms.filter (fun x => !(x.peer == peer && x.id == tableId)) ++ [c] } }

/-- Send every packet that the base channels carry. -/
def State.pumpAll (s : State) : State := (s.fab.links.map (fun l => l.peer)).foldl State.pumpPeer s

/-- Rotation ends: its slots are free, and leases resume towards the targets, aged from now (R394). -/
def State.endRotation (s : State) : State :=
  ({ s with fab := { s.fab with rot := none, rotPhase := .before, rotNext := none, txc := [], rxc := [], freed := [] } }).keepRequests.pumpAll

/-- The channels of slot k, by the counts n gives for each peer, as they are tuned in its guard (R388, R389). -/
def State.slotChans (s : State) (n : Nat → Nat) (tx : Bool) : List Chan :=
  ((List.range 64).filter (fun q => q != s.devid)).flatMap (fun q =>
    (if tx then slotPlanes s.devid q (n q) else slotPlanes q s.devid (n q)).map (fun j => { plane := j, peer := q, st := .retune true }))

/-- The guard of slot k begins: every leasable slot retunes to its tuning. -/
def State.beginGuard (s : State) (k : Nat) : State :=
  { s with fab := { s.fab with
    rotPhase := .guard k, txc := s.slotChans (s.fab.slotChannels k) true, rxc := s.slotChans (s.fab.slotFrom k) false } }

/-- Cycle 0 of a table begins at a time: no leased channel is left, requests are suspended (R390). -/
def State.beginTable (s : State) (t : RotTable) (at_ : Nat) : State :=
  let s : State := { s with fab := { s.fab with
    rot := some t, rotNext := none, rotBase := at_, requests := [], queued := [], promised := [], freed := []
    links := s.fab.links.map (fun (l : Link) => { l with planesTx := [], planesRx := [], changes := [] }) } }
  (s.beginGuard 0).pumpAll

/-- The leased channels drain for the cycle 0 that is near: the ACTIVE ones are announced to leave, reservations and requests go (R385,
R390). -/
def State.drainLeases (s : State) : State :=
  let act := s.fab.txc.filter (fun c => c.st == .active)
  let s : State := { s with fab := { s.fab with requests := [], txc := s.fab.txc.filter (fun c => c.st != .reserved) } }
  act.foldl (fun s c => (s.announceLeave c.peer c.plane).tell c.peer (.release c.peer c.plane)) s

/-- A new table at a time from which on it may begin: it begins once its START has come and every leased channel that this package sends
on is free; one without slots ends rotation. -/
def State.nextTable (s : State) (t : RotTable) (from_ : Nat) : State :=
  let begins := max t.begins from_
  if t.slots.isEmpty then s.endRotation
  else if s.fab.rotating = false ∧ s.fab.txc ≠ [] then (if s.leasesSuspended then s.drainLeases else s)
  else if s.nsHigh < begins then s
  else s.beginTable t begins

/-- Slots of the running table. -/
def Fabric.slots (f : Fabric) : Nat := (f.rot.map (fun t => t.slots.length)).getD 0

/-- The next cycle of the running table begins. -/
def State.nextCycle (s : State) : State :=
  ({ s with fab := { s.fab with rotBase := s.fab.guardAt s.fab.slots } } : State).beginGuard 0

/-- `GUARD_START`: the guard of the next slot begins, of a new cycle after the last slot, or of a new table; none before its time. -/
def execGuardStart (s : State) : Host.Outcome State Fault Refusal :=
  match s.fab.rotPhase, s.fab.rotNext with
  | .before, some t => .next (s.nextTable t 0)
  | .before, none => .next s
  | .between k, next =>
    if s.nsHigh < s.fab.guardAt (k + 1) then .next s
    else if k + 1 < s.fab.slots then .next (s.beginGuard (k + 1))
    else
      match next with
      | some t => .next (s.nextTable t (s.fab.guardAt s.fab.slots))
      | none => .next s.nextCycle
  | _, _ => .next s

/-- A data window on n channels to a peer: first the flits that are not acknowledged are sent again (R393), then those that wait, then
packets that fit (R391). -/
def State.openWindow (s : State) (q : Nat) : State :=
  let n := s.fab.windowChannels q
  let l := s.fab.linkOr q
  if n = 0 ∨ l.up = false then s
  else
    let t := match s.fab.rotPhase with
      | .window k => s.fab.windowAt k
      | _ => 0
    let t := t + flitTime (l.replay.length + l.waiting.length) n
    let s := State.sendWaiting q l.waiting.length (s.resend q l.replay)
    State.pumpWindow q n s.fab.outPk.length t { s with fab := s.fab.takenTo q t }

/-- The slot's channels are tuned. -/
def Fabric.tuned (f : Fabric) : Fabric :=
  { f with txc := f.txc.map (fun c => { c with st := .active }), rxc := f.rxc.map (fun c => { c with st := .active }) }

/-- `DATA_WINDOW_START`: a data window opens and the packets that fit start. -/
def execDataWindowStart (s : State) : Host.Outcome State Fault Refusal :=
  match s.fab.rotPhase with
  | .guard k =>
    if s.nsHigh < s.fab.windowAt k then .next s
    else
      let s : State := { s with fab := { s.fab.tuned with rotPhase := .window k, busy := [] } }
      .next ((List.range 64).foldl State.openWindow s)
  | _ => .next s

/-- `DATA_WINDOW_END`: the window ends; flits that are not acknowledged stay in the replay buffer. -/
def execDataWindowEnd (s : State) : Host.Outcome State Fault Refusal :=
  match s.fab.rotPhase with
  | .window k =>
    if s.nsHigh < s.fab.guardAt (k + 1) then .next s else .next { s with fab := { s.fab with rotPhase := .between k } }
  | _ => .next s

end Sys2Proof.Machine
end

