-- ==== Sys2Proof/Machine/Update.lean ====
section
/-!
DEFINITION. The update unit (spec/10_matrix_and_update.md R292 to R296): issue of `MNORM` and `MDRAIN`, and the step that the
unit takes for the next crew of its cluster.
-/

namespace Sys2Proof.Machine

/-! ### Operand words and issue (R292) -/

/-- BND, the norm bound, of an update word. -/
def uwBound (w : Word) : Nat := bits w.toNat 63 32
/-- ASC of an update word; the scope of an atomic changes only time (R236). -/
def uwScope (w : Word) : Nat := bits w.toNat 29 28
/-- MODE of an update word: true for the norm clip. -/
def uwClip (w : Word) : Bool := bit w.toNat 27
/-- AMX of an update word. -/
def uwAbsmax (w : Word) : Bool := bit w.toNat 26
/-- WFMT of an update word. -/
def uwFmt (w : Word) : Nat := bits w.toNat 25 24
/-- WPITCH of an update word. -/
def uwPitch (w : Word) : Nat := bits w.toNat 23 0
/-- Bytes of a weight. -/
def uwWidth (w : Word) : Nat := if uwFmt w = 0 then 4 else 2
/-- η, the step, of the decay and step word. -/
def stepOf (w : Word) : Nat := bits w.toNat 31 0
/-- λ, the weight decay, of the decay and step word. -/
def decayOf (w : Word) : Nat := bits w.toNat 63 32

/-- The register of an update group that breaks its layout or limits, in the order of R292. -/
def updateBad (steps tile upd : Word) (acc : Nat) : Option Word :=
  if bits tile.toNat 55 49 ≠ 0 ∨ bits tile.toNat 25 0 ≠ 0 then some tile
  else if bits upd.toNat 31 30 ≠ 0 ∨ uwFmt upd = 3 then some upd
  else if tileFits tile acc = false then some tile
  else if uwPitch upd % 32 ≠ 0 ∨ uwPitch upd < 128 * uwWidth upd then some upd
  else if (fmtF32.decode (decayOf steps)).isFin = false ∨ (fmtF32.decode (stepOf steps)).isFin = false then some steps
  else if uwClip upd ∧ ((fmtF32.decode (uwBound upd)).isFin = false
      ∨ FVal.lt (.fin false 0 0) (fmtF32.decode (uwBound upd)) = false) then some upd
  else none

/-- The runs of bytes of the weight rows, from the cursor. -/
def weightRuns (tile upd : Word) : List (Nat × Nat) :=
  listOf (wordRows tile) (fun m => (m * uwPitch upd, 128 * uwWidth upd))

/-- The checks a thread makes when it issues an update command: fields, weight capability, cell capability. -/
def State.updateCheck (s : State) (v : Thread) (a : RegField) (weightPerm cellPerm : Nat) : Option Trap :=
  let tile := (v.rdAt a 5).v
  let upd := (v.rdAt a 6).v
  match updateBad (v.rdAt a 4).v tile upd (s.accSize v) with
  | some w => some (matTrap w)
  | none => (s.groupCheck v a weightPerm 32 (weightRuns tile upd) false).or
      (s.groupCheck v (a + 2#7) cellPerm 16 [(0, 12)] false)

/-- Issue an update command whose permissions depend on what the thread reads. -/
def State.runUpdate (s : State) (i : Instr) (a : RegField) (weightPerm : Nat) (cellPerm : Thread → Nat) :
    Host.Outcome State Fault Refusal :=
  s.issueAll i (fun s t v =>
    if s.accSize v = 0 then s.noAllotment t
    else
      match s.updateCheck v a weightPerm (cellPerm v) with
      | some tr => s.takeTrap t tr
      | none => s.issueCommand t v i (listOf 7 (v.rdAt a)) [(0, v.capAt a), (1, v.capAt (a + 2#7))] none)

/-- `MNORM`. -/
def execMnorm (a : BitVec 7) (s : State) : Host.Outcome State Fault Refusal :=
  s.runUpdate (.mnorm a) a pLoad (fun _ => pAtomic)
/-- `MDRAIN`. -/
def execMdrain (a : BitVec 7) (z : BitVec 1) (s : State) : Host.Outcome State Fault Refusal :=
  s.runUpdate (.mdrain a z) a (pLoad ||| pStore) (fun v =>
    if uwAbsmax (v.rdAt a 6).v then pLoad ||| pAtomic else pLoad)

/-! ### What a tile's step works on -/

/-- Map the weight rows of a command. -/
def State.mapRows (c : Nat) (k : AccKind) : List (Nat × Nat) → State → Except EngFail (List (List Seg)) × State
  | [], s => (.ok [], s)
  | (va, n) :: rest, s =>
    match s.devMap c k va n with
    | (.error e, s) => (.error e, s)
    | (.ok l, s) =>
      match State.mapRows c k rest s with
      | (.ok ls, s) => (.ok (l :: ls), s)
      | r => r

/-- The F32 value of every weight of a row (exact). -/
def weightRow (upd : Word) (bs : List Byte) : List FVal :=
  (elemsOfBytes (uwWidth upd) 128 bs).map (fun x => (fmtOf (uwFmt upd)).decode x)

/-- The gradient of a tile element, unscaled by 2^-E (R293); exact, to be rounded with what it is added to. -/
def unscaled (x : Nat) (e : Int) : FVal :=
  match fmtF32.decode x with
  | .fin n m q => .fin n m (q - e)
  | y => y

/-- Row m of a tile, unscaled. -/
def gradRow (acc : Memory) (tile m : Nat) (e : Int) : List FVal :=
  listOf 128 (fun n => unscaled (acc.readNat (elemOff tile m n) 4) e)

/-- u of one row: round_rne_f32(g * 2^-E + λ * w), with flags (R293). -/
def updateRow (decay : Nat) (gs ws : List FVal) : List FRes :=
  List.zipWith (fun g w => fmtF32.fma rcRne (fmtF32.decode decay) w g) gs ws

/-- The norms of a tile: the sums over its rows in ascending order, with flags (R293). -/
def tileNorms (decay : Nat) (rows : List (List FVal × List FVal)) : FRes × FRes :=
  let add := fun (x : FRes) (y : FVal × BitVec 6) =>
    let r := fmtF32.add rcRne (fmtF32.decode x.v) y.1
    ({ v := r.v, fl := x.fl ||| y.2 ||| r.fl } : FRes)
  rows.foldl (fun q r =>
    let us := updateRow decay r.1 r.2
    let uv := us.map (fun u => fmtF32.decode u.v)
    let tw := add q.1 (dotTree r.2 r.2)
    let tu := add q.2 (dotTree uv uv)
    (tw, { tu with fl := tu.fl ||| fUnion (us.map FRes.fl) })) ({ v := 0, fl := 0#6 }, { v := 0, fl := 0#6 })

/-- One write of an update command: the new state and its flags (R293, R295, R237). -/
def State.cmdOut (s : State) : CmdOut → State × BitVec 6
  | .put pa bs st => ({ s with mem := s.mem.engineWrite s.now pa bs (fun _ => st) }, 0#6)
  | .add pa x st =>
    let r := fmtF32.add rcRne (fmtF32.decode (s.mem.readNat pa 4)) (fmtF32.decode x)
    ({ s with mem := s.mem.store s.now pa (toBytes 4 r.v) st }, r.fl)
  | .max pa x st =>
    let r := fmtF32.minmax true (s.mem.readNat pa 4) x
    ({ s with mem := s.mem.store s.now pa (toBytes 4 r.v) st }, r.fl)

/-- The writes of an update command that are still to be made, in order, their flags in MF. -/
def State.cmdOuts (s : State) (cr : Nat) (l : List CmdOut) : State :=
  l.foldl (fun s o => let r := s.cmdOut o; r.1.modCrew cr (fun c => c.addMf r.2)) s

/-- The tile of an update command is worked out: its writes are known, its flags in MF. -/
def State.workedOut (s : State) (c : Crew) (m : MCmd) (outs : List CmdOut) (zt : Bool) (fl : BitVec 6) : State :=
  s.modCrew c.uid (fun c =>
    { c.addMf fl with mq := c.mq.map (fun x => if x.id == m.id then { x with ready := true, outs := outs, zt := zt } else x) })

/-- Whether a tile that an update command works on is poisoned; its data error has a free address (log 27). -/
def State.tilePoison (s : State) (c : Crew) (m : MCmd) (h : Cohort) (tile : Word) : Option State :=
  if h.acc.anyPoison (wordTile tile) (512 * (wordRows tile + 1)) then
    let (x, s) := s.freeVal
    some (s.cmdFailed c m (.poison (x % 2 ^ 52)))
  else none

/-! ### `MNORM` (R293) -/

/-- Work out the tile of `MNORM`: its reads, then the two adds. -/
def State.workMnorm (s : State) (c : Crew) (m : MCmd) (h : Cohort) : State :=
  let tile := (m.words.getD 5 Reg.zero).v
  let upd := (m.words.getD 6 Reg.zero).v
  let off := wordTile tile
  let base := ((m.srcs.getD 0 (0, { lo := 0#64, hi := 0#64 })).2).cursor
  let cell := ((m.srcs.getD 1 (0, { lo := 0#64, hi := 0#64 })).2).cursor
  if !headerOk (tileHeader h.acc off) (wordRows tile) then s.failCommand c m 0 tile.toNat
  else
    match State.cmdReadAll c.ctx c.uid m.id ((weightRuns tile upd).map (fun r => (base + r.1, r.2))) s with
    | (.error e, s) => s.cmdFailed c m e
    | (.ok rows, s) =>
      match s.devMap c.ctx .atomic cell 8 with
      | (.error e, s) => s.cmdFailed c m e
      | (.ok cl, s) =>
        match s.segPoison cl, s.tilePoison c m h tile with
        | some pa, _ => s.cmdFailed c m (.poison pa)
        | none, some s => s
        | none, none =>
          let e := headerExp (tileHeader h.acc off)
          let (tw, tu) := tileNorms (decayOf (m.words.getD 4 Reg.zero).v)
            (numbered (fun i r => (gradRow h.acc off i e, weightRow upd r.1)) rows)
          let st := combineList (h.acc.stampsOf off (512 * (wordRows tile + 1)) ++ rows.flatMap (fun r => r.2))
          let pa := (cl.headD { pa := 0, n := 0, host := false }).pa
          s.workedOut c m [.add pa tw.v st, .add (pa + 4) tu.v st] false (tw.fl ||| tu.fl)

/-! ### `MDRAIN` (R294, R295) -/

/-- Whether a cell's value stops the drain: a NaN, an infinity, or below -0. -/
def cellBad (x : Nat) : Bool :=
  match fmtF32.decode x with
  | .fin neg m _ => neg && m != 0
  | _ => true

/-- Whether a cell's value is above zero. -/
def cellPos (x : Nat) : Bool := FVal.lt (.fin false 0 0) (fmtF32.decode x)

/-- The step factor f, with flags (R294). -/
def stepFactor (clip : Bool) (bound eta wn2 un2 : Nat) : FRes :=
  if clip then
    if cellPos un2 then
      let q := fmtF32.rsq rcRne (fmtF32.decode un2)
      let c := fmtF32.mul rcRne (fmtF32.decode bound) (fmtF32.decode q.v)
      if FVal.lt (fmtF32.decode c.v) (.fin false 1 0) then
        let r := fmtF32.mul rcRne (fmtF32.decode eta) (fmtF32.decode c.v)
        { v := r.v, fl := q.fl ||| c.fl ||| r.fl }
      else { v := eta, fl := q.fl ||| c.fl }
    else { v := eta, fl := 0#6 }
  else if cellPos wn2 ∧ cellPos un2 then
    let p := fmtF32.sqrt rcRne (fmtF32.decode wn2)
    let x := fmtF32.mul rcRne (fmtF32.decode eta) (fmtF32.decode p.v)
    let q := fmtF32.rsq rcRne (fmtF32.decode un2)
    let r := fmtF32.mul rcRne (fmtF32.decode x.v) (fmtF32.decode q.v)
    { v := r.v, fl := p.fl ||| x.fl ||| q.fl ||| r.fl }
  else { v := eta, fl := 0#6 }

/-- The new weights of row m: w - f * u, rounded once to the weights' format (R294). -/
def drainRow (upd : Word) (fpmode : BitVec 4) (phase f decay m : Nat) (gs ws : List FVal) : List FRes :=
  let us := updateRow decay gs ws
  let out := fmtOf (uwFmt upd)
  numbered (fun n (p : FRes × FVal) =>
    let r := out.fma { mode := rmodeOf fpmode.toNat, ovn := fpmode.getLsbD 3, idx := (n + m) % 64 + phase }
      (fmtF32.decode f).neg (fmtF32.decode p.1.v) p.2
    { r with fl := r.fl ||| p.1.fl }) (us.zip ws)

/-- The greatest magnitude of the finite new weights, as an F32 pattern, and whether some weight is not finite (R295). -/
def drainAbsmax (upd : Word) (xs : List Nat) : Option Nat × Bool :=
  let vs := xs.map (fun x => (fmtOf (uwFmt upd)).decode x)
  let ms := (vs.filter FVal.isFin).map (fun v => (fmtF32.ofVal rcRne v).v % 2 ^ 31)
  (if ms.isEmpty then none else some (ms.foldl max 0), vs.any (fun v => !v.isFin))

/-- The weight granules of mapped rows, with their new bytes. -/
def granulePuts (l : List Seg) (bs : List Byte) (td : Stamp) : List CmdOut :=
  (numbered (fun i pa => CmdOut.put pa ((bs.drop (32 * i)).take 32) td)
    (l.flatMap (fun g => listOf (g.n / 32) (fun k => g.pa + 32 * k))))

/-- The absmax maximum of the new weights: none without AMX or without a finite weight (R295). -/
def drainMax (upd : Word) (pa : Nat) (td : Stamp) (xs : List Nat) : List CmdOut × BitVec 6 :=
  if uwAbsmax upd then
    let mx := drainAbsmax upd xs
    ((mx.1.map (fun x => CmdOut.max pa x td)).toList, fWhen mx.2 fNF)
  else ([], 0#6)

/-- Work out the tile of `MDRAIN`: the cells are read first (R294). -/
def State.workMdrain (s : State) (c : Crew) (m : MCmd) (h : Cohort) (zt : Bool) : State :=
  let tile := (m.words.getD 5 Reg.zero).v
  let upd := (m.words.getD 6 Reg.zero).v
  let steps := (m.words.getD 4 Reg.zero).v
  let off := wordTile tile
  let base := ((m.srcs.getD 0 (0, { lo := 0#64, hi := 0#64 })).2).cursor
  let cell := ((m.srcs.getD 1 (0, { lo := 0#64, hi := 0#64 })).2).cursor
  let runs := (weightRuns tile upd).map (fun r => (base + r.1, r.2))
  if !headerOk (tileHeader h.acc off) (wordRows tile) then s.failCommand c m 0 tile.toNat
  else
    match s.devMap c.ctx .load cell 8 with
    | (.error e, s) => s.cmdFailed c m e
    | (.ok cl, s) =>
      match s.segPoison cl with
      | some pa => s.cmdFailed c m (.poison pa)
      | none =>
        let wn2 := ofBytes ((s.segBytes cl).take 4)
        let un2 := ofBytes ((s.segBytes cl).drop 4)
        if cellBad wn2 || cellBad un2 then s.workedOut c m [] false fNV
        else
          match State.cmdReadAll c.ctx c.uid m.id runs s with
          | (.error e, s) => s.cmdFailed c m e
          | (.ok rows, s) =>
            match State.mapRows c.ctx .store runs s with
            | (.error e, s) => s.cmdFailed c m e
            | (.ok segs, s) =>
              match (if uwAbsmax upd then s.devMap c.ctx .atomic (cell + 8) 4 else (.ok [], s)) with
              | (.error e, s) => s.cmdFailed c m e
              | (.ok mx, s) =>
                match s.segPoison mx, s.tilePoison c m h tile with
                | some pa, _ => s.cmdFailed c m (.poison pa)
                | none, some s => s
                | none, none =>
                  let f := stepFactor (uwClip upd) (uwBound upd) (stepOf steps) wn2 un2
                  let e := headerExp (tileHeader h.acc off)
                  let new := numbered (fun i r => drainRow upd m.fpmode m.phase f.v (decayOf steps) i (gradRow h.acc off i e)
                    (weightRow upd r.1)) rows
                  let td := weightAt s.now
                  let puts := (segs.zip new).flatMap (fun p => granulePuts p.1 (p.2.flatMap (fun r => toBytes (uwWidth upd) r.v)) td)
                  let am := drainMax upd ((mx.headD { pa := 0, n := 0, host := false }).pa) td (new.flatMap (fun r => r.map FRes.v))
                  s.workedOut c m (puts ++ am.1) zt (f.fl ||| fUnion (new.flatMap (fun r => r.map FRes.fl)) ||| am.2)

/-! ### The steps of the unit (R279) -/

/-- Work out the tile of an update command. -/
def State.workOut (s : State) (c : Crew) (m : MCmd) : State :=
  match s.cohort c.cohort, m.instr with
  | some h, .mnorm _ => s.workMnorm c m h
  | some h, .mdrain _ z => s.workMdrain c m h (z == 1#1)
  | _, _ => s

/-- The command of a crew as it stands in its queue. -/
def State.command (s : State) (cr id : Nat) : Option MCmd := (s.crew cr).bind (fun c => c.mq.find? (fun x => x.id == id))

/-- The element rows of a tile become zero and VACANT, as `.zt` asks after the weights are written (R295). -/
def State.zeroTile (s : State) (c : Crew) (m : MCmd) : State :=
  let tile := (m.words.getD 5 Reg.zero).v
  match m.zt, s.cohort c.cohort with
  | true, some h =>
    s.setCohort { h with acc := h.acc.engineWrite s.now (wordTile tile + 512) (List.replicate (512 * wordRows tile) 0#8) (fun _ => sVacant) }
  | _, _ => s

/-- Make the writes of an update command that are left, and complete it; `MDRAIN` advances PHASE (R119, R294). -/
def State.finishUpdate (s : State) (c : Crew) (m : MCmd) : State :=
  ((s.cmdOuts c.uid m.outs).zeroTile c m).finishCommand c.uid m (fun x =>
    match m.instr with
    | .mdrain _ _ => { x with ditherInc := 1 }
    | _ => x)

/-- An update command on its tile: worked out, unless that is done, then written. -/
def State.doUpdate (s : State) (c : Crew) (m : MCmd) : State :=
  let s := if m.ready then s else s.workOut c m
  match s.command c.uid m.id with
  | some m => if m.ready then s.finishUpdate c m else s
  | none => s

/-- `UPDATE_STEP`: the update unit of a cluster processes the tile of the next crew's command (R279). -/
def execUpdateStep (cluster : Nat) (s : State) : Host.Outcome State Fault Refusal :=
  match nextServed (AList.get 0 cluster s.updNext) (s.served cluster true) with
  | none => .next s
  | some (c, m) => .next ({ s with updNext := AList.put 0 cluster (c.place + 1) s.updNext }.doUpdate c m)

/-! ### Granules ahead of their command (R304) -/

/-- The runs of bytes that a command reads. -/
def MCmd.reads (m : MCmd) : List (Nat × Nat) :=
  match m.instr with
  | .mload _ => m.srcs.flatMap (fun p => (loadRuns (m.words.getD 2 Reg.zero).v p.1).map (fun r => (p.2.cursor + r.1, r.2)))
  | .mstream _ => (streamRuns m).map (fun r => (Config.scratchWindow + r.1, r.2))
  | .mnorm _ | .mdrain _ _ =>
    let base := ((m.srcs.getD 0 (0, { lo := 0#64, hi := 0#64 })).2).cursor
    (weightRuns (m.words.getD 5 Reg.zero).v (m.words.getD 6 Reg.zero).v).map (fun r => (base + r.1, r.2))
  | _ => []

/-- The command at the head of a crew's queue that its unit may work on. -/
def State.headCommand (s : State) (cr id : Nat) : Option (Crew × MCmd) :=
  (s.crew cr).bind (fun c =>
    (s.served (clusterOf c.core) false ++ s.served (clusterOf c.core) true).find? (fun x => x.1.uid == cr && x.2.id == id))

/-- A command reads one granule ahead of the others. -/
def State.commandEarly (s : State) (cr id g : Nat) : State :=
  let j : Joiner := .command cr id
  match s.headCommand cr id with
  | none => s
  | some (c, m) =>
    if m.ready || (s.earlyOf j g).isSome || !m.reads.any (fun r => decide (r.1 / 32 ≤ g) && decide (32 * g < r.1 + r.2)) then s
    else
      match s.cmdRead c.ctx cr (32 * g) 32 with
      | (.ok (bs, st), s) => { s with early := s.early ++ [(j, g, bs.map (fun b => (b, st.head?)))] }
      | (.error _, s1) => s.asking s1

/-- An update command makes one of its writes, number k of those left, ahead of the others. -/
def State.commandWrote (s : State) (cr id k : Nat) : State :=
  match s.headCommand cr id with
  | none => s
  | some (c, m) =>
    if m.isUpdate = false then s
    else
      let s := if m.ready then s else s.workOut c m
      match (s.command cr id).bind (fun m => m.outs[k]?) with
      | none => s
      | some o =>
        (s.cmdOuts cr [o]).modCrew cr (fun c =>
          { c with mq := c.mq.map (fun x => if x.id == id then { x with outs := x.outs.take k ++ x.outs.drop (k + 1) } else x) })

end Sys2Proof.Machine
end

