-- ==== Sys2Proof/Machine/Cycle.lean ====
section
/-!
DEFINITION. What moves next (log 1): the issue of one partition (spec/01_machine_model.md R27), a debug step (R339), a sequencer's next
slot, an event, the end of a cycle (R35, R37), and the schedule that fills an empty agenda. The meaning of instructions is a
parameter `ex` here; `step` gives it `exec`.
-/

namespace Sys2Proof.Machine

/-- What one step answers. -/
abbrev Out := Host.Outcome State Fault Refusal

/-- Go on with a next state. -/
def Out.bind (o : Out) (f : State → Out) : Out :=
  match o with
  | .next s => f s
  | .fault r => .fault r
  | .refused r => .refused r

/-! ### Issue (R27) -/

/-- The names of the threads of a bundle. -/
def bundleKeys (b : List Ready) : List (Nat × Nat) := b.map (fun r => (r.crew, r.tid))

/-- Issue the next partition of a core. -/
def State.issueCore (ex : Instr → State → Out) (core : Nat) (s : State) : Out :=
  match s.nextPart core with
  | none => .next s
  | some part =>
    match s.pick core part with
    | (some (seed :: b, rs), s) =>
      match s.openBundle (bundleKeys (seed :: b)) seed.pc seed.rep seed.f with
      | .error s => .next (s.afterBundle core part (seed :: b) rs)
      | .ok (i, s) => (ex i s).bind (fun s => .next (s.afterBundle core part (seed :: b) rs))
    | (_, s) => .next { s with issuedNow := s.issuedNow ++ [(core, part)] }

/-- Issue the next partition of a core, its accesses left to take their places later (R219). -/
def State.issueCoreLate (ex : Instr → State → Out) (core : Nat) (s : State) : Out :=
  ({ s with issuing := .late }.issueCore ex core).bind (fun s => .next { s with issuing := .now })

/-- Issue the next partition of a core, its loads taken from a kept past of memory (R308). -/
def State.issueCorePast (ex : Instr → State → Out) (core n : Nat) (s : State) : Out :=
  ({ s with readPast := s.pasts[n]? }.issueCore ex core).bind (fun s => .next { s with readPast := none })

/-- Keep memory as a past that loads of the next 8,192 cycles may return (R308). -/
def State.keepPast (s : State) : State :=
  { s with pasts := s.pasts.filter (fun p => decide (s.cycle ≤ p.cycle + 8192)) ++ [{ cycle := s.cycle, mem := s.mem, hmem := s.hmem }] }

/-! ### The place of an access that had issued before (R219) -/

/-- A thread as it was before an issue, with what has completed of its earlier operations since. -/
def Thread.backTo (t : Thread) (before : Thread) : Thread :=
  let gone := before.lops.filter (fun o => !t.lops.any (fun x => x.id == o.id))
  let t' := gone.foldl Thread.completeOp before
  { t' with
    lops := t.lops.filter (fun o => before.lops.any (fun x => x.id == o.id))
    doneAt := t.doneAt
    st := if t.st = .stopped then .stopped else t'.st }

/-- A thread that went back to an access and trapped or parked there stays stopped when it was. -/
def Thread.stopAs (t : Thread) (u : Thread) : Thread :=
  if t.st = .stopped then
    match u.st with
    | .running => { u with st := .stopped, resume := .running }
    | .parked p => { u with st := .stopped, resume := .parked p }
    | _ => u
  else u

/-- Access l of thread t has been tried, which left the state s': it has its place, and the thread its result; or it waits for a line
still; or it trapped or parked, and the thread is back at it, with nothing after it issued (R202, R31). -/
def State.placed (s s' : State) (l : Late) (t : Thread) : State :=
  let s1 := { s' with issuing := s.issuing, bundle := [] }
  match s'.thread l.crew l.tid with
  | none => s1
  | some u =>
    if s'.issuing = .stalled then s1.setThread t
    else
      match (if (t.backTo l.before).lops.length < u.lops.length then u.lops.getLast? else none) with
      | some o =>
        { s1.setThread { t with lops := t.lops.map (fun x => if x.id == l.op then { o with id := x.id, flag := x.flag } else x) } with
          lates := s.lates.erase l }
      | none => { s1.setThread (t.stopAs u) with lates := s.lates.filter (fun k => !(k.crew == l.crew && k.tid == l.tid)) }

/-- The oldest access of a thread without a place takes it. -/
def State.placeNext (ex : Instr → State → Out) (cr tid : Nat) (s : State) : Out :=
  match s.lates.find? (fun l => l.crew == cr && l.tid == tid), s.thread cr tid with
  | some l, some t =>
    (ex l.instr { s.setThread (t.backTo l.before) with issuing := .place l, bundle := [(cr, tid)] }).bind
      (fun s' => .next (s.placed s' l t))
  | _, _ => .next { s with lates := s.lates.filter (fun l => !(l.crew == cr && l.tid == tid)) }

/-- Issue every partition that has not issued in this cycle. -/
def State.issueRest (ex : Instr → State → Out) : Nat → State → Out
  | 0, s => .next s
  | fuel + 1, s =>
    match s.nextCore with
    | none => .next s
    | some k => (s.issueCore ex k).bind (State.issueRest ex fuel)

/-- Whether the context of a crew is in a debug halt. -/
def State.inDebugHalt (s : State) (cr : Nat) : Bool := (((s.crew cr).bind (fun c => s.ctx c.ctx)).map (fun x => x.dhalt)).getD false

/-- A debug step (R339): the debug halt and the focus are judged as they stand when it moves. -/
def State.debugStep (ex : Instr → State → Out) (cr tid : Nat) (s : State) : Out :=
  let c := ((s.thread cr tid).map s.ctxOf).getD 0
  match (if s.inDebugHalt cr then s.pickStep cr tid else (none, s)) with
  | (some (seed :: b), s) =>
    let ks := bundleKeys (seed :: b)
    match (s.letGo ks).openBundle ks seed.pc seed.rep seed.f with
    | .error s => .next ((s.stopAgain ks).stepTaken c)
    | .ok (i, s) => (ex i s).bind (fun s => .next ((s.stopAgain ks).stepTaken c))
  | (_, s) => .next (s.stepRefused c)

/-! ### The end of a cycle (R35, R37) -/

/-- Whether a lane holds a rendezvous's timer: Parked up to the end of the cycle in which that ends, or Stopped (R35, R37). -/
def Thread.holdsTimer (t : Thread) (cycle : Nat) : Bool :=
  t.resumedAt == some cycle || (match t.st with
    | .parked _ => true
    | .stopped => true
    | .escalated => true
    | _ => false)

/-- Whether no lane of a rendezvous's mask is Parked or Stopped, and no debug halt holds the timers (R35, R338). -/
def State.timerRuns (s : State) (cr : Nat) (r : Rdv) : Bool :=
  !s.inDebugHalt cr && s.threads.all (fun t => !(t.crew == cr && t.team == r.team && r.mask.getLsbD t.lane && t.holdsTimer s.cycle))

/-- Dissolve the rendezvous of a crew whose timers have reached their limits, and advance the others. -/
def State.timeRdvs (s : State) (c : Crew) : State :=
  let late := fun (r : Rdv) => decide (r.limit ≤ r.timer)
  let s := (c.rdvs.filter late).foldl (fun s r =>
    match s.crew c.uid with
    | some c => s.stallRdv c r
    | none => s) s
  s.modCrew c.uid (fun c => { c with rdvs := c.rdvs.map (fun r => if s.timerRuns c.uid r then { r with timer := r.timer + 1 } else r) })

/-- One cycle less to sleep, from the cycle after the issue on. -/
def Thread.sleepOn (cycle : Nat) (t : Thread) : Thread :=
  match t.st with
  | .sleeping (n + 1) => if t.lastIssue == some cycle then t else { t with st := .sleeping n }
  | _ => t

/-- Whether a thread has left the Ready state, so that no one waits for it under R25. -/
def State.leftReady (s : State) (k : Nat × Nat) : Bool :=
  match s.thread k.1 k.2 with
  | some t => t.st != .running || t.readySince.isNone
  | none => true

/-- The writes to shared registers that are due by the next cycle land (R155, R330, R333). -/
def State.landWrites (s : State) : State :=
  let next := s.cycle + 1
  { s with
    crews := s.crews.map (fun (c : Crew) =>
      let r := settleWord next c.tvec c.pendTvec
      { c with tvec := r.1, pendTvec := r.2 })
    ctxs := s.ctxs.map (fun (x : Ctx) =>
      let r := settleWord next x.ctl x.pendCtl
      { x with ctl := r.1, pendCtl := r.2 })
    parts := s.parts.map (fun (p : Part) =>
      let r := settleWord next p.cpol p.pendPol
      { p with cpol := r.1, pendPol := r.2 })
    cores := s.cores.map (fun (e : CoreEntry) => { e with avail := e.next.getD e.avail, next := none }) }

/-- End the cycle: barriers and rendezvous, then stall timers, then what a new cycle brings. -/
def State.finishCycle (s : State) : State :=
  let s := s.settle
  let s := s.crews.foldl State.timeRdvs s
  let gone := (s.threads.flatMap (fun t => t.yieldFor)).filter s.leftReady
  let cycle := s.cycle
  let s := s.mapThreads (fun t => Thread.sleepOn cycle { t with yieldFor := t.yieldFor.filter (fun k => !gone.contains k) })
  let s := s.landWrites.sweepStops
  { s with
    cycle := s.cycle + 1, issuedNow := [], admits := []
    pasts := s.pasts.filter (fun p => decide (s.cycle < p.cycle + 8192)) }.beginOrders

/-- Every partition issues, then the cycle ends. -/
def State.endCycle (ex : Instr → State → Out) (s : State) : Out :=
  (State.issueRest ex (4 * s.usedCores.length) s).bind (fun s => .next s.finishCycle)

/-! ### The sequencer (R65 to R70) -/

/-- The next slot of a context's stream: a task is decoded and run, any other slot is accepted with its fault. -/
def State.sequence (ex : Instr → State → Out) (c : Nat) (s : State) : Out :=
  match s.ctx c with
  | none => .next s
  | some x =>
    if x.canAccept = false then .next s
    else
      match s.slotWords x with
      | (some w, s') =>
        match decodeSlot (w.getD 0 0#64) (w.getD 1 0#64) (w.getD 2 0#64) (w.getD 3 0#64) with
        | some i => ex i { s' with seqCtx := c }
        | none => execSlotAccept c s
      | _ => execSlotAccept c s

/-! ### Internal events -/

/-- The meaning of an internal event. Whether a tick of device time ends with this cycle is a free choice (log 1). -/
def State.runAuto (a : Auto) (s : State) : Out :=
  match a with
  | .matrixStep k => execMatrixStep k s
  | .updateStep k => execUpdateStep k s
  | .waitvReread cr tid => execWaitvReread cr tid s
  | .waitcReread cr tid => execWaitcReread cr tid s
  | .twaitvReread c t => execTwaitvReread c t s
  | .waitTimeout c t => execWaitTimeout c t s
  | .poolEntryTake c => execPoolEntryTake c s
  | .taskFault c => execTaskFault c s
  | .freshnessFault c => execFreshnessFault c s
  | .egressRelease c t => execEgressRelease c t s
  | .ingressConsume c t => execIngressConsume c t s
  | .unitStopAck c u => execUnitStopAck c u s
  | .contextRestore c => execContextRestore c s
  | .pagerRecordWrite c p => execPagerRecordWrite c p s
  | .deviceTick =>
    let (k, s) := s.choose 2
    if k = 0 then .next s else execDeviceTick s
  | .flipComplete page => execFlipComplete page s
  | .stackMailbox k => execStackMailbox k 0 s
  | .timeBeat k => execTimeBeat k s
  | .stackRead k tag => execStackRead k tag s
  | .stackWrite k tag => execStackWrite k tag s
  | .stackStampRead k tag => execStackStampRead k tag s
  | .stackResponse k tag => execStackResponse k tag s
  | .islandPowerUp i => execIslandPowerUp i s
  | .packet n =>
    match (s.inPacket n).map (fun p => p.kind) with
    | some 1 => execWritePacket n s
    | some 2 => execWriteAcknowledgement n s
    | some 3 => execReadRequest n s
    | some 4 => execReadData n s
    | some 5 => execAtomicRequest n s
    | some 6 => execAtomicResult n s
    | some 7 => execEgressRecord n s
    | some 8 => execReject n s
    | _ => .next s
  | .retuneSettled q j tx => execRetuneSettled q j tx s
  | .channelJoin q j tx =>
    let l := s.fab.linkOr q
    let n := if tx then ((l.changes.find? (fun c => c.1 == j && c.2.1)).map (fun c => c.2.2)).getD l.txN else l.rxN
    execChannelSetChange q j tx true n s
  | .drainEnd q j tx => execDrainEnd q j tx s
  | .leaseRelease q => execLeaseRelease q s
  | .revocation q => execRevocation q s
  | .dropSlotOffer j => execDropSlotOffer j s
  | .rekeyInterrupt q => execRekeyInterrupt q false s
  | .directionStall q => execDirectionStall q s
  | .timeStart => execTimeSync .start s
  | .rotation =>
    match s.fab.rotPhase with
    | .guard _ => execDataWindowStart s
    | .window _ => execDataWindowEnd s
    | _ => execGuardStart s

/-! ### The default schedule (log 1) -/

/-- What the threads have waiting: sleeps that are over, waits that read again, operations that may complete. -/
def State.threadActions (s : State) : List Action :=
  s.threads.flatMap (fun t =>
    let waits : List Action := match t.st with
      | .sleeping 0 => [.event (.sleepEnd t.crew t.tid)]
      | .held (.waitv _ _ _ _ _) => [.auto (.waitvReread t.crew t.tid)]
      | .held (.waitc _ _ _) => [.auto (.waitcReread t.crew t.tid)]
      | _ => []
    waits ++ (t.lops.filter (s.lopReady t)).map (fun o => .event (.longLatencyComplete t.crew t.tid o.id)))
    ++ s.lates.map (fun l => .place l.crew l.tid)
    ++ ((s.ctxs.filter (fun x => !x.owed.isEmpty)).map (fun x => .owed (some x.num)) ++ (if s.owed.isEmpty then [] else [.owed none]))

/-- The first packet of an engine thread that may be worked on, and its completion. -/
def State.engineActions (s : State) : List Action :=
  s.engines.flatMap (fun e =>
    let p : List Action := match (List.range (s.packetsOf e)).find? (s.packetReady e) with
      | some p => [.event (.enginePacket e.uid p)]
      | none => []
    p ++ [.event (.engineComplete e.uid)])

/-- The clusters whose crews have commands. -/
def State.clusterActions (s : State) : List Action :=
  let ks := ((s.crews.filter (fun c => !c.mq.isEmpty)).map (fun c => clusterOf c.core)).eraseDups
  ks.flatMap (fun k => [.auto (.matrixStep k), .auto (.updateStep k)])

/-- What a context has to do. -/
def Ctx.actions (x : Ctx) : List Action :=
  let waiting := x.window.filter (fun t => t.stat != .complete)
  let ts := waiting.flatMap (fun t =>
    ([.event (.taskIssue x.num t.uid), .auto (.twaitvReread x.num t.uid), .auto (.waitTimeout x.num t.uid),
      .auto (.ingressConsume x.num t.uid)] : List Action))
  let stops := ((x.stop.map (fun k => k.waiting)).getD []).map (fun u => Action.auto (.unitStopAck x.num u))
  let pagers := x.pagers.map (fun p => Action.auto (.pagerRecordWrite x.num p.p))
  [.auto (.taskFault x.num), .auto (.freshnessFault x.num), .event (.taskRetire x.num)]
    ++ (x.window.map (fun t => Action.auto (.egressRelease x.num t.uid))) ++ ts
    ++ [.auto (.poolEntryTake x.num), .accept x.num] ++ stops ++ pagers ++ [.auto (.contextRestore x.num)]

/-- What the host link, the stacks and the fabric have under way. -/
def State.linkActions (s : State) : List Action :=
  let stack := fun (n : Nat) (k : Stack) =>
    (k.reqs.map (fun r => Action.auto (match r.cmd with
      | 1 => .stackRead n r.tag
      | 2 => .stackWrite n r.tag
      | 3 => .stackStampRead n r.tag
      | 5 => .stackMailbox n
      | _ => .timeBeat n))) ++ k.resps.map (fun r => Action.auto (.stackResponse n r.tag))
  s.hl.flips.map (fun f => Action.auto (.flipComplete f.page)) ++ (numbered stack s.memStacks).flatMap id
    ++ s.fab.inPk.map (fun p => Action.auto (.packet p.id))
    ++ (numbered (fun n (i : Island) => if i.on then [] else [Action.auto (.islandPowerUp n)]) s.islands).flatMap id
    ++ [.auto .deviceTick]

/-- What the leases and the rotation have under way. -/
def State.fabricActions (s : State) : List Action :=
  let slot := fun (tx : Bool) (c : Chan) =>
    ([.auto (.retuneSettled c.peer c.plane tx), .auto (.channelJoin c.peer c.plane tx), .auto (.drainEnd c.peer c.plane tx)] : List Action)
  let offers := s.fab.freed.map (fun j => Action.auto (.dropSlotOffer j))
  let links := s.fab.links.flatMap (fun l =>
    ([.auto (.leaseRelease l.peer)] ++ (if l.ackDue then [.idleFlit l.peer] else [])
      ++ (if 2 ^ 48 - 2 ^ 20 ≤ l.txN then [.auto (.rekeyInterrupt l.peer), .auto (.directionStall l.peer)] else []) : List Action))
  s.fab.txc.flatMap (slot true) ++ s.fab.rxc.flatMap (slot false) ++ links
    ++ s.fab.queued.map (fun r => Action.auto (.revocation r.peer)) ++ offers
    ++ (if s.fab.rot.isSome || s.fab.rotNext.isSome then [.auto .rotation] else [])
    ++ (if s.syncDue then [.auto .timeStart] else [])

/-- The schedule that fills an empty agenda: every event that the device's own units may raise, in one fixed order, then a cycle. Any
other order is as good: an agenda says which. -/
def State.defaultAgenda (s : State) : List Action :=
  s.threadActions ++ s.engineActions ++ s.clusterActions ++ s.ctxs.flatMap Ctx.actions
    ++ s.crews.map (fun c => .event (.crewRelease c.uid)) ++ (List.range 8).map (fun d => .event (.cohortAdmit d))
    ++ (s.cohorts.filter (fun h => h.started.isNone)).map (fun h => .event (.cohortStart h.uid)) ++ s.linkActions
    ++ s.fabricActions ++ [.endCycle]

/-- An agent reads one granule ahead of the rest of what it does (R304). -/
def State.readAhead (s : State) (j : Joiner) (g : Nat) : State :=
  match j with
  | .packet e p => s.packetEarly e p g
  | .command cr id => s.commandEarly cr id g
  | .fabric n => s.requestEarly n g
  | _ => s

/-- An agent writes one granule ahead of the rest of what it does (R304). -/
def State.writeAhead (s : State) (j : Joiner) (g : Nat) : State :=
  match j with
  | .packet e p => s.packetWrote e p g
  | .command cr id => s.commandWrote cr id g
  | .fabric n => s.packetWroteIn n g
  | _ => s

/-- Make one move. -/
def State.act (ex : Instr → State → Out) (a : Action) (s : State) : Out :=
  match a with
  | .issue core => s.issueCore ex core
  | .issueLate core => s.issueCoreLate ex core
  | .issuePast core n => s.issueCorePast ex core n
  | .keepPast => .next s.keepPast
  | .place cr tid => s.placeNext ex cr tid
  | .owed c => .next (s.payOwed c)
  | .early j g => .next (s.readAhead j g)
  | .wrote j g => .next (s.writeAhead j g)
  | .debugStep cr tid => s.debugStep ex cr tid
  | .idleFlit q => .next (s.sendIdle q)
  | .accept c => s.sequence ex c
  | .event i => ex i s
  | .auto a => s.runAuto a
  | .stackSend n r => .next (s.modStack n (fun k => k.send r))
  | .endCycle => s.endCycle ex

/-- One step: the first move of the agenda; an empty agenda is filled first. The host's answers that the move has used are spent. -/
def State.stepWith (ex : Instr → State → Out) (s : State) : Out :=
  match (if s.agenda.isEmpty then s.defaultAgenda else s.agenda) with
  | a :: rest => (State.act ex a { s with agenda := rest }).bind (fun s => .next s.spendLines)
  | [] => .next s

end Sys2Proof.Machine
end

