-- ==== Sys2Proof/Machine/Probe.lean ====
section
/-!
DEFINITION. A machine that is about to issue a given instruction: what `State.withFetchWord` sets (log 20). The device runs a
kernel only once a context, its tables, a launch and a crew stand; all of that is placed here, around one clause that holds the word.
-/

namespace Sys2Proof.Machine

/-- The slots of a clause for an instruction of at most two words: an L form with its second word, a `REP` before a `NOP` (R140). -/
def probeSlots (w n : BitVec 32) : List (BitVec 32) :=
  if isLongForm (unpack w).op then [w, n] else if opOf w = 0x0C then [w, 0#32] else [w]

/-- A clause header that waits for nothing and sets no flag (R139). -/
def probeHeader (slots : Nat) : Nat := 15 * 2 ^ 23 + 15 * 2 ^ 19 + (slots - 1)

/-- The address of the clause, virtual and physical. -/
def probeCode : Nat := 0x40000

/-- The clause as bytes. -/
def probeBytes (nbits w : Nat) : List Byte :=
  let bs := tableBytes nbits w
  let sl := probeSlots (BitVec.ofNat 32 (ofBytes (bs.take 4))) (BitVec.ofNat 32 (ofBytes (bs.drop 4)))
  toBytes 4 (probeHeader sl.length) ++ sl.flatMap (fun x => toBytes 4 x.toNat)

/-- The memory of the machine: a table root, a node whose leaf maps the lowest GiB to itself (R360, R361), the clause. -/
def Memory.probe (m : Memory) (nbits w : Nat) : Memory :=
  let put := fun (m : Memory) (a : Nat) (bs : List Byte) =>
    (granules a bs.length).foldl (fun m g => m.putPoison g false) (m.putBytes a bs)
  put (put (put m 0x10000 (toBytes 8 0x20001)) 0x20000 (toBytes 8 0x62)) probeCode (probeBytes nbits w)

/-- The launch of the kernel: its code capability stands at the clause, over the lowest MiB, with LOAD and EXECUTE. -/
def probeLaunch : Launch :=
  { code := { lo := BitVec.ofNat 64 (probeCode * 256 + 5), hi := BitVec.ofNat 64 0xFF }
    args := { lo := 0#64, hi := 0#64 }, regs := 256, threads := 32, crews := 1, cohorts := 1, prio := 0, acc := 0, scr := 0,
    imm := false, replay := 0, stagger := 0, nreg := 0 }

/-- Context 0, with PRIV, and the launch in its window. -/
def probeCtx (cycle t : Nat) : Ctx :=
  let x := { ctxOfDesc 0 0 cycle (List.replicate 16 0#64) with priv := true, root := 0x10000 }
  { x with window := [{ x.newTask t 0x03 (slotOperands 0#64 0#64 0#64 0#64) with stat := .issued, launch := some probeLaunch }] }

/-- The machine whose next step fetches and issues the word: one thread of one crew on core 0. -/
def State.placeWord (s : State) (nbits w : Nat) : State :=
  let u := s.nextUid
  { s with
    mem := s.mem.probe nbits w
    parts := modifyAt (fun (p : Part) => { p with win := [(0#64, BitVec.ofNat 64 s.capacity)] }) 0 s.parts
    hl := { s.hl with biasSet := false, flips := [] }
    tlb := [], engines := []
    ctxs := [probeCtx s.cycle u]
    cohorts := [{ uid := u + 1, ctx := 0, task := u, cohortid := 0, die := 0, cluster := 0, ncrew := 1, acc := Memory.empty, accBytes := 0,
                  admitted := 0, started := some 0, saved := false }]
    crews := [Crew.start (u + 2) 0 u (u + 1) 0 0 0 probeLaunch 0#64]
    threads := [Thread.start 0 (u + 2) 0 256 probeLaunch.code probeLaunch.args]
    nextUid := u + 3, bundle := [], agenda := [.issue 0], issuedNow := [(0, 1), (0, 2), (0, 3)] }

end Sys2Proof.Machine
end

