-- ==== Sys2Proof/Machine/Sync.lean ====
section
/-!
DEFINITION. Crew barriers and scope-group barriers (spec/07_control_and_crosslane.md R210 to R214). Arrivals are applied at
issue and released at the end of the cycle; a barrier that released in this cycle takes no second arrival (R214).
-/

namespace Sys2Proof.Machine

/-- Crew barrier k of a thread's crew. -/
def State.barOf (s : State) (t : Thread) (k : Nat) : CrewBar :=
  ((s.crew t.crew).map (fun c => c.bars.getD k { gen := 0#32, arrived := [], released := none })).getD
    { gen := 0#32, arrived := [], released := none }

/-- Whether a thread has arrived at a barrier in the generation of this cycle (R210, R214). -/
def CrewBar.overruns (b : CrewBar) (cycle tid : Nat) : Bool := b.arrived.contains tid || b.released == some cycle

/-- Record a thread at crew barrier k. -/
def State.arriveAt (s : State) (t : Thread) (k : Nat) : State :=
  s.modCrew t.crew (fun c => { c with bars := modifyAt (fun b => { b with arrived := b.arrived ++ [t.tid] }) k c.bars })

/-- A barrier-overrun trap. -/
def overrunTrap (k : Nat) : Trap := { code := 0x0A, detail := k }

/-- `ARRIVE`: D receives the generation. -/
def execArrive (d : BitVec 7) (k : BitVec 4) (s : State) : Host.Outcome State Fault Refusal :=
  s.issueThen (.arrive d k) (fun s t v =>
    let b := s.barOf t k.toNat
    if b.overruns s.cycle t.tid then s.takeTrap t (overrunTrap k.toNat)
    else (s.arriveAt t k.toNat).issueF t 1
      { due := 0, regs := s.regOut v d (b.gen.setWidth 64) sTimeless, tags := v.tagOut d }) State.settle

/-- `AWAIT`: holds while the generation equals A[31:0]. -/
def execAwait (a : BitVec 7) (k : BitVec 4) (s : State) : Host.Outcome State Fault Refusal :=
  s.issueThen (.await a k) (fun s t v =>
    let token := (v.val a).setWidth 32
    if (s.barOf t k.toNat).gen = token then s.issueH t (.await k.toNat token) else s.setThread (t.advance s.cycle 1)) State.settle

/-- `BAR`: arrive, then await that generation. -/
def execBar (k : BitVec 4) (s : State) : Host.Outcome State Fault Refusal :=
  s.issueThen (.bar k) (fun s t _ =>
    let b := s.barOf t k.toNat
    if b.overruns s.cycle t.tid then s.takeTrap t (overrunTrap k.toNat)
    else (s.arriveAt t k.toNat).issueH t (.bar k.toNat b.gen)) State.settle

/-- The cores of a scope group, none when nothing wrote it (R106, R212). -/
def Ctx.groupCores (x : Ctx) (g : Nat) : List Nat := ((x.groups.find? (fun p => p.1 == g)).map (fun p => p.2)).getD []

/-- The barrier of a group within a launch; one that no thread has used has generation 0. -/
def Ctx.sbarOf (x : Ctx) (task g : Nat) : SBar :=
  (x.sbars.find? (fun b => b.task == task && b.group == g)).getD
    { task := task, group := g, gen := 0, arrived := [], released := none }

/-- Write a group's barrier. -/
def Ctx.putSbar (x : Ctx) (b : SBar) : Ctx :=
  if x.sbars.any (fun y => y.task == b.task && y.group == b.group) then
    { x with sbars := x.sbars.map (fun y => if y.task == b.task && y.group == b.group then b else y) }
  else { x with sbars := x.sbars ++ [b] }

/-- `SBAR`. -/
def execSbar (k : BitVec 5) (s : State) : Host.Outcome State Fault Refusal :=
  s.issueThen (.sbar k) (fun s t _ =>
    match s.ctx (s.ctxOf t) with
    | none => s
    | some x =>
      if !(x.groupCores k.toNat).contains (s.coreOf t) then s.takeTrap t { code := 0x0B, detail := k.toNat }
      else
        let b := x.sbarOf (s.taskOf t) k.toNat
        if b.arrived.contains (t.crew, t.tid) || b.released == some s.cycle then s.takeTrap t (overrunTrap k.toNat)
        else
          (s.setCtx (x.putSbar { b with arrived := b.arrived ++ [(t.crew, t.tid)] })).issueH t (.sbar k.toNat b.gen)) State.settle

end Sys2Proof.Machine
end

