-- ==== Sys2Proof/Machine/Dispatch.lean ====
section
/-!
DEFINITION. From an instruction to its meaning: one arm for each constructor of `Instr`.
-/

namespace Sys2Proof.Machine

/-- The meaning of an instruction in a state. -/
def exec (i : Instr) (s : State) : Host.Outcome State Fault Refusal :=
  match i with
  | .bra o => Sys2Proof.Machine.execBra o s
  | .bz a o => Sys2Proof.Machine.execBz a o s
  | .bnz a o => Sys2Proof.Machine.execBnz a o s
  | .call o => Sys2Proof.Machine.execCall o s
  | .jmpr a => Sys2Proof.Machine.execJmpr a s
  | .cjoin k => Sys2Proof.Machine.execCjoin k s
  | .bmask a k => Sys2Proof.Machine.execBmask a k s
  | .cleave k => Sys2Proof.Machine.execCleave k s
  | .winb k => Sys2Proof.Machine.execWinb k s
  | .rep t k => Sys2Proof.Machine.execRep t k s
  | .trap k => Sys2Proof.Machine.execTrap k s
  | .bkpt k => Sys2Proof.Machine.execBkpt k s
  | .sleep a => Sys2Proof.Machine.execSleep a s
  | .add t d a b => Sys2Proof.Machine.execAdd t d a b s
  | .addi t d a k => Sys2Proof.Machine.execAddi t d a k s
  | .sub t d a b => Sys2Proof.Machine.execSub t d a b s
  | .mul t d a b => Sys2Proof.Machine.execMul t d a b s
  | .mulhs t d a b => Sys2Proof.Machine.execMulhs t d a b s
  | .mulhn t d a b => Sys2Proof.Machine.execMulhn t d a b s
  | .mad t d a b c => Sys2Proof.Machine.execMad t d a b c s
  | .mins t d a b => Sys2Proof.Machine.execMins t d a b s
  | .minn t d a b => Sys2Proof.Machine.execMinn t d a b s
  | .maxs t d a b => Sys2Proof.Machine.execMaxs t d a b s
  | .maxn t d a b => Sys2Proof.Machine.execMaxn t d a b s
  | .abs t d a => Sys2Proof.Machine.execAbs t d a s
  | .neg t d a => Sys2Proof.Machine.execNeg t d a s
  | .and d a b => Sys2Proof.Machine.execAnd d a b s
  | .or d a b => Sys2Proof.Machine.execOr d a b s
  | .xor d a b => Sys2Proof.Machine.execXor d a b s
  | .andn d a b => Sys2Proof.Machine.execAndn d a b s
  | .not d a => Sys2Proof.Machine.execNot d a s
  | .shl t d a b => Sys2Proof.Machine.execShl t d a b s
  | .shr t d a b => Sys2Proof.Machine.execShr t d a b s
  | .sra t d a b => Sys2Proof.Machine.execSra t d a b s
  | .shli t d a k => Sys2Proof.Machine.execShli t d a k s
  | .shri t d a k => Sys2Proof.Machine.execShri t d a k s
  | .srai t d a k => Sys2Proof.Machine.execSrai t d a k s
  | .rotl t d a b => Sys2Proof.Machine.execRotl t d a b s
  | .popc t d a => Sys2Proof.Machine.execPopc t d a s
  | .clz t d a => Sys2Proof.Machine.execClz t d a s
  | .brev t d a => Sys2Proof.Machine.execBrev t d a s
  | .bfx d a b => Sys2Proof.Machine.execBfx d a b s
  | .bfi d a b c => Sys2Proof.Machine.execBfi d a b c s
  | .cmpeq t d a b => Sys2Proof.Machine.execCmpeq t d a b s
  | .cmplts t d a b => Sys2Proof.Machine.execCmplts t d a b s
  | .cmpltn t d a b => Sys2Proof.Machine.execCmpltn t d a b s
  | .cmples t d a b => Sys2Proof.Machine.execCmples t d a b s
  | .cmplen t d a b => Sys2Proof.Machine.execCmplen t d a b s
  | .sel t d a b c => Sys2Proof.Machine.execSel t d a b c s
  | .mov d a => Sys2Proof.Machine.execMov d a s
  | .li d lit => Sys2Proof.Machine.execLi d lit s
  | .lih d a lit => Sys2Proof.Machine.execLih d a lit s
  | .lea d a b => Sys2Proof.Machine.execLea d a b s
  | .fadd t d a b => Sys2Proof.Machine.execFadd t d a b s
  | .fsub t d a b => Sys2Proof.Machine.execFsub t d a b s
  | .fmul t d a b => Sys2Proof.Machine.execFmul t d a b s
  | .ffma t d a b c => Sys2Proof.Machine.execFfma t d a b c s
  | .fmin t d a b => Sys2Proof.Machine.execFmin t d a b s
  | .fmax t d a b => Sys2Proof.Machine.execFmax t d a b s
  | .fabs t d a => Sys2Proof.Machine.execFabs t d a s
  | .fneg t d a => Sys2Proof.Machine.execFneg t d a s
  | .fcmpeq t d a b => Sys2Proof.Machine.execFcmpeq t d a b s
  | .fcmplt t d a b => Sys2Proof.Machine.execFcmplt t d a b s
  | .fcmple t d a b => Sys2Proof.Machine.execFcmple t d a b s
  | .fcmpun t d a b => Sys2Proof.Machine.execFcmpun t d a b s
  | .frcp t d a => Sys2Proof.Machine.execFrcp t d a s
  | .frsq t d a => Sys2Proof.Machine.execFrsq t d a s
  | .fsqrt t d a => Sys2Proof.Machine.execFsqrt t d a s
  | .fexp2 t d a => Sys2Proof.Machine.execFexp2 t d a s
  | .flog2 t d a => Sys2Proof.Machine.execFlog2 t d a s
  | .fsin t d a => Sys2Proof.Machine.execFsin t d a s
  | .fcos t d a => Sys2Proof.Machine.execFcos t d a s
  | .fscale t d a b => Sys2Proof.Machine.execFscale t d a b s
  | .fclass t d a => Sys2Proof.Machine.execFclass t d a s
  | .fdot t d a b => Sys2Proof.Machine.execFdot t d a b s
  | .fsum t d a => Sys2Proof.Machine.execFsum t d a s
  | .fcvt t d a k => Sys2Proof.Machine.execFcvt t d a k s
  | .fcvtam t d a k => Sys2Proof.Machine.execFcvtam t d a k s
  | .f2i t d a k => Sys2Proof.Machine.execF2i t d a k s
  | .i2f t d a k => Sys2Proof.Machine.execI2f t d a k s
  | .qpack t d a b => Sys2Proof.Machine.execQpack t d a b s
  | .qpackGs d a => Sys2Proof.Machine.execQpackGs d a s
  | .qpackBs d a b => Sys2Proof.Machine.execQpackBs d a b s
  | .qunpk t d a b => Sys2Proof.Machine.execQunpk t d a b s
  | .fpack t d a b => Sys2Proof.Machine.execFpack t d a b s
  | .funpk t d a => Sys2Proof.Machine.execFunpk t d a s
  | .shfl d a b => Sys2Proof.Machine.execShfl d a b s
  | .shfliIdx d a k => Sys2Proof.Machine.execShfliIdx d a k s
  | .shfliUp d a k => Sys2Proof.Machine.execShfliUp d a k s
  | .shfliDown d a k => Sys2Proof.Machine.execShfliDown d a k s
  | .shfliXor d a k => Sys2Proof.Machine.execShfliXor d a k s
  | .voteall d a => Sys2Proof.Machine.execVoteall d a s
  | .voteany d a => Sys2Proof.Machine.execVoteany d a s
  | .ballot d a => Sys2Proof.Machine.execBallot d a s
  | .matchA d a => Sys2Proof.Machine.execMatchA d a s
  | .scanadd t d a => Sys2Proof.Machine.execScanadd t d a s
  | .scanaddx t d a => Sys2Proof.Machine.execScanaddx t d a s
  | .redadd t d a => Sys2Proof.Machine.execRedadd t d a s
  | .redmaxs t d a => Sys2Proof.Machine.execRedmaxs t d a s
  | .redmaxn t d a => Sys2Proof.Machine.execRedmaxn t d a s
  | .redmins t d a => Sys2Proof.Machine.execRedmins t d a s
  | .redminn t d a => Sys2Proof.Machine.execRedminn t d a s
  | .redor t d a => Sys2Proof.Machine.execRedor t d a s
  | .fredadd t d a => Sys2Proof.Machine.execFredadd t d a s
  | .fscanadd t d a => Sys2Proof.Machine.execFscanadd t d a s
  | .elect d => Sys2Proof.Machine.execElect d s
  | .memb d => Sys2Proof.Machine.execMemb d s
  | .ld8 x d a o => Sys2Proof.Machine.execLd8 x d a o s
  | .ld16 x d a o => Sys2Proof.Machine.execLd16 x d a o s
  | .ld32 x d a o => Sys2Proof.Machine.execLd32 x d a o s
  | .ld64 x d a o => Sys2Proof.Machine.execLd64 x d a o s
  | .ld128 x d a o => Sys2Proof.Machine.execLd128 x d a o s
  | .ldx8 x d a o => Sys2Proof.Machine.execLdx8 x d a o s
  | .ldx16 x d a o => Sys2Proof.Machine.execLdx16 x d a o s
  | .ldx32 x d a o => Sys2Proof.Machine.execLdx32 x d a o s
  | .st8 d a o => Sys2Proof.Machine.execSt8 d a o s
  | .st16 d a o => Sys2Proof.Machine.execSt16 d a o s
  | .st32 d a o => Sys2Proof.Machine.execSt32 d a o s
  | .st64 d a o => Sys2Proof.Machine.execSt64 d a o s
  | .st128 d a o => Sys2Proof.Machine.execSt128 d a o s
  | .stg64 d a o => Sys2Proof.Machine.execStg64 d a o s
  | .stg128 d a o => Sys2Proof.Machine.execStg128 d a o s
  | .pref a o => Sys2Proof.Machine.execPref a o s
  | .lds8 x d a o => Sys2Proof.Machine.execLds8 x d a o s
  | .lds16 x d a o => Sys2Proof.Machine.execLds16 x d a o s
  | .lds32 x d a o => Sys2Proof.Machine.execLds32 x d a o s
  | .lds64 x d a o => Sys2Proof.Machine.execLds64 x d a o s
  | .lds128 x d a o => Sys2Proof.Machine.execLds128 x d a o s
  | .sts8 d a o => Sys2Proof.Machine.execSts8 d a o s
  | .sts16 d a o => Sys2Proof.Machine.execSts16 d a o s
  | .sts32 d a o => Sys2Proof.Machine.execSts32 d a o s
  | .sts64 d a o => Sys2Proof.Machine.execSts64 d a o s
  | .sts128 d a o => Sys2Proof.Machine.execSts128 d a o s
  | .atadd32 t d a b => Sys2Proof.Machine.execAtadd32 t d a b s
  | .atadd64 t d a b => Sys2Proof.Machine.execAtadd64 t d a b s
  | .atmaxs32 t d a b => Sys2Proof.Machine.execAtmaxs32 t d a b s
  | .atmaxn32 t d a b => Sys2Proof.Machine.execAtmaxn32 t d a b s
  | .atmins32 t d a b => Sys2Proof.Machine.execAtmins32 t d a b s
  | .atminn32 t d a b => Sys2Proof.Machine.execAtminn32 t d a b s
  | .ator64 t d a b => Sys2Proof.Machine.execAtor64 t d a b s
  | .atand64 t d a b => Sys2Proof.Machine.execAtand64 t d a b s
  | .atxor64 t d a b => Sys2Proof.Machine.execAtxor64 t d a b s
  | .atxch64 t d a b => Sys2Proof.Machine.execAtxch64 t d a b s
  | .atcas64 t d a b => Sys2Proof.Machine.execAtcas64 t d a b s
  | .fatadd32 t d a b => Sys2Proof.Machine.execFatadd32 t d a b s
  | .fatmax32 t d a b => Sys2Proof.Machine.execFatmax32 t d a b s
  | .waitv t d a b => Sys2Proof.Machine.execWaitv t d a b s
  | .capinc d a b => Sys2Proof.Machine.execCapinc d a b s
  | .capnrw d a b => Sys2Proof.Machine.execCapnrw d a b s
  | .capperm d a b => Sys2Proof.Machine.execCapperm d a b s
  | .capget d k => Sys2Proof.Machine.execCapget d k s
  | .capchk d a b => Sys2Proof.Machine.execCapchk d a b s
  | .capscr d a b => Sys2Proof.Machine.execCapscr d a b s
  | .capmov d a => Sys2Proof.Machine.execCapmov d a s
  | .bcopy a => Sys2Proof.Machine.execBcopy a s
  | .bfill a => Sys2Proof.Machine.execBfill a s
  | .bput a => Sys2Proof.Machine.execBput a s
  | .bget a => Sys2Proof.Machine.execBget a s
  | .batomAdd d a => Sys2Proof.Machine.execBatomAdd d a s
  | .batomOr d a => Sys2Proof.Machine.execBatomOr d a s
  | .batomXch d a => Sys2Proof.Machine.execBatomXch d a s
  | .batomCas d a => Sys2Proof.Machine.execBatomCas d a s
  | .batomMaxn d a => Sys2Proof.Machine.execBatomMaxn d a s
  | .batomFadd d a => Sys2Proof.Machine.execBatomFadd d a s
  | .actr d a b => Sys2Proof.Machine.execActr d a b s
  | .waitc a b => Sys2Proof.Machine.execWaitc a b s
  | .actrdBind a b => Sys2Proof.Machine.execActrdBind a b s
  | .actrdUnbind a b => Sys2Proof.Machine.execActrdUnbind a b s
  | .send d a k => Sys2Proof.Machine.execSend d a k s
  | .leaseq d k => Sys2Proof.Machine.execLeaseq d k s
  | .mload a => Sys2Proof.Machine.execMload a s
  | .mstream a => Sys2Proof.Machine.execMstream a s
  | .mzero a => Sys2Proof.Machine.execMzero a s
  | .mread t d a => Sys2Proof.Machine.execMread t d a s
  | .mscale a => Sys2Proof.Machine.execMscale a s
  | .mnorm a => Sys2Proof.Machine.execMnorm a s
  | .mdrain a z => Sys2Proof.Machine.execMdrain a z s
  | .mstat c d => Sys2Proof.Machine.execMstat c d s
  | .bar k => Sys2Proof.Machine.execBar k s
  | .sbar k => Sys2Proof.Machine.execSbar k s
  | .arrive d k => Sys2Proof.Machine.execArrive d k s
  | .await a k => Sys2Proof.Machine.execAwait a k s
  | .movs d k => Sys2Proof.Machine.execMovs d k s
  | .movsw a k => Sys2Proof.Machine.execMovsw a k s
  | .stampr d a => Sys2Proof.Machine.execStampr d a s
  | .agejoin d a b => Sys2Proof.Machine.execAgejoin d a b s
  | .age d a => Sys2Proof.Machine.execAge d a s
  | .agechk x a => Sys2Proof.Machine.execAgechk x a s
  | .pagedoneResume a b => Sys2Proof.Machine.execPagedoneResume a b s
  | .pagedoneMap a b => Sys2Proof.Machine.execPagedoneMap a b s
  | .pagedoneFail a b => Sys2Proof.Machine.execPagedoneFail a b s
  | .csrr t d k => Sys2Proof.Machine.execCsrr t d k s
  | .csrw t a k => Sys2Proof.Machine.execCsrw t a k s
  | .stampsetReg d a b => Sys2Proof.Machine.execStampsetReg d a b s
  | .stampsetGranule a b => Sys2Proof.Machine.execStampsetGranule a b s
  | .cmapw d a b => Sys2Proof.Machine.execCmapw d a b s
  | .tlbinv a b => Sys2Proof.Machine.execTlbinv a b s
  | .haltcHalt a b => Sys2Proof.Machine.execHaltcHalt a b s
  | .haltcResume a b => Sys2Proof.Machine.execHaltcResume a b s
  | .haltcDebugHalt a b => Sys2Proof.Machine.execHaltcDebugHalt a b s
  | .dbgstep a => Sys2Proof.Machine.execDbgstep a s
  | .tbuf sl => Sys2Proof.Machine.execTbuf sl s
  | .tdrop sl => Sys2Proof.Machine.execTdrop sl s
  | .tlaunch sl => Sys2Proof.Machine.execTlaunch sl s
  | .tcopy sl => Sys2Proof.Machine.execTcopy sl s
  | .tfill sl => Sys2Proof.Machine.execTfill sl s
  | .tstamp sl => Sys2Proof.Machine.execTstamp sl s
  | .tbr sl => Sys2Proof.Machine.execTbr sl s
  | .tbrc sl => Sys2Proof.Machine.execTbrc sl s
  | .tcall sl => Sys2Proof.Machine.execTcall sl s
  | .tretTask sl => Sys2Proof.Machine.execTretTask sl s
  | .twaitv sl => Sys2Proof.Machine.execTwaitv sl s
  | .tsig sl => Sys2Proof.Machine.execTsig sl s
  | .tmark sl => Sys2Proof.Machine.execTmark sl s
  | .tfence sl => Sys2Proof.Machine.execTfence sl s
  | .tlease sl => Sys2Proof.Machine.execTlease sl s
  | .trotate sl => Sys2Proof.Machine.execTrotate sl s
  | .tport sl => Sys2Proof.Machine.execTport sl s
  | .tscope sl => Sys2Proof.Machine.execTscope sl s
  | .tsetk sl => Sys2Proof.Machine.execTsetk sl s
  | .taddk sl => Sys2Proof.Machine.execTaddk sl s
  | .tbrk sl => Sys2Proof.Machine.execTbrk sl s
  | .tpagerRegister sl => Sys2Proof.Machine.execTpagerRegister sl s
  | .tpagerUnregister sl => Sys2Proof.Machine.execTpagerUnregister sl s
  | .tctxCreate sl => Sys2Proof.Machine.execTctxCreate sl s
  | .tctxDestroy sl => Sys2Proof.Machine.execTctxDestroy sl s
  | .tctxHalt sl => Sys2Proof.Machine.execTctxHalt sl s
  | .tctxResume sl => Sys2Proof.Machine.execTctxResume sl s
  | .tctxSetPriority sl => Sys2Proof.Machine.execTctxSetPriority sl s
  | .tnop sl => Sys2Proof.Machine.execTnop sl s
  | .longLatencyComplete cr tid op => Sys2Proof.Machine.execLongLatencyComplete cr tid op s
  | .enginePacket e p => Sys2Proof.Machine.execEnginePacket e p s
  | .engineComplete e => Sys2Proof.Machine.execEngineComplete e s
  | .sleepEnd cr tid => Sys2Proof.Machine.execSleepEnd cr tid s
  | .slotAccept c => Sys2Proof.Machine.execSlotAccept c s
  | .taskIssue c t => Sys2Proof.Machine.execTaskIssue c t s
  | .taskRetire c => Sys2Proof.Machine.execTaskRetire c s
  | .cohortAdmit die => Sys2Proof.Machine.execCohortAdmit die s
  | .cohortStart h => Sys2Proof.Machine.execCohortStart h s
  | .crewRelease cr => Sys2Proof.Machine.execCrewRelease cr s
  | .rendezvousStall cr rid => Sys2Proof.Machine.execRendezvousStall cr rid s
  | .waitvReread cr tid => Sys2Proof.Machine.execWaitvReread cr tid s
  | .waitcReread cr tid => Sys2Proof.Machine.execWaitcReread cr tid s
  | .matrixStep cluster => Sys2Proof.Machine.execMatrixStep cluster s
  | .updateStep cluster => Sys2Proof.Machine.execUpdateStep cluster s
  | .twaitvReread c t => Sys2Proof.Machine.execTwaitvReread c t s
  | .waitTimeout c t => Sys2Proof.Machine.execWaitTimeout c t s
  | .poolEntryTake c => Sys2Proof.Machine.execPoolEntryTake c s
  | .taskFault c => Sys2Proof.Machine.execTaskFault c s
  | .freshnessFault c => Sys2Proof.Machine.execFreshnessFault c s
  | .egressRelease c t => Sys2Proof.Machine.execEgressRelease c t s
  | .ingressConsume c t => Sys2Proof.Machine.execIngressConsume c t s
  | .unitStopAck c u => Sys2Proof.Machine.execUnitStopAck c u s
  | .contextRestore c => Sys2Proof.Machine.execContextRestore c s
  | .islandPowerDown x => Sys2Proof.Machine.execIslandPowerDown x s
  | .islandPowerUp x => Sys2Proof.Machine.execIslandPowerUp x s
  | .pagerRecordWrite c p => Sys2Proof.Machine.execPagerRecordWrite c p s
  | .stampScanVisit l => Sys2Proof.Machine.execStampScanVisit l s
  | .eftPatrolVisit stack line => Sys2Proof.Machine.execEftPatrolVisit stack line s
  | .correctableError u pa => Sys2Proof.Machine.execCorrectableError u pa s
  | .uncorrectableDataError l u => Sys2Proof.Machine.execUncorrectableDataError l u s
  | .coreFault core => Sys2Proof.Machine.execCoreFault core s
  | .coreReset core => Sys2Proof.Machine.execCoreReset core s
  | .matrixUnitReset cluster => Sys2Proof.Machine.execMatrixUnitReset cluster s
  | .copyEngineReset e => Sys2Proof.Machine.execCopyEngineReset e s
  | .windowLogicReset die => Sys2Proof.Machine.execWindowLogicReset die s
  | .memrd pa => Sys2Proof.Machine.execMemrd pa s
  | .memrdCaching pa => Sys2Proof.Machine.execMemrdCaching pa s
  | .memwr pa data => Sys2Proof.Machine.execMemwr pa data s
  | .memwrptl pa data mask => Sys2Proof.Machine.execMemwrptl pa data mask s
  | .unsupportedRequest code pa => Sys2Proof.Machine.execUnsupportedRequest code pa s
  | .birsp pa data => Sys2Proof.Machine.execBirsp pa data s
  | .hostSnoop pa => Sys2Proof.Machine.execHostSnoop pa s
  | .hostLineFill pa data => Sys2Proof.Machine.execHostLineFill pa data s
  | .getCertificate off len => Sys2Proof.Machine.execGetCertificate off len s
  | .challenge nonce => Sys2Proof.Machine.execChallenge nonce s
  | .tickctlWrite v => Sys2Proof.Machine.execTickctlWrite v s
  | .ctx0 v => Sys2Proof.Machine.execCtx0 v s
  | .biascmdToHost page => Sys2Proof.Machine.execBiascmdToHost page s
  | .biascmdToDevice page => Sys2Proof.Machine.execBiascmdToDevice page s
  | .flipComplete page => Sys2Proof.Machine.execFlipComplete page s
  | .loadFirmwareImage stack => Sys2Proof.Machine.execLoadFirmwareImage stack s
  | .startFirmware stack => Sys2Proof.Machine.execStartFirmware stack s
  | .readFirmwareVersion stack => Sys2Proof.Machine.execReadFirmwareVersion stack s
  | .readCounts stack => Sys2Proof.Machine.execReadCounts stack s
  | .hostRegisterWrite off v => Sys2Proof.Machine.execHostRegisterWrite off v s
  | .stackRead stack tag => Sys2Proof.Machine.execStackRead stack tag s
  | .stackWrite stack tag => Sys2Proof.Machine.execStackWrite stack tag s
  | .stackStampRead stack tag => Sys2Proof.Machine.execStackStampRead stack tag s
  | .stackMailbox stack tag => Sys2Proof.Machine.execStackMailbox stack tag s
  | .timeBeat stack => Sys2Proof.Machine.execTimeBeat stack s
  | .stackResponse stack tag => Sys2Proof.Machine.execStackResponse stack tag s
  | .flitReceive peer flit => Sys2Proof.Machine.execFlitReceive peer flit s
  | .replayRequest peer n => Sys2Proof.Machine.execReplayRequest peer n s
  | .linkDown peer => Sys2Proof.Machine.execLinkDown peer s
  | .rekeyInterrupt peer rx => Sys2Proof.Machine.execRekeyInterrupt peer rx s
  | .directionStall peer => Sys2Proof.Machine.execDirectionStall peer s
  | .timeSync m => Sys2Proof.Machine.execTimeSync m s
  | .writePacket n => Sys2Proof.Machine.execWritePacket n s
  | .writeAcknowledgement n => Sys2Proof.Machine.execWriteAcknowledgement n s
  | .readRequest n => Sys2Proof.Machine.execReadRequest n s
  | .readData n => Sys2Proof.Machine.execReadData n s
  | .atomicRequest n => Sys2Proof.Machine.execAtomicRequest n s
  | .atomicResult n => Sys2Proof.Machine.execAtomicResult n s
  | .egressRecord n => Sys2Proof.Machine.execEgressRecord n s
  | .reject n => Sys2Proof.Machine.execReject n s
  | .leaseRequest peer planes want tick => Sys2Proof.Machine.execLeaseRequest peer planes want tick s
  | .leaseGrant peer planes => Sys2Proof.Machine.execLeaseGrant peer planes s
  | .dropSlotOffer plane => Sys2Proof.Machine.execDropSlotOffer plane s
  | .revocation peer => Sys2Proof.Machine.execRevocation peer s
  | .leaseRelease peer => Sys2Proof.Machine.execLeaseRelease peer s
  | .channelSetChange peer plane tx join n => Sys2Proof.Machine.execChannelSetChange peer plane tx join n s
  | .drainEnd peer plane tx => Sys2Proof.Machine.execDrainEnd peer plane tx s
  | .retuneSettled peer plane tx => Sys2Proof.Machine.execRetuneSettled peer plane tx s
  | .tableidConfirm peer tableId txn rxn => Sys2Proof.Machine.execTableidConfirm peer tableId txn rxn s
  | .unassignedOpcode w => Sys2Proof.Machine.execUnassignedOpcode w s
  | .linkUp peer => Sys2Proof.Machine.execLinkUp peer s
  | .unlistedOffsetRead off => Sys2Proof.Machine.execUnlistedOffsetRead off s
  | .nop => Sys2Proof.Machine.execNop s
  | .ret => Sys2Proof.Machine.execRet s
  | .exit => Sys2Proof.Machine.execExit s
  | .fence => Sys2Proof.Machine.execFence s
  | .mswap => Sys2Proof.Machine.execMswap s
  | .tret => Sys2Proof.Machine.execTret s
  | .deviceTick => Sys2Proof.Machine.execDeviceTick s
  | .hostLinkReset => Sys2Proof.Machine.execHostLinkReset s
  | .coldReset => Sys2Proof.Machine.execColdReset s
  | .getMeasurements => Sys2Proof.Machine.execGetMeasurements s
  | .bootstGo => Sys2Proof.Machine.execBootstGo s
  | .featctlLock => Sys2Proof.Machine.execFeatctlLock s
  | .lkgo => Sys2Proof.Machine.execLkgo s
  | .guardStart => Sys2Proof.Machine.execGuardStart s
  | .dataWindowStart => Sys2Proof.Machine.execDataWindowStart s
  | .dataWindowEnd => Sys2Proof.Machine.execDataWindowEnd s

end Sys2Proof.Machine
end

