-- ==== Sys2Proof/Machine/Step.lean ====
section
/-!
DEFINITION. One step of the machine (log 1), and the state whose next step runs a given instruction (log 20).
-/

namespace Sys2Proof.Machine

/-- One step: the next move of the agenda, with `exec` as the meaning of instructions. -/
def step (s : State) : Host.Outcome State Fault Refusal := s.stepWith exec

/-- The state with an instruction stored where the next step fetches it. -/
def State.withFetchWord (s : State) (nbits w : Nat) : State := s.placeWord nbits w

end Sys2Proof.Machine
end

