-- ==== Sys2Proof/Safety.lean ====
section
/-!
DEFINITION. What a statement may ask of a state or a run: the invariant of every store, runs that do not stop, and what one thread's
issue meets and leaves.
-/

namespace Sys2Proof.Machine

/-! ### Invariants -/

/-- Every store of the machine is in canonical form: device memory, host memory, each scratchpad, each accumulator allotment. -/
def State.memWf (s : State) : Bool :=
  s.mem.wf && s.hmem.wf && s.crews.all (fun c => c.scr.wf) && s.cohorts.all (fun h => h.acc.wf)

/-- A run of k steps that neither faults nor is refused. -/
def State.RunsFor : Nat → State → Prop
  | 0, _ => True
  | k + 1, s => ∃ t, step s = .next t ∧ State.RunsFor k t

/-! ### One thread's issue -/

/-- Thread t is the bundle of state s and reads v (its due results are in, the others old or new by a free choice, R24); s' is s with
that choice made. Its accesses take their places at the issue, no earlier one of its accesses is still without a place, and its loads
read memory as it is (log 51 gives the other choices). -/
structure Alone (s : State) (t v : Thread) (s' : State) : Prop where
  bundle : s.bundle = [(t.crew, t.tid)]
  here : s.thread t.crew t.tid = some t
  view : s.view (t.commit s.cycle) = (v, s')
  timely : s.issuing = .now ∧ s.hasLate t = false ∧ s.readPast = none

/-- Thread t is the bundle of state s as `Alone` says, and passes the checks that R154 makes before an instruction's own. -/
structure Solo (s : State) (i : Instr) (t v : Thread) (s' : State) : Prop extends Alone s t v s' where
  checks : s'.preCheck i v = none

/-- The state after a bundle: no thread of it is left to issue, and the table entries it looked up are noted no longer (R363). -/
def State.done (s : State) : State := { s with bundle := [], looks := [] }

/-! ### What an issue leaves (s' is the state with the choice of `Solo` made) -/

/-- Thread t alone has issued and is now u; nothing else has changed. -/
def State.afterThread (s' : State) (u : Thread) : State := (s'.setThread u).done

/-- Thread t, its due results in, transfers control: its next instruction is slot 0 of the clause at an address of 56 bits, and this
cycle is its last issue. -/
def Thread.goesTo (t : Thread) (cycle hdr : Nat) : Thread :=
  { t.commit cycle with pc := { hdr := hdr % 2 ^ 56, slot := 0 }, clause := none, lastIssue := some cycle, readySince := none }

/-- A class-F instruction has issued for thread t alone, with results p under way to it (R24). -/
def State.afterF (s' : State) (i : Instr) (t : Thread) (p : Pend) : State :=
  (s'.issueF (t.commit s'.cycle) (Instr.slots i) p).done

/-- As above, the results being register d with a value and a stamp; the tag bit of its pair is cleared (R45, R146). -/
def State.afterReg (s' : State) (i : Instr) (t v : Thread) (d : RegField) (w : Word) (st : Stamp) : State :=
  s'.afterF i t { due := 0, regs := s'.regOut v d w st, tags := v.tagOut d }

/-- A class-L instruction has issued for thread t alone, in a state s2 that its access left: `op` is in flight under a fresh number. -/
def State.afterL (s2 : State) (t : Thread) (op : LOp) : State :=
  ({ s2 with nextUid := s2.nextUid + 1 }.issueL (t.commit s2.cycle) { op with id := s2.nextUid }).done

/-- The stamp that D takes from register operands (R45). -/
def Thread.stampOf (v : Thread) (fs : List RegField) : Stamp := combineList (fs.map (fun f => (v.rd f).s))

/-- Instruction i writes d for thread t alone: element j of the result, of w bits, is f j modulo 2^w (R161). -/
def GivesElems (s s' : State) (i : Instr) (t v : Thread) (d : RegField) (st : Stamp) (w : Nat) (f : Nat → Nat) : Prop :=
  ∃ r : Word, Machine.exec i s = .next (s'.afterReg i t v d r st) ∧ ∀ j, j < 64 / w → elem w r.toNat j = f j % 2 ^ w

/-- Element j of n results of w bits; elements not written are zero (R161). -/
def resultElem (n w : Nat) (f : Nat → FRes) (j : Nat) : Nat := if j < n then (f j).v % 2 ^ w else 0

/-- The flags of n element results together (R161). -/
def resultFlags (n : Nat) (f : Nat → FRes) : BitVec 6 := fUnion (listOf n (fun j => (f j).fl))

/-- A class-F floating-point instruction writes n element results of w bits to d and raises their flags; `amax` is the magnitude it
offers to the register of that name (R124, R161, R163). -/
def GivesFloats (s s' : State) (i : Instr) (t v : Thread) (d : RegField) (srcs : List RegField) (n w : Nat) (f : Nat → FRes)
    (amax : Nat) : Prop :=
  ∃ r : Word, Machine.exec i s = .next (s'.afterF i t
      { due := 0, regs := s'.regOut v d r (v.stampOf srcs), tags := v.tagOut d, fset := resultFlags n f, amax := BitVec.ofNat 32 amax })
    ∧ ∀ j, j < 64 / w → elem w r.toNat j = resultElem n w f j

/-- A class-L floating-point instruction leaves in flight n element results of w bits for d, with their flags; it completes no earlier
than four cycles on, and then adds `inc` to `dither` (R118, R161, R163). -/
def GivesFloatsLater (s s' : State) (i : Instr) (t v : Thread) (d : RegField) (srcs : List RegField) (inc n w : Nat) (f : Nat → FRes) :
    Prop :=
  ∃ r : Word, Machine.exec i s = .next (s'.afterL t
      { id := 0, flag := none, entry := false, wait := .ready (s.cycle + 4), regs := s'.regOut v d r (v.stampOf srcs),
        tags := v.tagOut d, fset := resultFlags n f, ditherInc := inc })
    ∧ ∀ j, j < 64 / w → elem w r.toNat j = resultElem n w f j

/-- Thread t alone has joined a rendezvous of its crew c, or begun one, with contribution j: its flag has risen and it is Held (R32). -/
def State.afterJoin (s' : State) (i : Instr) (t v : Thread) (c : Crew) (j : RJoin) : State :=
  let u := t.commit s'.cycle
  let id := s'.nextUid
  ({ s' with nextUid := id + 1 }.setCrew
      (c.joinRdv i u.team u.pc v.xmask s'.cycle (s'.rzLimit u) id { j with flag := u.flagHere })).setThread
    { ((u.raise u.flagHere).advance s'.cycle 1) with st := .held (.rendezvous (c.rdvId u.team u.pc v.xmask id)) }

/-- The registers D, A and B of a cross-lane instruction; gz where it names none (R205 to R209). -/
def crossRegs : Instr → Option (RegField × RegField × RegField)
  | .shfl d a b => some (d, a, b)
  | .shfliIdx d a _ => some (d, a, 127#7)
  | .shfliUp d a _ => some (d, a, 127#7)
  | .shfliDown d a _ => some (d, a, 127#7)
  | .shfliXor d a _ => some (d, a, 127#7)
  | .voteall d a => some (d, a, 127#7)
  | .voteany d a => some (d, a, 127#7)
  | .ballot d a => some (d, a, 127#7)
  | .matchA d a => some (d, a, 127#7)
  | .scanadd _ d a => some (d, a, 127#7)
  | .scanaddx _ d a => some (d, a, 127#7)
  | .redadd _ d a => some (d, a, 127#7)
  | .redmaxs _ d a => some (d, a, 127#7)
  | .redmaxn _ d a => some (d, a, 127#7)
  | .redmins _ d a => some (d, a, 127#7)
  | .redminn _ d a => some (d, a, 127#7)
  | .redor _ d a => some (d, a, 127#7)
  | .fredadd _ d a => some (d, a, 127#7)
  | .fscanadd _ d a => some (d, a, 127#7)
  | .elect d => some (d, 127#7, 127#7)
  | .memb d => some (d, 127#7, 127#7)
  | _ => none

/-! ### Memory instructions by form -/

/-- A load through a capability: its selector, D, A, offset field and size in bytes (R220). -/
def capLoad : Instr → Option (BitVec 3 × RegField × RegField × RegField × Nat)
  | .ld8 n d a o => some (n, d, a, o, 1)
  | .ld16 n d a o => some (n, d, a, o, 2)
  | .ld32 n d a o => some (n, d, a, o, 4)
  | .ld64 n d a o => some (n, d, a, o, 8)
  | .ld128 n d a o => some (n, d, a, o, 16)
  | _ => none

/-- A transposed load, with the width of its elements in bytes (R226). -/
def columnLoad : Instr → Option (BitVec 3 × RegField × RegField × RegField × Nat)
  | .ldx8 n d a o => some (n, d, a, o, 1)
  | .ldx16 n d a o => some (n, d, a, o, 2)
  | .ldx32 n d a o => some (n, d, a, o, 4)
  | _ => none

/-- A store through a capability: D, A, offset field, size in bytes, and whether it replaces the granule's stamp (R221, R223). -/
def capStore : Instr → Option (RegField × RegField × RegField × Nat × Bool)
  | .st8 d a o => some (d, a, o, 1, false)
  | .st16 d a o => some (d, a, o, 2, false)
  | .st32 d a o => some (d, a, o, 4, false)
  | .st64 d a o => some (d, a, o, 8, false)
  | .st128 d a o => some (d, a, o, 16, false)
  | .stg64 d a o => some (d, a, o, 8, true)
  | .stg128 d a o => some (d, a, o, 16, true)
  | _ => none

/-- A scratchpad load (R229). -/
def scratchLoad : Instr → Option (BitVec 3 × RegField × RegField × RegField × Nat)
  | .lds8 n d a o => some (n, d, a, o, 1)
  | .lds16 n d a o => some (n, d, a, o, 2)
  | .lds32 n d a o => some (n, d, a, o, 4)
  | .lds64 n d a o => some (n, d, a, o, 8)
  | .lds128 n d a o => some (n, d, a, o, 16)
  | _ => none

/-- A scratchpad store (R229). -/
def scratchStore : Instr → Option (RegField × RegField × RegField × Nat)
  | .sts8 d a o => some (d, a, o, 1)
  | .sts16 d a o => some (d, a, o, 2)
  | .sts32 d a o => some (d, a, o, 4)
  | .sts64 d a o => some (d, a, o, 8)
  | .sts128 d a o => some (d, a, o, 16)
  | _ => none

/-- An atomic: D, A, its size in bytes, and what it does with the old value x and its operands, as R235 and R237 give it: the new
value with its data stamp, or no write, and the flags it raises. -/
def atomic (v : Thread) : Instr → Option (RegField × RegField × Nat × (Nat → AtomicOut))
  | .atadd32 _ d a b => some (d, a, 4, fun x => { write := some ((x + (v.rd b).v.toNat % 2 ^ 32) % 2 ^ 32, (v.rd b).s) })
  | .atadd64 _ d a b => some (d, a, 8, fun x => { write := some ((x + (v.rd b).v.toNat) % 2 ^ 64, (v.rd b).s) })
  | .atmaxs32 _ d a b =>
    some (d, a, 4, fun x => { write := some (ofSigned 32 (max (toSigned 32 x) (toSigned 32 (v.rd b).v.toNat)), (v.rd b).s) })
  | .atmins32 _ d a b =>
    some (d, a, 4, fun x => { write := some (ofSigned 32 (min (toSigned 32 x) (toSigned 32 (v.rd b).v.toNat)), (v.rd b).s) })
  | .atmaxn32 _ d a b => some (d, a, 4, fun x => { write := some (max x ((v.rd b).v.toNat % 2 ^ 32), (v.rd b).s) })
  | .atminn32 _ d a b => some (d, a, 4, fun x => { write := some (min x ((v.rd b).v.toNat % 2 ^ 32), (v.rd b).s) })
  | .ator64 _ d a b => some (d, a, 8, fun x => { write := some (x ||| (v.rd b).v.toNat, (v.rd b).s) })
  | .atand64 _ d a b => some (d, a, 8, fun x => { write := some (x &&& (v.rd b).v.toNat, (v.rd b).s) })
  | .atxor64 _ d a b => some (d, a, 8, fun x => { write := some (x ^^^ (v.rd b).v.toNat, (v.rd b).s) })
  | .atxch64 _ d a b => some (d, a, 8, fun _ => { write := some ((v.rd b).v.toNat, (v.rd b).s) })
  | .atcas64 _ d a b =>
    some (d, a, 8, fun x =>
      { write := if x = (v.rdAt b 0).v.toNat then some ((v.rdAt b 1).v.toNat, (v.rdAt b 1).s) else none })
  | .fatadd32 _ d a b => some (d, a, 4, fun x =>
      let r := fmtF32.add rcRne (fmtF32.decode x) (fmtF32.decode ((v.rd b).v.toNat % 2 ^ 32))
      { write := some (r.v, (v.rd b).s), fl := r.fl })
  | .fatmax32 _ d a b => some (d, a, 4, fun x =>
      let r := fmtF32.minmax true x ((v.rd b).v.toNat % 2 ^ 32)
      { write := some (r.v, (v.rd b).s), fl := r.fl })
  | _ => none

/-- The n bytes at va that thread t accesses are the n bytes at pa of device memory, or of host memory; s2 is the state in which the
access is made (R218, R362, R412). -/
def State.reaches (s : State) (t : Thread) (k : AccKind) (va n : Nat) (hostOk : Bool) (pa : Nat) (host : Bool) (s2 : State) : Prop :=
  s.reach (t.commit s.cycle) k va n hostOk = .ok (pa, host, s2)

/-! ### Capabilities -/

/-- A class-F instruction writes pair d for thread t alone, with a tag; the stamps are clamped (R62, R146). -/
def GivesPair (s s' : State) (i : Instr) (t v : Thread) (d : RegField) (lo hi : Reg) (tag : Bool) : Prop :=
  Machine.exec i s = .next (s'.afterF i t
    { due := 0
      regs := [(v.phys d, { lo with s := clampStamp s'.now lo.s }), (v.phys d + 1, { hi with s := clampStamp s'.now hi.s })]
      tags := [(v.phys d / 2, tag)] })

/-- Exponent e, at most 15, is the least whose units of 2^(12 + e) bytes cover [lo, hi) with at most 65,536 of them (R76, R247). -/
def LeastExponent (lo hi e : Nat) : Prop :=
  let units := fun (e : Nat) => (hi + 2 ^ (12 + e) - 1) / 2 ^ (12 + e) - lo / 2 ^ (12 + e)
  e ≤ 15 ∧ units e ≤ 65536 ∧ ∀ f, f < e → 65536 < units f

/-- The odd register of a capability over the cover of [lo, hi) in units of exponent e: BASE, E and M (R147, R247). -/
def rangeWord (lo hi e : Nat) : Word :=
  let l := 2 ^ (12 + e)
  BitVec.ofNat 64 (lo / l * l / 2 ^ 12 * 2 ^ 20 + e * 2 ^ 16 + ((hi + l - 1) / l - lo / l - 1))

/-! ### Bulk and egress instructions -/

/-- The bulk instructions: which checks its words, what its engine thread does, the first register of its copy group, the registers of
the group, and D where it names one (R251). -/
def bulkInstr : Instr → Option (BulkOp × EngineKind × RegField × Nat × Option RegField)
  | .bcopy a => some (.copy, .bcopy, a, 6, none)
  | .bfill a => some (.fill, .bfill, a, 6, none)
  | .bput a => some (.put, .bput, a, 7, none)
  | .bget a => some (.get, .bget, a, 7, none)
  | .batomAdd d a => some (.atom, .batom 0, a, 7, some d)
  | .batomOr d a => some (.atom, .batom 1, a, 7, some d)
  | .batomXch d a => some (.atom, .batom 2, a, 7, some d)
  | .batomCas d a => some (.atom, .batom 3, a, 7, some d)
  | .batomMaxn d a => some (.atom, .batom 4, a, 7, some d)
  | .batomFadd d a => some (.atom, .batom 5, a, 7, some d)
  | _ => none

/-- Thread t alone has issued an instruction that creates an engine thread, and its operation waits for that engine thread (R256). -/
def State.afterEngine (s' : State) (t : Thread) (kind : EngineKind) (words : List Reg) (regs : List (Nat × Reg))
    (tags : List (Nat × Bool)) : State :=
  let id := s'.nextUid
  let u := { s' with nextUid := id + 1 }.afterL t
    { id := 0, flag := none, entry := true, wait := .engine id, regs := regs, tags := tags }
  { u with engines := s'.engines ++
      [{ uid := id, ctx := s'.ctxOf t, task := s'.taskOf t, crew := some t.crew, tid := t.tid, lop := some (id + 1), kind := kind,
         words := words, done := [], held := [], sent := [], failed := false, buffer := [], block := none, staged := false, seq := id }] }

/-- The trap of a lone thread whose own checks fail; the record of a scratchpad trap names its lane (R230). -/
def State.afterTrap (s' : State) (t : Thread) (tr : Trap) : State :=
  (s'.takeTrap (t.commit s'.cycle) (if tr.code = 7 then { tr with lanes := 2 ^ (t.tid % 32) } else tr)).done

/-- Operation op of thread t completes: its results are in, its flag falls, and it is no longer in flight (R141). -/
def Thread.completes (t : Thread) (op : LOp) : Thread :=
  { t with
    regs := op.regs.foldl (fun l r => modifyAt (fun _ => r.2) r.1 l) t.regs
    tags := op.tags.foldl (fun l r => modifyAt (fun _ => r.2) r.1 l) t.tags
    flags := (match op.flag with
      | none => t.flags
      | some f => modifyAt (· - 1) f t.flags)
    lops := t.lops.filter (fun x => x.id != op.id)
    fpstat := t.fpstat ||| op.fset
    stale := t.stale ||| op.sset
    dither := t.dither + BitVec.ofNat 6 op.ditherInc }

/-! ### Matrix commands -/

/-- Thread t of crew c alone has issued a matrix or update command: it stands in the crew's queue under a fresh number, and the thread's
operation waits for it (R278). -/
def State.afterCommand (s' : State) (t v : Thread) (c : Crew) (i : Instr) (words : List Reg) (srcs : List (Nat × CapW)) (dreg : Option Nat) :
    State :=
  let id := s'.nextUid
  let u := { s' with nextUid := id + 1 }.afterL t { id := 0, flag := none, entry := true, wait := .command id }
  u.setCrew { c with
    drained := c.drained || noCrewReplay i
    mq := enterQueue
      { id := id, instr := i, born := s'.cycle, tid := t.tid, issuers := [(t.tid, id + 1)], words := words, srcs := srcs, bounds := [],
        dreg := dreg, fpmode := v.fpmode, phase := v.dither.toNat, done := 0 } c.mq }

/-- A tile word whose MBZ bits are zero and whose tile lies in an allotment of acc bytes (R280, R281). -/
def TileWordOk (w acc : Nat) : Prop :=
  w / 2 ^ 49 % 2 ^ 7 = 0 ∧ w % 2 ^ 26 = 0 ∧ w / 2 ^ 26 % 2 ^ 13 * 512 + 512 * (w / 2 ^ 39 % 2 ^ 10 + 1 + 1) ≤ acc

/-- A command is complete: it has left the queue of the crew it is found in, nothing that it read or wrote ahead of the others is kept any
longer, and the operations of its issuers may complete, with what f adds to them (R278). -/
def State.afterDone (s : State) (c : Crew) (m : MCmd) (f : LOp → LOp) : State :=
  m.issuers.foldl (fun s p => s.modLop c.uid p.1 p.2 (fun x => f { x with wait := .ready s.cycle }))
    ((s.endEarly (.command c.uid m.id)).setCrew { c with mq := c.mq.filter (fun x => x.id != m.id) })

/-! ### Tasks -/

/-- The sequencer of its context x accepts the slot of task instruction i, which is well formed, shows no illegal-task fault in itself and
has no predicate; no window entry has the number that the new one will take (R65 to R67, R71, R82). -/
structure Accepts (s : State) (i : Instr) (x : Ctx) (op : Nat) (sl : TaskSlot) : Prop where
  task : i.task = some (op, sl)
  wf : i.wf = true
  ctx : s.ctx s.seqCtx = some x
  fresh : x.task s.nextUid = none
  accepting : x.canAccept = true
  sound : s.slotIllegal x op sl = false
  plain : sl.flags.getLsbD 0 = false ∧ sl.flags.getLsbD 1 = false

/-- The window entry of a slot before its opcode is looked at: it stands at the context's acceptance position, after which the sequencer
goes on to the next slot. -/
def Accepts.entry (s : State) (x : Ctx) (op : Nat) (sl : TaskSlot) : Task := x.newTask s.nextUid op sl

/-- An engine thread of task t of context c has been started for a task instruction (R256). -/
def State.withTaskEngine (s : State) (c t : Nat) (kind : EngineKind) : State :=
  { s with
    nextUid := s.nextUid + 1
    engines := s.engines ++
      [{ uid := s.nextUid, ctx := c, task := t, crew := none, tid := 0, lop := none, kind := kind, words := [], done := [], held := [],
         sent := [], failed := false, buffer := [], block := none, staged := false, seq := 0 }] }

/-! ### Frames -/

/-- Thread b is a with nothing changed but its place in the code, the issue's own notes and the results under way to it. -/
def Thread.keptF (a b : Thread) : Prop :=
  b = { a with pc := b.pc, clause := b.clause, repctr := b.repctr, lastIssue := b.lastIssue, readySince := b.readySince, pend := b.pend }

/-- Thread b is a with nothing changed but its place in the code, the issue's own notes, its operations in flight and a flag count. -/
def Thread.keptL (a b : Thread) : Prop :=
  b = { a with pc := b.pc, clause := b.clause, repctr := b.repctr, lastIssue := b.lastIssue, readySince := b.readySince, lops := b.lops,
               flags := b.flags }

/-- The class-F instructions that write D: the register field, how many registers from it on, and whether the floating-point flags and
`amax` may change with it (R163, R165 to R173, R245, R249). -/
def fixedResult : Instr → Option (RegField × Nat × Bool)
  | .add _ d _ _ => some (d, 1, false)
  | .addi _ d _ _ => some (d, 1, false)
  | .sub _ d _ _ => some (d, 1, false)
  | .mul _ d _ _ => some (d, 1, false)
  | .mulhs _ d _ _ => some (d, 1, false)
  | .mulhn _ d _ _ => some (d, 1, false)
  | .mad _ d _ _ _ => some (d, 1, false)
  | .mins _ d _ _ => some (d, 1, false)
  | .minn _ d _ _ => some (d, 1, false)
  | .maxs _ d _ _ => some (d, 1, false)
  | .maxn _ d _ _ => some (d, 1, false)
  | .abs _ d _ => some (d, 1, false)
  | .neg _ d _ => some (d, 1, false)
  | .and d _ _ => some (d, 1, false)
  | .or d _ _ => some (d, 1, false)
  | .xor d _ _ => some (d, 1, false)
  | .andn d _ _ => some (d, 1, false)
  | .not d _ => some (d, 1, false)
  | .shl _ d _ _ => some (d, 1, false)
  | .shr _ d _ _ => some (d, 1, false)
  | .sra _ d _ _ => some (d, 1, false)
  | .shli _ d _ _ => some (d, 1, false)
  | .shri _ d _ _ => some (d, 1, false)
  | .srai _ d _ _ => some (d, 1, false)
  | .rotl _ d _ _ => some (d, 1, false)
  | .popc _ d _ => some (d, 1, false)
  | .clz _ d _ => some (d, 1, false)
  | .brev _ d _ => some (d, 1, false)
  | .bfx d _ _ => some (d, 1, false)
  | .bfi d _ _ _ => some (d, 1, false)
  | .cmpeq _ d _ _ => some (d, 1, false)
  | .cmplts _ d _ _ => some (d, 1, false)
  | .cmpltn _ d _ _ => some (d, 1, false)
  | .cmples _ d _ _ => some (d, 1, false)
  | .cmplen _ d _ _ => some (d, 1, false)
  | .sel _ d _ _ _ => some (d, 1, false)
  | .mov d _ => some (d, 1, false)
  | .li d _ => some (d, 1, false)
  | .lih d _ _ => some (d, 1, false)
  | .capchk d _ _ => some (d, 1, false)
  | .movs d _ => some (d, 1, false)
  | .stampr d _ => some (d, 1, false)
  | .age d _ => some (d, 1, false)
  | .agejoin d _ _ => some (d, 1, false)
  | .lea d _ _ => some (d, 2, false)
  | .capinc d _ _ => some (d, 2, false)
  | .capnrw d _ _ => some (d, 2, false)
  | .capperm d _ _ => some (d, 2, false)
  | .capscr d _ _ => some (d, 2, false)
  | .capmov d _ => some (d, 2, false)
  | .fadd _ d _ _ => some (d, 1, true)
  | .fsub _ d _ _ => some (d, 1, true)
  | .fmul _ d _ _ => some (d, 1, true)
  | .ffma _ d _ _ _ => some (d, 1, true)
  | .fscale _ d _ _ => some (d, 1, true)
  | .fmin _ d _ _ => some (d, 1, true)
  | .fmax _ d _ _ => some (d, 1, true)
  | .fabs _ d _ => some (d, 1, true)
  | .fneg _ d _ => some (d, 1, true)
  | .fcmpeq _ d _ _ => some (d, 1, true)
  | .fcmplt _ d _ _ => some (d, 1, true)
  | .fcmple _ d _ _ => some (d, 1, true)
  | .fcmpun _ d _ _ => some (d, 1, true)
  | .fclass _ d _ => some (d, 1, true)
  | .fdot _ d _ _ => some (d, 1, true)
  | .fsum _ d _ => some (d, 1, true)
  | .fcvt _ d _ _ => some (d, 1, true)
  | .fcvtam _ d _ _ => some (d, 1, true)
  | .f2i _ d _ _ => some (d, 1, true)
  | .i2f _ d _ _ => some (d, 1, true)
  | .fpack _ d _ _ => some (d, 1, true)
  | .funpk _ d _ => some (d, 1, true)
  | _ => none

/-- The class-L floating-point instructions, which write D when they complete (R163). -/
def laterResult : Instr → Option RegField
  | .frcp _ d _ => some d
  | .frsq _ d _ => some d
  | .fsqrt _ d _ => some d
  | .fexp2 _ d _ => some d
  | .flog2 _ d _ => some d
  | .fsin _ d _ => some d
  | .fcos _ d _ => some d
  | .qpack _ d _ _ => some d
  | .qpackGs d _ => some d
  | .qpackBs d _ _ => some d
  | .qunpk _ d _ _ => some d
  | _ => none

/-- Every thread but one is as it was. -/
def State.othersKept (s u : State) (t : Thread) : Prop :=
  ∀ cr tid, (cr, tid) ≠ (t.crew, t.tid) → u.thread cr tid = s.thread cr tid

end Sys2Proof.Machine
end

