-- ==== Sys2Proof/Certificates/Slice0/Obligations.lean ====
section
/-!
DEFINITION. The statements about the model. In the statements of one thread's issue, t is the thread, v is what it reads (its due
results in), s' the state with the free choice of that reading made (`Solo`); the bundle holds that thread alone.
-/

open Sys2Proof Sys2Proof.Machine

/-! ### Integer instructions -/

/-- R165, R45, R24: the integer arithmetic instructions complete; each element of D is the exact result of the operands' elements,
saturated when TY[2] is set and else reduced modulo 2^w; MULHS is the floor of the signed product over 2^w, MULHN its natural
counterpart. A K operand is signed and contributes TIMELESS. -/
def Claims.IntegerArithmetic : Prop :=
  ∀ (s s' : State) (t v : Thread) (ty : BitVec 3) (d a b c k : BitVec 7),
    let w := intWidth ty
    let x := fun (f : BitVec 7) (j : Nat) => elem w (v.val f).toNat j
    let z := fun (f : BitVec 7) (j : Nat) => toSigned w (x f j)
    let gives := fun (i : Instr) (st : Stamp) (f : Nat → Nat) => Solo s i t v s' → GivesElems s s' i t v d st w f
    gives (.add ty d a b) (v.stampOf [a, b]) (fun j => intResult (satBit ty) w (z a j + z b j))
    ∧ gives (.addi ty d a k) (combine (v.rd a).s sTimeless) (fun j => intResult (satBit ty) w (z a j + toSigned 7 k.toNat))
    ∧ gives (.sub ty d a b) (v.stampOf [a, b]) (fun j => intResult (satBit ty) w (z a j - z b j))
    ∧ gives (.mul ty d a b) (v.stampOf [a, b]) (fun j => intResult (satBit ty) w (z a j * z b j))
    ∧ gives (.mulhs ty d a b) (v.stampOf [a, b]) (fun j => ofSigned w ((z a j * z b j).fdiv (2 ^ w : Nat)))
    ∧ gives (.mulhn ty d a b) (v.stampOf [a, b]) (fun j => x a j * x b j / 2 ^ w)
    ∧ gives (.mad ty d a b c) (v.stampOf [a, b, c]) (fun j => intResult (satBit ty) w (z a j * z b j + z c j))
    ∧ gives (.mins ty d a b) (v.stampOf [a, b]) (fun j => if z a j ≤ z b j then x a j else x b j)
    ∧ gives (.minn ty d a b) (v.stampOf [a, b]) (fun j => min (x a j) (x b j))
    ∧ gives (.maxs ty d a b) (v.stampOf [a, b]) (fun j => if z a j ≤ z b j then x b j else x a j)
    ∧ gives (.maxn ty d a b) (v.stampOf [a, b]) (fun j => max (x a j) (x b j))
    ∧ gives (.abs ty d a) (v.stampOf [a]) (fun j => intResult (satBit ty) w (z a j).natAbs)
    ∧ gives (.neg ty d a) (v.stampOf [a]) (fun j => intResult (satBit ty) w (-(z a j)))

/-- R166, R167, R168, R45: the logic, shift, bit-count and bit-field instructions complete with these results. A shift count is taken
modulo w; SRA divides with floor. -/
def Claims.LogicShiftsAndBits : Prop :=
  ∀ (s s' : State) (t v : Thread) (ty : BitVec 3) (d a b c : BitVec 7) (k : BitVec 6),
    let w := intWidth ty
    let x := fun (f : BitVec 7) (j : Nat) => elem w (v.val f).toNat j
    let gives := fun (i : Instr) (st : Stamp) (f : Nat → Nat) => Solo s i t v s' → GivesElems s s' i t v d st w f
    let whole := fun (i : Instr) (fs : List RegField) (r : Word) =>
      Solo s i t v s' → exec i s = .next (s'.afterReg i t v d r (v.stampOf fs))
    whole (.and d a b) [a, b] (v.val a &&& v.val b)
    ∧ whole (.or d a b) [a, b] (v.val a ||| v.val b)
    ∧ whole (.xor d a b) [a, b] (v.val a ^^^ v.val b)
    ∧ whole (.andn d a b) [a, b] (v.val a &&& ~~~(v.val b))
    ∧ whole (.not d a) [a] (~~~(v.val a))
    ∧ gives (.shl ty d a b) (v.stampOf [a, b]) (fun j => x a j * 2 ^ (x b j % w))
    ∧ gives (.shr ty d a b) (v.stampOf [a, b]) (fun j => x a j / 2 ^ (x b j % w))
    ∧ gives (.sra ty d a b) (v.stampOf [a, b]) (fun j => ofSigned w ((toSigned w (x a j)).fdiv (2 ^ (x b j % w) : Nat)))
    ∧ gives (.shli ty d a k) (combine (v.rd a).s sTimeless) (fun j => x a j * 2 ^ k.toNat)
    ∧ gives (.shri ty d a k) (combine (v.rd a).s sTimeless) (fun j => x a j / 2 ^ k.toNat)
    ∧ gives (.srai ty d a k) (combine (v.rd a).s sTimeless) (fun j => ofSigned w ((toSigned w (x a j)).fdiv (2 ^ k.toNat : Nat)))
    ∧ gives (.rotl ty d a b) (v.stampOf [a, b]) (fun j => x a j * 2 ^ (x b j % w) + x a j / 2 ^ (w - x b j % w))
    ∧ gives (.popc ty d a) (v.stampOf [a]) (fun j => popCount w (x a j))
    ∧ gives (.clz ty d a) (v.stampOf [a]) (fun j => if x a j = 0 then w else w - 1 - Nat.log2 (x a j))
    ∧ gives (.brev ty d a) (v.stampOf [a]) (fun j => bitReverse w (x a j))
    ∧ whole (.bfx d a b) [a, b] (bitExtract (v.val a) (v.val b))
    ∧ whole (.bfi d a b c) [a, b, c] (bitInsert (v.val a) (v.val b) (v.val c))

/-- R167, R168: what BREV, BFX and BFI give bit by bit, and what POPC counts. BREV moves bit n of an element to bit w - 1 - n. With
P = [5:0] and L = min([13:6], 64 - P) of the control word, BFX extracts the field, sign-extended when bit 14 is set, 0 when L is 0; BFI
replaces the field and keeps every other bit. -/
def Claims.BitsOneByOne : Prop :=
  (∀ w x n, n < w → (bitReverse w x).testBit n = x.testBit (w - 1 - n))
  ∧ (∀ w x, popCount w x = ((List.range w).filter x.testBit).length)
  ∧ ∀ (x y c : Word) (n : Nat), n < 64 →
    let p := bits c.toNat 5 0
    let l := min (bits c.toNat 13 6) (64 - p)
    (bitExtract x c).getLsbD n
        = (if n < l then x.getLsbD (p + n) else decide (0 < l) && c.getLsbD 14 && x.getLsbD (p + l - 1))
    ∧ (bitInsert x y c).getLsbD n = (if p ≤ n ∧ n < p + l then y.getLsbD (n - p) else x.getLsbD n)

/-- R169 to R172, R45: compares give all ones or zero in each element, SEL takes B where A is nonzero, MOV, LI and LIH move and load
literals, LEA moves a cursor and leaves its pair untagged. -/
def Claims.ComparesSelectsAndMoves : Prop :=
  ∀ (s s' : State) (t v : Thread) (ty : BitVec 3) (d a b c : BitVec 7) (lit : BitVec 32),
    let w := intWidth ty
    let x := fun (f : BitVec 7) (j : Nat) => elem w (v.val f).toNat j
    let z := fun (f : BitVec 7) (j : Nat) => toSigned w (x f j)
    let ones := fun (p : Prop) [Decidable p] => if p then 2 ^ w - 1 else 0
    let gives := fun (i : Instr) (fs : List RegField) (f : Nat → Nat) => Solo s i t v s' → GivesElems s s' i t v d (v.stampOf fs) w f
    gives (.cmpeq ty d a b) [a, b] (fun j => ones (x a j = x b j))
    ∧ gives (.cmplts ty d a b) [a, b] (fun j => ones (z a j < z b j))
    ∧ gives (.cmpltn ty d a b) [a, b] (fun j => ones (x a j < x b j))
    ∧ gives (.cmples ty d a b) [a, b] (fun j => ones (z a j ≤ z b j))
    ∧ gives (.cmplen ty d a b) [a, b] (fun j => ones (x a j ≤ x b j))
    ∧ gives (.sel ty d a b c) [a, b, c] (fun j => if x a j ≠ 0 then x b j else x c j)
    ∧ (Solo s (.mov d a) t v s' → exec (.mov d a) s = .next (s'.afterReg (.mov d a) t v d (v.val a) (v.stampOf [a])))
    ∧ (Solo s (.li d lit) t v s' → exec (.li d lit) s = .next (s'.afterReg (.li d lit) t v d (lit.signExtend 64) sTimeless))
    ∧ (Solo s (.lih d a lit) t v s' → exec (.lih d a lit) s = .next (s'.afterReg (.lih d a lit) t v d
        (lit ++ (v.val a).setWidth 32) (combine (v.rd a).s sTimeless)))
    ∧ (Solo s (.lea d a b) t v s' → exec (.lea d a b) s = .next (s'.afterF (.lea d a b) t
        { due := 0
          regs := [(v.phys d, { v := moveCursor (v.rdAt a 0).v (v.val b), s := clampStamp s.now (v.rdAt a 0).s }),
                   (v.phys d + 1, { v := (v.rdAt a 1).v, s := clampStamp s.now (v.rdAt a 1).s })]
          tags := [(v.phys d / 2, false)] }))

/-! ### Floating point -/

/-- R173, R174, R175: the element-wise class-F floating-point instructions complete; each element of D is the named operation on the
operands' decoded elements, rounded once by the thread's `fpmode` with the element's own DITHER index, and the flags of all elements
are raised together. FSCALE reads B's element as a signed integer. -/
def Claims.FloatElementwise : Prop :=
  ∀ (s s' : State) (t v : Thread) (ty : BitVec 3) (d a b c : BitVec 7),
    let f := fmtOf ty.toNat
    let x := fun (r : BitVec 7) (j : Nat) => elem f.w (v.val r).toNat j
    let y := fun (r : BitVec 7) (j : Nat) => f.decode (x r j)
    let gives := fun (i : Instr) (srcs : List RegField) (g : Nat → FRes) =>
      Solo s i t v s' → GivesFloats s s' i t v d srcs f.n f.w g 0
    gives (.fadd ty d a b) [a, b] (fun j => f.add (v.rc f.n j) (y a j) (y b j))
    ∧ gives (.fsub ty d a b) [a, b] (fun j => f.add (v.rc f.n j) (y a j) (y b j).neg)
    ∧ gives (.fmul ty d a b) [a, b] (fun j => f.mul (v.rc f.n j) (y a j) (y b j))
    ∧ gives (.ffma ty d a b c) [a, b, c] (fun j => f.fma (v.rc f.n j) (y a j) (y b j) (y c j))
    ∧ gives (.fscale ty d a b) [a, b] (fun j => f.scale (v.rc f.n j) (y a j) (toSigned f.w (x b j)))
    ∧ gives (.fmin ty d a b) [a, b] (fun j => f.minmax false (x a j) (x b j))
    ∧ gives (.fmax ty d a b) [a, b] (fun j => f.minmax true (x a j) (x b j))
    ∧ gives (.fabs ty d a) [a] (fun j => f.setSign false (x a j))
    ∧ gives (.fneg ty d a) [a] (fun j => f.setSign true (x a j))
    ∧ gives (.fcmpeq ty d a b) [a, b] (fun j => f.compare .eq (x a j) (x b j))
    ∧ gives (.fcmplt ty d a b) [a, b] (fun j => f.compare .lt (x a j) (x b j))
    ∧ gives (.fcmple ty d a b) [a, b] (fun j => f.compare .le (x a j) (x b j))
    ∧ gives (.fcmpun ty d a b) [a, b] (fun j => f.compare .un (x a j) (x b j))
    ∧ gives (.fclass ty d a) [a] (fun j => f.classify (x a j))

/-- R176, R177: the reciprocal, root and transcendental instructions are class L; their results fall due no earlier than four cycles
on, and they leave `dither` as it is. -/
def Claims.FloatFunctions : Prop :=
  ∀ (s s' : State) (t v : Thread) (ty : BitVec 3) (d a : BitVec 7),
    let f := fmtOf ty.toNat
    let y := fun (j : Nat) => f.decode (elem f.w (v.val a).toNat j)
    let gives := fun (i : Instr) (g : Nat → FRes) => Solo s i t v s' → GivesFloatsLater s s' i t v d [a] 0 f.n f.w g
    gives (.frcp ty d a) (fun j => f.rcp (v.rc f.n j) (y j))
    ∧ gives (.frsq ty d a) (fun j => f.rsq (v.rc f.n j) (y j))
    ∧ gives (.fsqrt ty d a) (fun j => f.sqrt (v.rc f.n j) (y j))
    ∧ gives (.fexp2 ty d a) (fun j => f.exp2 (v.rc f.n j) (y j))
    ∧ gives (.flog2 ty d a) (fun j => f.log2 (v.rc f.n j) (y j))
    ∧ gives (.fsin ty d a) (fun j => f.sin (y j))
    ∧ gives (.fcos ty d a) (fun j => f.cos (y j))

/-- R178 to R183, R124: the dot product (in F32, or F64 for TY 3), the sum, and the conversions between formats and with integers
complete; a conversion writes as many elements as both formats hold and zero above them; FCVTAM offers the largest finite magnitude
of its sources to `amax`; FPACK packs A's elements below B's, FUNPK widens the high half of A. -/
def Claims.DotsSumsAndConversions : Prop :=
  ∀ (s s' : State) (t v : Thread) (ty k : BitVec 3) (d a b : BitVec 7),
    let f := fmtOf ty.toNat
    let g := fmtOf k.toNat
    let w := intWidth k
    let x := fun (h : Fmt) (r : BitVec 7) (j : Nat) => elem h.w (v.val r).toNat j
    let acc := if ty = 3#3 then fmtF64 else fmtF32
    let n := min g.n f.n
    let m := min f.n (64 / w)
    let p := packSource ty.toNat
    let q := unpackDest ty.toNat
    let tree := f.tree (rcTree (v.fpmode.getLsbD 3)) (Nat.log2 f.n) (listOf f.n (x f a))
    let gives := fun (i : Instr) (srcs : List RegField) (n w : Nat) (h : Nat → FRes) (am : Nat) =>
      Solo s i t v s' → GivesFloats s s' i t v d srcs n w h am
    gives (.fdot ty d a b) [a, b] 1 64
        (fun _ => acc.dot (v.rc 1 0).plain (listOf f.n (fun j => (f.decode (x f a j), f.decode (x f b j))))) 0
    ∧ gives (.fsum ty d a) [a] 1 64 (fun _ => { v := tree.1, fl := tree.2 }) 0
    ∧ gives (.fcvt ty d a k) [a] n f.w (fun j => convertElem g f (v.rc n j) (x g a j)) 0
    ∧ gives (.fcvtam ty d a k) [a] n f.w (fun j => convertElem g f (v.rc n j) (x g a j))
        (((listOf n (x g a)).filterMap (fun z => amaxOf (g.decode z))).foldl max 0)
    ∧ gives (.f2i ty d a k) [a] m w (fun j => toInteger w (satBit k) (v.rc 1 0).plain (f.decode (x f a j))) 0
    ∧ gives (.i2f ty d a k) [a] m f.w (fun j => f.ofInteger (v.rc m j) (intValue (satBit k) w (elem w (v.val a).toNat j))) 0
    ∧ gives (.fpack ty d a b) [a, b] (2 * p.n) f.w
        (fun j => convert p f (v.rc f.n j) (if j < p.n then x p a j else x p b (j - p.n))) 0
    ∧ gives (.funpk ty d a) [a] (f.n - f.n / 2) q.w (fun j => convert f q rcRne (x f a (f.n / 2 + j))) 0

/-- R184, R185: QPACK, its scale forms and QUNPK are class L. The encode forms add one to `dither` when they complete; element j takes
DITHER index IDX + j of the scale word plus the thread's own phase. -/
def Claims.BlockQuantisation : Prop :=
  ∀ (s s' : State) (t v : Thread) (ty : BitVec 3) (d a b : BitVec 7),
    let f := fmtOf ty.toNat
    let w := v.val b
    let low := fun (r : BitVec 7) => bits (v.val r).toNat 31 0
    let gives := fun (i : Instr) (srcs : List RegField) (inc n w : Nat) (g : Nat → FRes) =>
      Solo s i t v s' → GivesFloatsLater s s' i t v d srcs inc n w g
    gives (.qpack ty d a b) [a, b] 1 f.n 4
        (fun j => qnEncode { (v.rc 1 0) with idx := (scaleIdx w + j) % 64 + v.dither.toNat }
          (f.decode (elem f.w (v.val a).toNat j)) (scaleC w) (scaleS w))
    ∧ gives (.qpackGs d a) [a] 1 1 32 (fun _ => qnGroupScale (low a))
    ∧ gives (.qpackBs d a b) [a, b] 1 1 64 (fun _ => qnBlockScale (low a) (low b))
    ∧ gives (.qunpk ty d a b) [a, b] 0 f.n f.w (fun j => qnDecode f (elem 4 (v.val a).toNat j) (scaleC w) (scaleS w))

/-- R117, R118: rounding the magnitude m * 2^e, exact, to a multiple of 2^q, for e below q. RNE gives a nearest multiple, the even one of
two; RTZ the one below; RDN and RUP the one on their side of the signed value; DITHER goes up where the fraction, times 128, is at least
the threshold of its index; the second component says whether anything was lost. -/
def Claims.RoundingOnce : Prop :=
  ∀ (r : RCtx) (neg : Bool) (m : Nat) (e q : Int), e < q →
    let u := 2 ^ (q - e).toNat
    let x := roundTo r neg m e false q
    let lost := m % u ≠ 0
    (x.2 = true ↔ lost)
    ∧ (¬lost → x.1 * u = m)
    ∧ (lost → x.1 = m / u ∨ x.1 = m / u + 1)
    ∧ (r.mode = .rne → 2 * x.1 * u ≤ 2 * m + u ∧ 2 * m ≤ 2 * x.1 * u + u
        ∧ ((2 * x.1 * u = 2 * m + u ∨ 2 * m = 2 * x.1 * u + u) → x.1 % 2 = 0))
    ∧ (r.mode = .rtz → x.1 = m / u)
    ∧ (r.mode = .rdn → lost → x.1 = if neg then m / u + 1 else m / u)
    ∧ (r.mode = .rup → lost → x.1 = if neg then m / u else m / u + 1)
    ∧ (r.mode = .dither → lost → (x.1 = m / u + 1 ↔ ditherD r.idx * u ≤ m % u * 128))

/-- R110, R117: a finite nonzero value of a format rounds to its own pattern in that format, in every mode, and raises no flag. -/
def Claims.RepresentableValuesRoundToThemselves : Prop :=
  ∀ (ty : BitVec 3) (r : RCtx) (x m : Nat) (neg : Bool) (e : Int),
    let f := fmtOf ty.toNat
    x < 2 ^ f.w → f.decode x = .fin neg m e → m ≠ 0 → f.round r neg m e false = { v := x, fl := 0#6 }

/-! ### Cross-lane instructions -/

/-- R32: each of the cross-lane instructions SHFL, SHFLI (idx, up, down, xor), VOTEALL, VOTEANY, BALLOT, MATCH, SCANADD, SCANADDX, REDADD,
REDMAX and REDMIN (signed and natural), REDOR, FREDADD, FSCANADD, ELECT and MEMB completes for a thread whose lane is in its `xmask`:
the thread joins the rendezvous that its team, its PC and its mask name, contributing what it read, and is Held; then what the end of the
cycle evaluates is evaluated (R37). A lane that is not in its own mask takes the collective-mask trap and joins nothing. -/
def Claims.CrossLaneInstructionsJoin : Prop :=
  ∀ (s s' : State) (t v : Thread) (c : Crew) (i : Instr) (d a b : RegField),
    crossRegs i = some (d, a, b) → Solo s i t v s' → s.crew t.crew = some c →
    (v.xmask.getLsbD v.lane = true →
      exec i s = .next (s'.afterJoin i t v c
        { tid := t.tid, a := v.rd a, b := v.rd b, c := Reg.zero, bound := 0#64, d := if d = 127#7 then none else some (v.phys d),
          flag := none, ovn := v.fpmode.getLsbD 3 }).settle.done)
    ∧ (v.xmask.getLsbD v.lane = false →
      exec i s = .next (s'.takeTrap (t.commit s.cycle) { code := 8, detail := v.xmask.toNat }).settle.done)

/-- R33, R34: when every lane of a cross-lane rendezvous' mask has joined or exited, each joined thread leaves the Held state and its
result, as `crossOut` gives it for the joined lanes, is in flight to it, due no earlier than the next cycle, under the flag it raised, in
one group with the others, which complete together. -/
def Claims.CompleteRendezvousDelivers : Prop :=
  ∀ (s : State) (cr : Nat) (c : Crew) (r : Rdv) (j : RJoin) (t : Thread),
    s.crew cr = some c → s.rdvComplete cr r = true → (crossRegs r.instr).isSome = true → (r.joins.map (fun x => x.tid)).Nodup →
    j ∈ r.joins → s.thread cr j.tid = some t → (∃ h, t.st = .held h) →
    ∃ (t' : Thread) (op : LOp), (s.settleRdv cr r).thread cr j.tid = some t'
      ∧ t' = { t with lops := t.lops ++ [op], st := .running, notBefore := s.cycle + 1 }
      ∧ op.flag = j.flag ∧ op.wait = .ready (s.cycle + 1) ∧ op.fset = (crossOut r.instr r.joins j).fl ∧ op.group = some s.nextUid
      ∧ op.regs = (match j.d with
          | none => []
          | some n => [(n, { v := (crossOut r.instr r.joins j).w, s := clampStamp s.now (crossOut r.instr r.joins j).s })])

/-- R204 to R207, R209: what the integer cross-lane instructions deliver to the joined thread `me` of lane l, from the joined threads js. -/
def Claims.CrossLaneResults : Prop :=
  ∀ (js : List RJoin) (me : RJoin) (d a b : RegField) (k : BitVec 5) (ty : BitVec 3) (u : BitVec 2),
    let l := me.lane
    let w := intWidth ty
    let x := redWidth u
    let gets := fun (i : Instr) (src : Nat) =>
      (∀ j, laneJoin js src = some j → crossOut i js me = { w := j.a.v, s := combine sTimeless (combine j.a.s sVacant) })
      ∧ (laneJoin js src = none → crossOut i js me = { w := 0#64, s := sTimeless })
    let mask := fun (i : Instr) (p : RJoin → Prop) =>
      ∀ n, n < 64 → ((crossOut i js me).w.getLsbD n = true ↔ ∃ j ∈ js, j.lane = n ∧ p j)
    let stamped := fun (i : Instr) (p : RJoin → Bool) => (crossOut i js me).s = combineList (sTimeless :: (js.filter p).map (fun j => j.a.s))
    let sum := fun (i : Instr) (p : RJoin → Bool) => stamped i p ∧
      ∀ n, n < 64 / w → elem w (crossOut i js me).w.toNat n = ((js.filter p).map (fun j => elem w j.a.v.toNat n)).sum % 2 ^ w
    let all := fun (i : Instr) (p : Prop) => stamped i (fun _ => true)
      ∧ (p → (crossOut i js me).w = BitVec.allOnes 64) ∧ (¬p → (crossOut i js me).w = 0#64)
    let best := fun (i : Instr) (le : Nat → Nat → Prop) => stamped i (fun _ => true) ∧ (js ≠ [] →
      ∀ n, n < 64 / x → (∃ j ∈ js, elem x (crossOut i js me).w.toNat n = elem x j.a.v.toNat n)
        ∧ ∀ j ∈ js, le (elem x j.a.v.toNat n) (elem x (crossOut i js me).w.toNat n))
    gets (.shfl d a b) (me.b.v.toNat % 32)
    ∧ gets (.shfliIdx d a k) k.toNat
    ∧ gets (.shfliUp d a k) (if l < k.toNat then l else l - k.toNat)
    ∧ gets (.shfliDown d a k) (if 31 < l + k.toNat then l else l + k.toNat)
    ∧ gets (.shfliXor d a k) (l ^^^ k.toNat)
    ∧ all (.voteall d a) (∀ j ∈ js, j.a.v ≠ 0#64)
    ∧ all (.voteany d a) (∃ j ∈ js, j.a.v ≠ 0#64)
    ∧ mask (.ballot d a) (fun j => j.a.v ≠ 0#64) ∧ stamped (.ballot d a) (fun _ => true)
    ∧ mask (.matchA d a) (fun j => j.a.v = me.a.v) ∧ stamped (.matchA d a) (fun _ => true)
    ∧ sum (.scanadd ty d a) (fun j => decide (j.lane ≤ l))
    ∧ sum (.scanaddx ty d a) (fun j => decide (j.lane < l))
    ∧ sum (.redadd ty d a) (fun _ => true)
    ∧ best (.redmaxs u d a) (fun y z => toSigned x y ≤ toSigned x z)
    ∧ best (.redmaxn u d a) (fun y z => y ≤ z)
    ∧ best (.redmins u d a) (fun y z => toSigned x z ≤ toSigned x y)
    ∧ best (.redminn u d a) (fun y z => z ≤ y)
    ∧ ((∀ n, n < 64 → ((crossOut (.redor ty d a) js me).w.getLsbD n = true ↔ ∃ j ∈ js, j.a.v.getLsbD n = true))
        ∧ stamped (.redor ty d a) (fun _ => true))
    ∧ (crossOut (.elect d) js me = { w := if ∀ j ∈ js, l ≤ j.lane then 1#64 else 0#64, s := sTimeless })
    ∧ (mask (.memb d) (fun _ => True) ∧ (crossOut (.memb d) js me).s = sTimeless)


/-! ### Control flow, repetition and sleep -/

/-- R191, R192, R194: BRA goes to H + 4 * OFF17; BZ goes there when all of A is zero and BNZ when any bit of A is one, else to the next
clause header H + 4 * (LEN + 2); JMPR with a tagged pair that has EXECUTE, whose cursor is in its range and a multiple of 4, goes to the
cursor. Each changes the PC (with the issue's own notes) and nothing else. NOP only moves past its slot. -/
def Claims.BranchesAndJumps : Prop :=
  ∀ (s s' : State) (t v : Thread) (cl : Clause) (a : BitVec 7) (o : BitVec 17),
    (t.commit s.cycle).clause = some cl →
    let h := (t.commit s.cycle).pc.hdr
    let goes := fun i x => exec i s = .next (s'.afterThread (t.goesTo s.cycle x))
    let taken := ofSigned 56 ((h : Int) + 4 * toSigned 17 o.toNat)
    let next := h + 4 * (cl.header.toNat % 8 + 2)
    (Solo s (.bra o) t v s' → goes (.bra o) taken)
    ∧ (Solo s (.bz a o) t v s' → goes (.bz a o) (if (v.rd a).v = 0#64 then taken else next))
    ∧ (Solo s (.bnz a o) t v s' → goes (.bnz a o) (if (v.rd a).v = 0#64 then next else taken))
    ∧ (Solo s (.jmpr a) t v s' → v.tagAt a = true → (v.capAt a).has pExecute = true →
        (v.capAt a).covers (v.capAt a).cursor 1 = true → (v.capAt a).cursor % 4 = 0 → goes (.jmpr a) (v.capAt a).cursor)
    ∧ (Solo s .nop t v s' → exec .nop s = .next (s'.afterThread ((t.commit s.cycle).advance s.cycle 1)))

/-- R192: JMPR through a pair that is untagged, lacks EXECUTE or has its cursor out of range takes the capability fault (SUB 1, 2, 4), and
one whose cursor is no multiple of 4 the alignment trap (R142). -/
def Claims.JumpRegisterTraps : Prop :=
  ∀ (s s' : State) (t v : Thread) (a : BitVec 7), Solo s (.jmpr a) t v s' →
    let c := v.capAt a
    let traps := fun (tr : Trap) => exec (.jmpr a) s = .next (s'.takeTrap (t.commit s.cycle) tr).done
    (v.tagAt a = false → traps { code := 6, sub := 1, detail := c.cursor })
    ∧ (v.tagAt a = true → c.has pExecute = false → traps { code := 6, sub := 2, detail := c.cursor })
    ∧ (v.tagAt a = true → c.has pExecute = true → c.covers c.cursor 1 = false → traps { code := 6, sub := 4, detail := c.cursor })
    ∧ (v.tagAt a = true → c.has pExecute = true → c.covers c.cursor 1 = true → c.cursor % 4 ≠ 0 →
        traps { code := 5, detail := c.cursor })

/-- R192: CALL with `stkptr` a multiple of 8 and the word below it inside the crew's allocation stores there the address of the next
clause header, lowers `stkptr` by 8 and goes to H + 4 * OFF17. RET reads the word at `stkptr`, raises `stkptr` by 8 and goes to the
address in its low 56 bits, a multiple of 4. -/
def Claims.CallsAndReturns : Prop :=
  ∀ (s s' : State) (t v : Thread) (c : Crew) (cl : Clause) (o : BitVec 17),
    s.crew t.crew = some c → (t.commit s.cycle).clause = some cl → v.stkptr.toNat % 8 = 0 →
    let h := (t.commit s.cycle).pc.hdr
    let low := (v.stkptr - 8#64).toNat
    let word := c.scr.readNat v.stkptr.toNat 8 % 2 ^ 56
    (Solo s (.call o) t v s' → low + 8 ≤ c.scrSize →
      exec (.call o) s = .next ((s'.setCrew
          { c with scr := c.scr.store s.now low (toBytes 8 ((h + 4 * (cl.header.toNat % 8 + 2)) % 2 ^ 56)) sTimeless }).afterThread
            { t.goesTo s.cycle (ofSigned 56 ((h : Int) + 4 * toSigned 17 o.toNat)) with stkptr := v.stkptr - 8#64 }))
    ∧ (Solo s .ret t v s' → v.stkptr.toNat + 8 ≤ c.scrSize → c.scr.anyPoison v.stkptr.toNat 8 = false → word % 4 = 0 →
      exec .ret s = .next (s'.afterThread { t.goesTo s.cycle word with stkptr := v.stkptr + 8#64 }))

/-- R192: with `stkptr` no multiple of 8, CALL and RET take the alignment trap; where the 8 bytes pass the allocation they take the
scratchpad trap, whose `elanes` names the thread's lane. `stkptr` and the scratchpad are as before. -/
def Claims.CallAndReturnTraps : Prop :=
  ∀ (s s' : State) (t v : Thread) (c : Crew) (o : BitVec 17), s.crew t.crew = some c →
    let traps := fun i (tr : Trap) => exec i s = .next (s'.takeTrap (t.commit s.cycle) tr).done
    let low := (v.stkptr - 8#64).toNat
    let lane := 2 ^ (t.tid % 32)
    (Solo s (.call o) t v s' →
      (v.stkptr.toNat % 8 ≠ 0 → traps (.call o) { code := 5, detail := v.stkptr.toNat })
      ∧ (v.stkptr.toNat % 8 = 0 → c.scrSize < low + 8 → traps (.call o) { code := 7, detail := low, lanes := lane }))
    ∧ (Solo s .ret t v s' →
      (v.stkptr.toNat % 8 ≠ 0 → traps .ret { code := 5, detail := v.stkptr.toNat })
      ∧ (v.stkptr.toNat % 8 = 0 → c.scrSize < v.stkptr.toNat + 8 →
          traps .ret { code := 7, detail := v.stkptr.toNat, lanes := lane }))

/-- R145, R198, R201: WINB sets `wbase` to 8 * K where that is below the allocation, and takes the register-range trap where it is not.
REP sets `repctr` to K[5:0] + 1. SLEEP puts the thread to sleep for min(A, 2^24) cycles; with 0 it goes on at once. Nothing else changes
but the place in the code. SLEEP_END: a sleep with no cycle left ends, and the thread is eligible. -/
def Claims.WindowRepeatAndSleep : Prop :=
  ∀ (s s' : State) (t v : Thread) (a k7 : BitVec 7) (k : BitVec 5) (ty : BitVec 3),
    let c := t.commit s.cycle
    let n := min (v.rd a).v.toNat (2 ^ 24)
    (Solo s (.winb k) t v s' →
      (8 * k.toNat < c.regs.length →
        exec (.winb k) s = .next (s'.afterThread { c.advance s.cycle 1 with wbase := BitVec.ofNat 8 (8 * k.toNat) }))
      ∧ (c.regs.length ≤ 8 * k.toNat → exec (.winb k) s = .next (s'.takeTrap c { code := 4, detail := 8 * k.toNat }).done))
    ∧ (Solo s (.rep ty k7) t v s' →
        exec (.rep ty k7) s = .next (s'.afterThread { c.advance s.cycle 1 with repctr := BitVec.ofNat 7 (k7.toNat % 64 + 1) }))
    ∧ (Solo s (.sleep a) t v s' →
        exec (.sleep a) s = .next (s'.afterThread { c.advance s.cycle 1 with st := if n = 0 then c.st else .sleeping n }))
    ∧ (∀ cr tid, s.thread cr tid = some t → t.st = .sleeping 0 →
        exec (.sleepEnd cr tid) s = .next (s.setThread { t with st := .running, notBefore := s.cycle }))

/-- R138, R143, R198: after an instruction of n words that does not transfer control, the thread stands at the same slot with `repctr`
lowered by 1 while repeats are left; else at the slot n further on, with `repctr` 0; and past the last slot of its clause at slot 0 of
the next clause, H + 4 * (LEN + 2). -/
def Claims.NextSlot : Prop :=
  ∀ (t : Thread) (cl : Clause) (c n : Nat), t.clause = some cl →
    let u := t.advance c n
    (1 < t.repctr.toNat → u.pc = t.pc ∧ u.clause = some cl ∧ u.repctr.toNat + 1 = t.repctr.toNat)
    ∧ (t.repctr.toNat ≤ 1 → t.pc.slot + n ≤ cl.header.toNat % 8 →
        u.pc = { t.pc with slot := t.pc.slot + n } ∧ u.clause = some cl ∧ u.repctr = 0#7)
    ∧ (t.repctr.toNat ≤ 1 → cl.header.toNat % 8 < t.pc.slot + n →
        u.pc = { hdr := (t.pc.hdr + 4 * (cl.header.toNat % 8 + 2)) % 2 ^ 56, slot := 0 } ∧ u.clause = none ∧ u.repctr = 0#7)

/-! ### Traps -/

/-- R200: TRAP K takes the software trap with ARG = K and the address of the clause header as DETAIL, saving the next clause header as
PC. BKPT K takes the breakpoint trap likewise; where the context has DBG set, the thread stops at the next clause header instead, and a
debug halt of its context begins. -/
def Claims.TrapInstructions : Prop :=
  ∀ (s s' : State) (t v : Thread) (cl : Clause) (k : BitVec 7), (t.commit s.cycle).clause = some cl →
    let c := { t.commit s.cycle with lastIssue := some s.cycle, readySince := none }
    let next : PC := { hdr := (c.pc.hdr + 4 * (cl.header.toNat % 8 + 2)) % 2 ^ 56, slot := 0 }
    (Solo s (.trap k) t v s' →
      exec (.trap k) s = .next (s'.takeTrapAt c next { code := 0x0C, arg := k.toNat, detail := c.pc.hdr }).done)
    ∧ (Solo s (.bkpt k) t v s' →
      (s.dbgOf t = false →
        exec (.bkpt k) s = .next (s'.takeTrapAt c next { code := 0x0D, arg := k.toNat, detail := c.pc.hdr }).done)
      ∧ (s.dbgOf t = true →
        exec (.bkpt k) s = .next ((s'.setThread
            { c.handOver with pc := next, clause := none, st := .stopped, resume := .running }).debugHalt (s.ctxOf t) (s.selector t)).done))

/-- R326, R325: a trap of a thread that is not in a handler, with a handler installed for its cause (bit code - 1 of INST) and the handler
window HWB below the allocation, saves cause, detail, lane mask, PC, `repctr`, `wbase` and membership, sets `wbase` to HWB, `repctr` to 0
and HND to 1, and goes to (HBASE + 64 * code, 0). The thread's results issued before are finished first (R202). -/
def Claims.TrapEntry : Prop :=
  ∀ (s : State) (t : Thread) (c : Crew) (x : Ctx) (pc : PC) (tr : Trap),
    s.crew t.crew = some c → s.ctx c.ctx = some x → c.pendTvec = [] → t.finish.hnd = false →
    tr.code ≠ 0x13 → tr.code ≠ 0x14 → c.tvec.getLsbD (31 + tr.code) = true → c.tvec.toNat % 256 < t.finish.regs.length →
    ∃ u : Thread, s.takeTrapAt t pc tr = s.setThread u
      ∧ u = { t.finish with
          notBefore := s.cycle + 1
          ecause := BitVec.ofNat 64 (tr.arg % 256 * 2 ^ 24 + tr.sub % 256 * 2 ^ 16 + tr.code)
          edetail := BitVec.ofNat 64 tr.detail
          elanes := BitVec.ofNat 64 tr.lanes
          epc := BitVec.ofNat 64 (pc.hdr % 2 ^ 56 * 256 + pc.slot)
          erep := t.finish.repctr.setWidth 64
          ewbase := t.finish.wbase.setWidth 64
          ememb := u.ememb
          wbase := c.tvec.setWidth 8
          repctr := 0#7
          hnd := true
          st := if t.finish.st = .stopped then .stopped else .running
          resume := .running
          pc := { hdr := x.hcap.lo.toNat / 2 ^ 8 % 2 ^ 56 + 64 * tr.code, slot := 0 }
          clause := none }
      ∧ ∀ k, k < 8 → u.ememb.getLsbD k = (((c.cbs.getD t.team []).getD k { mask := 0#32, arr := 0#32 }).mask).getLsbD t.lane

/-- R325, R326, R203: a trap that no handler takes escalates: the thread stops for good, its PC precise at the trapping instruction, and
its task holds the fault. Without a handler
for its cause that is code 0x27 with the cause in SUB, and for a local freshness trap code 0x26 with THSUB 0x0E; a trap met in a handler
is code 0x27 with SUB 0x13, the second cause in THSUB, and the first trap's `edetail`; a handler window at or beyond the allocation is
cause 0x14. -/
def Claims.TrapEscalation : Prop :=
  ∀ (s : State) (t : Thread) (c : Crew) (x : Ctx) (pc : PC) (tr : Trap),
    s.crew t.crew = some c → s.ctx c.ctx = some x → c.pendTvec = [] →
    let u := { t.finish with notBefore := s.cycle + 1, pc := pc }
    let h := c.tvec.getLsbD (31 + tr.code)
    let gives := fun (u : Thread) (code sub thsub detail : Nat) =>
      s.takeTrapAt t pc tr = (s.setThread { u with st := .escalated }).holdFault c.ctx c.task
        { code := code, sub := sub, thsub := thsub, thread := (s.cohort c.cohort).map (fun k => (k.cohortid, c.crewid, t.tid)),
          detail := detail }
    (tr.code = 0x0E → h = false → gives u 0x26 tr.sub 0x0E tr.detail)
    ∧ (t.finish.hnd = true → (tr.code = 0x0E → h = true) → gives u 0x27 0x13 tr.code t.finish.edetail.toNat)
    ∧ (t.finish.hnd = false → tr.code ≠ 0x0E → h = false → gives u 0x27 tr.code tr.sub tr.detail)
    ∧ (t.finish.hnd = false → tr.code = 0x13 ∨ tr.code = 0x14 → gives u 0x27 tr.code tr.sub tr.detail)
    ∧ (t.finish.hnd = false → tr.code ≠ 0x13 → tr.code ≠ 0x14 → h = true → t.finish.regs.length ≤ c.tvec.toNat % 256 →
        ∃ w : Thread, w.crew = t.crew ∧ w.tid = t.tid ∧ w.pc = pc ∧ gives w 0x27 0x14 0 (c.tvec.toNat % 256))

/-- R154: the checks that come before an instruction's own are privilege, then register range. A privileged instruction that a lone thread
issues outside the privileged state takes the privilege trap, its header address as DETAIL, and else one whose register field lies at or
beyond the allocation takes the register-range trap, the register's number as DETAIL: for every instruction with a word, with no other
effect but what the end of the cycle evaluates (R37) for the instructions that it follows. While an earlier access of the thread is still
without a place (log 51), the thread waits instead: that access may trap first (R202). -/
def Claims.PrivilegeThenRange : Prop :=
  ∀ (s s' : State) (t v : Thread) (i : Instr), encode i ≠ [] →
    s.bundle = [(t.crew, t.tid)] → s.thread t.crew t.tid = some t → s.view (t.commit s.cycle) = (v, s') →
    (∀ l, s.issuing ≠ .place l) →
    let becomes := fun (u : State) => exec i s = .next u.done ∨ exec i s = .next u.settle.done
    let traps := fun (tr : Trap) =>
      becomes (if s.hasLate t then s'.setThread { t.commit s.cycle with notBefore := s.cycle + 1, readySince := none }
        else s'.takeTrap (t.commit s.cycle) tr)
    (Instr.privileged i = true → s'.isPriv v = false → traps { code := 3, detail := v.pc.hdr })
    ∧ (∀ n, (Instr.privileged i = true → s'.isPriv v = true) → rangeFault v i = some n → traps { code := 4, detail := n })

/-! ### Exit and barriers -/

/-- R193, R196: EXIT ends the thread, whose lane leaves the mask of each of its team's eight convergence barriers; CLEAVE takes the lane
out of one mask, and BMASK writes one mask from A[31:0] less the lanes that have exited. Nothing else changes; then what the end of the
cycle evaluates is evaluated (R37). -/
def Claims.ExitsAndMasks : Prop :=
  ∀ (s s' : State) (t v : Thread) (c : Crew) (a : BitVec 7) (k : BitVec 3), s.crew t.crew = some c →
    let u := t.commit s.cycle
    let lane := 1#32 <<< (t.tid % 32)
    let team := t.tid / 32
    (Solo s .exit t v s' → ∃ c2 : Crew,
      exec .exit s = .next ((s'.setCrew c2).setThread { u with st := .exited, lastIssue := some s.cycle, readySince := none }).settle.done
      ∧ c2 = { c with cbs := c2.cbs }
      ∧ ∀ m n, c2.cb m n = if m = team ∧ n < 8 then { c.cb m n with mask := (c.cb m n).mask &&& ~~~lane } else c.cb m n)
    ∧ (Solo s (.cleave k) t v s' → ∃ c2 : Crew,
      exec (.cleave k) s = .next ((s'.setCrew c2).setThread (u.advance s.cycle 1)).settle.done
      ∧ c2 = { c with cbs := c2.cbs }
      ∧ ∀ m n, c2.cb m n =
          if m = team ∧ n = k.toNat then { c.cb m n with mask := (c.cb m n).mask &&& ~~~lane } else c.cb m n)
    ∧ (Solo s (.bmask a k) t v s' → k.toNat < (c.cbs.getD team []).length → ∃ c2 : Crew,
      exec (.bmask a k) s = .next ((s'.setCrew c2).setThread (u.advance s.cycle 1)).settle.done
      ∧ c2 = { c with cbs := c2.cbs }
      ∧ (∀ m n, (m, n) ≠ (team, k.toNat) → c2.cb m n = c.cb m n) ∧ (c2.cb team k.toNat).arr = (c.cb team k.toNat).arr
      ∧ ∀ l, l < 32 → (c2.cb team k.toNat).mask.getLsbD l = ((v.rd a).v.getLsbD l && !s.laneExited t.crew team l))

/-- R195: at CJOIN a member of the barrier is entered in its arrival set and is Held; any other lane goes on to the next slot. -/
def Claims.ConvergenceJoin : Prop :=
  ∀ (s s' : State) (t v : Thread) (c : Crew) (k : BitVec 3), Solo s (.cjoin k) t v s' → s.crew t.crew = some c →
    let u := (t.commit s.cycle).advance s.cycle 1
    let b := c.cb (t.tid / 32) k.toNat
    (b.mask.getLsbD (t.tid % 32) = false → exec (.cjoin k) s = .next (s'.setThread u).settle.done)
    ∧ (b.mask.getLsbD (t.tid % 32) = true → ∃ c2 : Crew,
      exec (.cjoin k) s = .next ((s'.setCrew c2).setThread { u with st := .held (.cjoin k.toNat) }).settle.done
      ∧ c2 = { c with cbs := c2.cbs }
      ∧ ∀ m n, c2.cb m n =
          if (m, n) = (t.tid / 32, k.toNat) then { b with arr := b.arr ||| 1#32 <<< (t.tid % 32) } else c.cb m n)

/-- R30: a convergence barrier with lanes in its arrival set and every member lane among them releases: the set is emptied and the threads
of the team that are held at it run from the next cycle. While a member has not arrived, or none has, nothing happens. -/
def Claims.ConvergenceRelease : Prop :=
  ∀ (s : State) (cr team k : Nat) (c : Crew), s.crew cr = some c →
    let b := c.cb team k
    let u := s.settleCb cr team k
    ((b.arr = 0#32 ∨ ∃ l, l < 32 ∧ b.mask.getLsbD l = true ∧ b.arr.getLsbD l = false) → u = s)
    ∧ (b.arr ≠ 0#32 → (∀ l, l < 32 → b.mask.getLsbD l = true → b.arr.getLsbD l = true) →
      (∃ c2, u.crew cr = some c2 ∧ (c2.cb team k).arr = 0#32 ∧ (c2.cb team k).mask = b.mask)
      ∧ ∀ t, s.thread cr t.tid = some t → t.crew = cr →
          (t.st = .held (.cjoin k) → t.tid / 32 = team →
            u.thread cr t.tid = some { t with st := .running, notBefore := s.cycle + 1 })
          ∧ (t.st = .running → u.thread cr t.tid = some t))

/-- R210: ARRIVE records the thread at barrier K of its crew and writes the generation to D, TIMELESS; BAR records it and holds it until
that generation ends; AWAIT holds it while the generation equals A[31:0], and else lets it go on. A thread that has arrived already in
this generation takes the barrier-overrun trap, its arrival unchanged. -/
def Claims.CrewBarriers : Prop :=
  ∀ (s s' : State) (t v : Thread) (c : Crew) (b : CrewBar) (d a : BitVec 7) (k : BitVec 4),
    s.crew t.crew = some c → c.bars[k.toNat]? = some b → b.released ≠ some s.cycle →
    let u := t.commit s.cycle
    let c2 := { c with bars := modifyAt (fun b => { b with arrived := b.arrived ++ [t.tid] }) k.toNat c.bars }
    let overrun := fun i => exec i s = .next (s'.takeTrap u { code := 0x0A, detail := k.toNat }).settle.done
    (Solo s (.arrive d k) t v s' →
      (t.tid ∉ b.arrived → exec (.arrive d k) s = .next ((s'.setCrew c2).issueF u 1
          { due := 0, regs := s'.regOut v d (b.gen.setWidth 64) sTimeless, tags := v.tagOut d }).settle.done)
      ∧ (t.tid ∈ b.arrived → overrun (.arrive d k)))
    ∧ (Solo s (.bar k) t v s' →
      (t.tid ∉ b.arrived → exec (.bar k) s = .next ((s'.setCrew c2).setThread
          { u.advance s.cycle 1 with st := .held (.bar k.toNat b.gen) }).settle.done)
      ∧ (t.tid ∈ b.arrived → overrun (.bar k)))
    ∧ (Solo s (.await a k) t v s' →
      (b.gen = (v.rd a).v.setWidth 32 → exec (.await a k) s = .next (s'.setThread
          { u.advance s.cycle 1 with st := .held (.await k.toNat b.gen) }).settle.done)
      ∧ (b.gen ≠ (v.rd a).v.setWidth 32 → exec (.await a k) s = .next (s'.setThread (u.advance s.cycle 1)).settle.done))

/-- R210: a crew barrier at which some thread has arrived releases at the end of the cycle in which every thread of the crew has arrived
or exited: its generation rises by 1, its record is emptied, and the threads that wait on another generation run from the next cycle.
Before that nothing happens. -/
def Claims.CrewBarrierRelease : Prop :=
  ∀ (s : State) (cr k : Nat) (c : Crew) (b : CrewBar), s.crew cr = some c → c.bars[k]? = some b →
    let u := s.settleBar cr k
    ((b.arrived = [] ∨ ∃ t ∈ s.threads, t.crew = cr ∧ t.st ≠ .exited ∧ t.tid ∉ b.arrived) → u = s)
    ∧ (b.arrived ≠ [] → (∀ t ∈ s.threads, t.crew = cr → t.st = .exited ∨ t.tid ∈ b.arrived) →
      (∃ c2, u.crew cr = some c2 ∧ c2.bars[k]? = some { gen := b.gen + 1#32, arrived := [], released := some s.cycle }
        ∧ ∀ n, n ≠ k → c2.bars[n]? = c.bars[n]?)
      ∧ ∀ t, s.thread cr t.tid = some t → t.crew = cr →
          ((t.st = .held (.bar k b.gen) ∨ t.st = .held (.await k b.gen)) →
            u.thread cr t.tid = some { t with st := .running, notBefore := s.cycle + 1 })
          ∧ (t.st = .running → u.thread cr t.tid = some t))

/-- R212: SBAR on a scope group that names the thread's core records the thread at the barrier its launch has for the group and holds it;
a thread whose core the group does not name, or that names a group nothing has written, takes the scope-group trap, and one that has
arrived already the barrier-overrun trap. -/
def Claims.ScopeBarrier : Prop :=
  ∀ (s s' : State) (t v : Thread) (c : Crew) (x : Ctx) (k : BitVec 5),
    Solo s (.sbar k) t v s' → s.crew t.crew = some c → s.ctx c.ctx = some x →
    let u := t.commit s.cycle
    let b := x.sbarOf c.task k.toNat
    (c.core ∉ x.groupCores k.toNat → exec (.sbar k) s = .next (s'.takeTrap u { code := 0x0B, detail := k.toNat }).settle.done)
    ∧ (c.core ∈ x.groupCores k.toNat → (t.crew, t.tid) ∈ b.arrived →
        exec (.sbar k) s = .next (s'.takeTrap u { code := 0x0A, detail := k.toNat }).settle.done)
    ∧ (c.core ∈ x.groupCores k.toNat → (t.crew, t.tid) ∉ b.arrived → b.released ≠ some s.cycle →
        exec (.sbar k) s = .next ((s'.setCtx (x.putSbar { b with arrived := b.arrived ++ [(t.crew, t.tid)] })).setThread
          { u.advance s.cycle 1 with st := .held (.sbar k.toNat b.gen) }).settle.done)

/-- R212: a scope-group barrier releases when every thread, not exited, of every crew of the launch resident on a core of the group has
arrived: the generation rises by 1 and the arrived threads held on it run from the next cycle. Before that nothing happens. -/
def Claims.ScopeBarrierRelease : Prop :=
  ∀ (s : State) (x : Ctx) (b : SBar), s.ctx x.num = some x → b ∈ x.sbars →
    let u := s.settleSbar x.num b
    let takesPart := fun (t : Thread) =>
      ∃ c ∈ s.crews, c.uid = t.crew ∧ c.ctx = x.num ∧ c.task = b.task ∧ c.core ∈ x.groupCores b.group
    ((b.arrived = [] ∨ ∃ t ∈ s.threads, takesPart t ∧ t.st ≠ .exited ∧ (t.crew, t.tid) ∉ b.arrived) → u = s)
    ∧ (b.arrived ≠ [] → (∀ t ∈ s.threads, takesPart t → t.st = .exited ∨ (t.crew, t.tid) ∈ b.arrived) →
      (∃ y, u.ctx x.num = some y ∧ { b with gen := b.gen + 1, arrived := [], released := some s.cycle } ∈ y.sbars)
      ∧ ∀ t, s.thread t.crew t.tid = some t →
          ((t.crew, t.tid) ∈ b.arrived → t.st = .held (.sbar b.group b.gen) →
            u.thread t.crew t.tid = some { t with st := .running, notBefore := s.cycle + 1 })
          ∧ (t.st = .running → u.thread t.crew t.tid = some t))

/-! ### Memory: checks -/

/-- R217, R218, R219: the checks of an access of n bytes at va through pair A, in their order: an untagged pair outside the privileged
state, a missing permission, the scratchpad window for an instruction not allowed there, bytes outside the range, a misaligned address,
bytes of the window beyond the crew's allocation. An untagged pair in the privileged state passes the checks of tag, permission and
bounds. Where no check fails, the place is the scratchpad offset for an address in the window and else the virtual address. -/
def Claims.AccessChecks : Prop :=
  ∀ (s : State) (v : Thread) (a : RegField) (perm va n align : Nat) (scratchOk : Bool), 0 < align →
    let c := v.capAt a
    let tagged := v.tagAt a
    let window := 0xFFFFFFFFFC0000
    let r := s.memCheck v a perm va n align scratchOk
    let tagOk := tagged = true ∨ s.isPriv v = true
    let permOk := tagged = true → c.has perm = true
    let spaceOk := window ≤ va → scratchOk = true
    let rangeOk := tagged = true → c.base ≤ va ∧ va + n ≤ c.limit
    (¬tagOk → r = .error { code := 6, sub := 1, detail := va })
    ∧ (tagOk → ¬permOk → r = .error { code := 6, sub := 2, detail := va })
    ∧ (tagOk → permOk → ¬spaceOk → r = .error { code := 6, sub := 3, detail := va })
    ∧ (tagOk → permOk → spaceOk → ¬rangeOk → r = .error { code := 6, sub := 4, detail := va })
    ∧ (tagOk → permOk → spaceOk → rangeOk → va % align ≠ 0 → r = .error { code := 5, detail := va })
    ∧ (tagOk → permOk → spaceOk → rangeOk → va % align = 0 → window ≤ va → s.scratchSize v < va - window + n →
        r = .error { code := 7, detail := va - window })
    ∧ (tagOk → permOk → spaceOk → rangeOk → va % align = 0 → window ≤ va → va - window + n ≤ s.scratchSize v →
        r = .ok (.scratch (va - window)))
    ∧ (tagOk → permOk → spaceOk → rangeOk → va % align = 0 → va < window → r = .ok (.virt va))

/-- R218, R230, R243: a load, a store or a scratchpad access of a lone thread whose checks fail takes the trap that they name; the record
of a scratchpad trap names the thread's lane. The data of a store plays no part. -/
def Claims.AccessTraps : Prop :=
  ∀ (s s' : State) (t v : Thread) (i : Instr) (n : BitVec 3) (d a o : RegField) (w : Nat) (rep : Bool) (tr : Trap), Solo s i t v s' →
    let traps := exec i s = .next (s'.takeTrap (t.commit s.cycle)
      (if tr.code = 7 then { tr with lanes := 2 ^ (t.tid % 32) } else tr)).done
    (capLoad i = some (n, d, a, o, w) → loadCheck a o w s' v = .error tr → traps)
    ∧ (capStore i = some (d, a, o, w, rep) → storeCheck (if rep then 34 else 2) a o w s' v = .error tr → traps)
    ∧ (scratchLoad i = some (n, d, a, o, w) ∨ scratchStore i = some (d, a, o, w) →
        let sum := ((v.rd a).v.toNat : Int) + toSigned 7 o.toNat * w
        let off := ofSigned 64 sum
        (off % w ≠ 0 → tr = { code := 5, detail := off } → traps)
        ∧ (off % w = 0 → s'.scratchSize v < off + w ∨ sum < 0 ∨ 2 ^ 64 ≤ sum → tr = { code := 7, detail := off } → traps))

/-- R51, R52, R53, R54: the check of granule stamps under selector n. Selector 0 checks nothing; a VACANT stamp fails where CV is set, a
DATA or WEIGHT stamp where CD or CW is set and its age exceeds BOUND; of several failures *vacant* is the cause if there is one. ACT 0
escalates, 1 traps with the selector as ARG, and 2 sets the selector's `stale` bit, and VAC for *vacant*. -/
def Claims.FreshnessCheck : Prop :=
  ∀ (s : State) (v : Thread) (n addr : Nat) (l : List Stamp), n < 8 →
    let b := v.bound n
    let act := b.toNat / 2 ^ 33 % 4
    let vac := n ≠ 0 ∧ b.getLsbD 32 = true ∧ ∃ x ∈ l, x.toNat / 2 ^ 30 = 3
    let old := n ≠ 0 ∧ ∃ x ∈ l, (x.toNat / 2 ^ 30 = 0 ∧ b.getLsbD 30 = true ∨ x.toNat / 2 ^ 30 = 1 ∧ b.getLsbD 31 = true)
      ∧ b.toNat % 2 ^ 29 < (s.now + 2 ^ 30 - x.toNat % 2 ^ 30) % 2 ^ 30
    let gives := fun (sub : Nat) (bits : BitVec 9) => s.freshness v n l addr =
      (match act with
        | 0 => .escalate sub
        | 1 => .trap { code := 0x0E, sub := sub, arg := n, detail := addr }
        | _ => .ok bits)
    (¬vac → ¬old → s.freshness v n l addr = .ok 0#9)
    ∧ (vac → gives 2 (1#9 <<< n ||| 256#9))
    ∧ (¬vac → old → gives 1 (1#9 <<< n))

/-! ### Memory: loads -/

/-- R219, R220, R48: a load of LD8 to LD128 whose checks pass and whose access reaches a page of device or host memory that is not
poisoned, and is fresh under its selector, is in flight with the little-endian bytes at the address, zero-extended, and the combine of
the stamps of the granules they touch: one register, or both of a pair, whose tag is cleared. The store is not changed. -/
def Claims.LoadsComplete : Prop :=
  ∀ (s s' s2 : State) (t v : Thread) (i : Instr) (n : BitVec 3) (d a o : RegField) (w va pa : Nat) (host : Bool) (sset : BitVec 9),
    Solo s i t v s' → capLoad i = some (n, d, a, o, w) → loadCheck a o w s' v = .ok (.virt va) →
    s'.reaches t .load va w true pa host s2 →
    let m := s2.store host
    let st := combineList (m.stampsOf pa w)
    let half := fun (k : Nat) => ({ v := BitVec.ofNat 64 (m.readNat pa 16 / 2 ^ (64 * k)), s := clampStamp s2.now st } : Reg)
    m.anyPoison pa w = false → s2.freshness v n.toNat (m.stampsOf pa w) va = .ok sset →
    exec i s = .next (s2.afterL t
      { id := 0, flag := none, entry := true, access := true, wait := .ready (s2.cycle + 1), sset := sset
        regs := if w = 16 then [(v.phys d, half 0), (v.phys d + 1, half 1)] else s2.regOut v d (BitVec.ofNat 64 (m.readNat pa w)) st
        tags := if w = 16 then [(v.phys d / 2, false)] else v.tagOut d })

/-- R226, R48: a transposed load of width w reads 8 / w elements down a column, 32 bytes apart, where the access is checked for the range
it spans, does not lie in the scratchpad window, and starts at a row that is a multiple of the number of elements; its stamp is the
combine of the stamps of all 32 granules of the sector. -/
def Claims.TransposedLoadsComplete : Prop :=
  ∀ (s s' s2 : State) (t v : Thread) (i : Instr) (n : BitVec 3) (d a o : RegField) (w va pa : Nat) (sset : BitVec 9),
    Solo s i t v s' → columnLoad i = some (n, d, a, o, w) →
    va = ofSigned 56 ((s'.addrBase v a : Int) + toSigned 7 o.toNat * w) →
    s'.memCheck v a pLoad va (32 * (8 / w - 1) + w) w false = .ok (.virt va) → va % 1024 / 32 % (8 / w) = 0 →
    s'.reaches t .load va (32 * (8 / w - 1) + w) false pa false s2 →
    let sector := pa / 1024 * 1024
    s2.mem.anyPoison sector 1024 = false → s2.freshness v n.toNat (s2.mem.stampsOf sector 1024) va = .ok sset →
    ∃ x : Nat, exec i s = .next (s2.afterL t
        { id := 0, flag := none, entry := true, access := true, wait := .ready (s2.cycle + 1), sset := sset
          regs := s2.regOut v d (BitVec.ofNat 64 x) (combineList (s2.mem.stampsOf sector 1024)), tags := v.tagOut d })
      ∧ ∀ k, k < 8 / w → elem (8 * w) x k = s2.mem.readNat (pa + 32 * k) w

/-- R226, R218: a transposed load whose address lies in the scratchpad window takes the capability fault *space*; so does one that
reaches host memory; one whose row is no multiple of its number of elements takes the alignment trap. -/
def Claims.TransposedLoadTraps : Prop :=
  ∀ (s s' s2 : State) (t v : Thread) (i : Instr) (n : BitVec 3) (d a o : RegField) (w va pa : Nat),
    Solo s i t v s' → columnLoad i = some (n, d, a, o, w) →
    va = ofSigned 56 ((s'.addrBase v a : Int) + toSigned 7 o.toNat * w) →
    let c := t.commit s.cycle
    let len := 32 * (8 / w - 1) + w
    let row := va % 1024 / 32 % (8 / w)
    (∀ tr, s'.memCheck v a pLoad va len w false = .error tr → exec i s = .next (s'.takeTrap c tr).done)
    ∧ (s'.memCheck v a pLoad va len w false = .ok (.virt va) → row ≠ 0 →
        exec i s = .next (s'.takeTrap c { code := 5, detail := va }).done)
    ∧ (s'.memCheck v a pLoad va len w false = .ok (.virt va) → row = 0 →
        s'.translate (s'.ctxOf c) .load va len = (.page pa true, s2) →
        exec i s = .next (s2.takeTrap c { code := 6, sub := 3, detail := va }).done)

/-- R228, R229, R48: a scratchpad load, by offset or through a capability of the window, reads the crew's scratchpad as a load of its
size reads memory; a 16-byte one gives the pair the tag bit of the word. It takes no entry of the transaction table (R241). -/
def Claims.ScratchpadLoadsComplete : Prop :=
  ∀ (s s' : State) (t v : Thread) (c : Crew) (i : Instr) (n : BitVec 3) (d a o : RegField) (w off addr : Nat) (sset : BitVec 9),
    Solo s i t v s' → s.crew t.crew = some c →
    (scratchLoad i = some (n, d, a, o, w) ∧ addr = off ∧ (off : Int) = ((v.rd a).v.toNat : Int) + toSigned 7 o.toNat * w
        ∧ off % w = 0 ∧ off + w ≤ c.scrSize ∧ off < 2 ^ 64
      ∨ capLoad i = some (n, d, a, o, w) ∧ addr = s'.mAddr v a o w ∧ loadCheck a o w s' v = .ok (.scratch off)) →
    let m := c.scr
    let st := combineList (m.stampsOf off w)
    let half := fun (k : Nat) => ({ v := BitVec.ofNat 64 (m.readNat off 16 / 2 ^ (64 * k)), s := clampStamp s.now st } : Reg)
    m.anyPoison off w = false → s.freshness v n.toNat (m.stampsOf off w) addr = .ok sset →
    exec i s = .next (s'.afterL t
      { id := 0, flag := none, entry := false, access := true, wait := .ready (s.cycle + 1), sset := sset
        regs := if w = 16 then [(v.phys d, half 0), (v.phys d + 1, half 1)] else s.regOut v d (BitVec.ofNat 64 (m.readNat off w)) st
        tags := if w = 16 then [(v.phys d / 2, m.tag (off / 16))] else v.tagOut d })

/-- R44: a load of device or host memory that touches a poisoned granule writes no register: it is a data error, SUB 1, with the
physical address, and an error record. -/
def Claims.PoisonedLoads : Prop :=
  ∀ (s s' s2 : State) (t v : Thread) (i : Instr) (n : BitVec 3) (d a o : RegField) (w va pa : Nat) (host : Bool),
    Solo s i t v s' → capLoad i = some (n, d, a, o, w) → loadCheck a o w s' v = .ok (.virt va) →
    s'.reaches t .load va w true pa host s2 → (s2.store host).anyPoison pa w = true →
    let c := t.commit s.cycle
    exec i s = .next (((s2.logCtx (s2.ctxOf c) 2 0 (some (s2.coreOf c)) false pa)).takeTrap c
      { code := 0x12, sub := 1, detail := pa }).done

/-- R219, R302 (log 51, the model's choice of which accesses come late): a load or a store whose bundle leaves its accesses to come after
the issue, and which would reach its page and complete now, issues all the same: its operation is in flight, an access that a FENCE
waits for, and the access waits for its place, kept with what the thread read at the issue; no memory is read or written. -/
def Claims.AccessesMayComeLater : Prop :=
  ∀ (s s' s2 : State) (t v : Thread) (i : Instr) (n : BitVec 3) (d a o : RegField) (w va pa : Nat) (rep host : Bool) (sset : BitVec 9),
    s.bundle = [(t.crew, t.tid)] → s.thread t.crew t.tid = some t → s.view (t.commit s.cycle) = (v, s') → s'.preCheck i v = none →
    s.issuing = .late → s.hasLate t = false → s.readPast = none →
    let c := t.commit s.cycle
    let waits := exec i s = .next (({ ({ s' with nextUid := s'.nextUid + 1 }.issueL c
        { id := s'.nextUid, flag := none, entry := true, access := true, wait := .place }) with
      lates := s.lates ++ [{ crew := t.crew, tid := t.tid, op := s'.nextUid, instr := i, before := c, view := v, views := [v] }] } : State).done)
    (capLoad i = some (n, d, a, o, w) → loadCheck a o w s' v = .ok (.virt va) → s'.reaches t .load va w true pa host s2 →
      (s2.store host).anyPoison pa w = false → s2.freshness v n.toNat ((s2.store host).stampsOf pa w) va = .ok sset → waits)
    ∧ (capStore i = some (d, a, o, w, rep) → storeCheck (if rep then pStore ||| pRestamp else pStore) a o w s' v = .ok (.virt va) →
      (w = 16 → v.tagAt d = true → (v.capAt d).has pGlobal = true) → s'.reaches t .store va w true pa host s2 → waits)

/-! ### Memory: stores -/

/-- R5, R49, R229, R44: an ordinary store of bytes at an address leaves the bytes there and every other byte as before; each granule it
touches takes the combine of its stamp and the data's, clamped (R62); the tag bits of the 16-byte words it touches are cleared; poison is
as before. A granule-replace store (R50) leaves the same bytes, and each granule it touches takes the data's stamp. -/
def Claims.StoreLeaves : Prop :=
  ∀ (m : Memory) (now a : Nat) (bs : List Byte) (x : Stamp), m.wf = true → bs ≠ [] →
    let n := bs.length
    let p := m.store now a bs x
    let q := m.storeReplace now a bs x
    let touched := fun (unit g : Nat) => a / unit ≤ g ∧ g ≤ (a + n - 1) / unit
    (∀ b, p.byte b = (if a ≤ b ∧ b < a + n then bs.getD (b - a) 0#8 else m.byte b) ∧ q.byte b = p.byte b)
    ∧ (∀ g, (touched 32 g → p.stamp g = clampStamp now (combine (m.stamp g) x) ∧ q.stamp g = clampStamp now x)
        ∧ (¬touched 32 g → p.stamp g = m.stamp g ∧ q.stamp g = m.stamp g))
    ∧ (∀ k, (touched 16 k → p.tag k = false ∧ q.tag k = false) ∧ (¬touched 16 k → p.tag k = m.tag k ∧ q.tag k = m.tag k))
    ∧ (∀ g, p.isPoison g = m.isPoison g ∧ q.isPoison g = m.isPoison g)
    ∧ p.wf = true ∧ q.wf = true

/-- R219, R221, R222, R223: a store of ST8 to ST128, or STG64 or STG128, whose checks pass and whose access reaches a page writes the low
bytes of D, or both registers of the pair, with their stamp, to device or host memory; a tagged pair must carry GLOBAL, and loses its tag.
A store needs STORE, a granule-replace store RESTAMP too. It writes no register. -/
def Claims.StoresComplete : Prop :=
  ∀ (s s' s2 : State) (t v : Thread) (i : Instr) (d a o : RegField) (w va pa : Nat) (rep host : Bool),
    Solo s i t v s' → capStore i = some (d, a, o, w, rep) →
    storeCheck (if rep then pStore ||| pRestamp else pStore) a o w s' v = .ok (.virt va) →
    (w = 16 → v.tagAt d = true → (v.capAt d).has pGlobal = true) → s'.reaches t .store va w true pa host s2 →
    let bs := if w = 16 then toBytes 8 (v.rdAt d 0).v.toNat ++ toBytes 8 (v.rdAt d 1).v.toNat else toBytes w (v.rd d).v.toNat
    let x := if w = 16 then combine (v.rdAt d 0).s (v.rdAt d 1).s else (v.rd d).s
    exec i s = .next ((s2.modStore host (fun m => if rep then m.storeReplace s2.now pa bs x else m.store s2.now pa bs x)).afterL t
      { id := 0, flag := none, entry := true, access := true, wait := .ready (s2.cycle + 1) })

/-- R222: a 16-byte store of a tagged pair without GLOBAL to device or host memory takes the capability fault *store-global* and writes
nothing. -/
def Claims.StoreGlobalTrap : Prop :=
  ∀ (s s' : State) (t v : Thread) (i : Instr) (d a o : RegField) (va : Nat) (rep : Bool),
    Solo s i t v s' → capStore i = some (d, a, o, 16, rep) →
    storeCheck (if rep then pStore ||| pRestamp else pStore) a o 16 s' v = .ok (.virt va) →
    v.tagAt d = true → (v.capAt d).has pGlobal = false →
    exec i s = .next (s'.takeTrap (t.commit s.cycle) { code := 6, sub := 5, detail := va }).done

/-- R229: a scratchpad store, by offset or through a capability of the window, writes the crew's scratchpad as a store of its size writes
memory (STG64 and STG128 get there from the privileged state alone, R217, R223); a 16-byte store of a tagged pair sets the word's tag
bit. -/
def Claims.ScratchpadStoresComplete : Prop :=
  ∀ (s s' : State) (t v : Thread) (c : Crew) (i : Instr) (d a o : RegField) (w off : Nat) (rep : Bool),
    Solo s i t v s' → s.crew t.crew = some c →
    (scratchStore i = some (d, a, o, w) ∧ (off : Int) = ((v.rd a).v.toNat : Int) + toSigned 7 o.toNat * w
        ∧ off % w = 0 ∧ off + w ≤ c.scrSize ∧ off < 2 ^ 64 ∧ rep = false
      ∨ capStore i = some (d, a, o, w, rep)
        ∧ storeCheck (if rep then pStore ||| pRestamp else pStore) a o w s' v = .ok (.scratch off)) →
    let bs := if w = 16 then toBytes 8 (v.rdAt d 0).v.toNat ++ toBytes 8 (v.rdAt d 1).v.toNat else toBytes w (v.rd d).v.toNat
    let x := if w = 16 then combine (v.rdAt d 0).s (v.rdAt d 1).s else (v.rd d).s
    let m := if rep then c.scr.storeReplace s.now off bs x else c.scr.store s.now off bs x
    exec i s = .next ((s'.setCrew { c with scr := if w = 16 ∧ v.tagAt d = true then m.putTag (off / 16) true else m }).afterL t
      { id := 0, flag := none, entry := false, access := true, wait := .ready (s.cycle + 1) })

/-- R240, R242: PREF takes an entry and does nothing else; FENCE completes when the accesses that the thread has in flight have. -/
def Claims.PrefetchAndFence : Prop :=
  ∀ (s s' : State) (t v : Thread) (a o : RegField),
    (Solo s (.pref a o) t v s' → exec (.pref a o) s = .next (s'.afterL t
      { id := 0, flag := none, entry := true, wait := .ready (s.cycle + 1) }))
    ∧ (Solo s .fence t v s' → exec .fence s = .next (s'.afterL t
      { id := 0, flag := none, entry := false,
        wait := .ops (((t.commit s.cycle).lops.filter (fun x => x.access)).map (fun x => x.id)) }))

/-! ### Memory: atomics and waiting -/

/-- R234, R235, R237, R135, R122: an atomic whose checks pass (ATOMIC, its width's alignment, not in the scratchpad window) and that
reaches an unpoisoned word of device or host memory, whatever its scope, returns the old value, zero-extended, with the granule's stamp
before it; it writes the new value of `atomic`, with the stamp of B (of B.odd for ATCAS64, which writes only where the compare holds). -/
def Claims.AtomicsComplete : Prop :=
  ∀ (s s' s2 : State) (t v : Thread) (i : Instr) (d a : RegField) (w pa : Nat) (host : Bool) (f : Nat → AtomicOut),
    Solo s i t v s' → atomic v i = some (d, a, w, f) →
    let va := s'.addrBase v a
    s'.memCheck v a pAtomic va w w false = .ok (.virt va) → s'.reaches t .atomic va w true pa host s2 →
    let m := s2.store host
    let old := m.readNat pa w
    m.anyPoison pa w = false →
    let s3 := match (f old).write with
      | none => s2
      | some (x, st) => s2.modStore host (fun m => m.store s2.now pa (toBytes w x) st)
    exec i s = .next (s3.afterL t
      { id := 0, flag := none, entry := true, access := true, wait := .ready (s2.cycle + 1), fset := (f old).fl
        regs := s2.regOut v d (BitVec.ofNat 64 old) (combineList (m.stampsOf pa w)), tags := v.tagOut d })

/-- R239: a WAITV whose checks pass (LOAD, 8-byte alignment, not in the scratchpad window) and that reaches an unpoisoned word reads it:
where the word meets the condition (EQ, NE, LTN, GEN, LTS, GES for TY 0 to 5) against B, D takes the word and its granule's stamp and the
thread goes on; else the thread is held at the instruction. A held one that reads again does the same, once its granule has been
written and while its core's table has an entry free (R241). -/
def Claims.WaitingOnAValue : Prop :=
  ∀ (s s' s2 : State) (t v : Thread) (ty : BitVec 3) (d a b : BitVec 7) (pa : Nat) (host : Bool),
    let meets := fun (x : Nat) (c : Nat) (y : Word) =>
      (c = 0 ∧ x = y.toNat) ∨ (c = 1 ∧ x ≠ y.toNat) ∨ (c = 2 ∧ x < y.toNat) ∨ (c = 3 ∧ y.toNat ≤ x)
        ∨ (c = 4 ∧ toSigned 64 x < toSigned 64 y.toNat) ∨ (c = 5 ∧ toSigned 64 y.toNat ≤ toSigned 64 x)
    let m := s2.store host
    let x := m.readNat pa 8
    let goesOn := fun (u : Thread) (n : Option Nat) (last : Option Nat) =>
      { ((match n with
          | none => u
          | some k => (u.putReg k { v := BitVec.ofNat 64 x, s := clampStamp s2.now (combineList (m.stampsOf pa 8)) }).putTag (k / 2)
              false).advance s2.cycle 1) with st := TState.running, notBefore := s2.cycle + 1, lastIssue := last }
    let waits := fun (u : Thread) (n : Option Nat) (va c : Nat) (y : Word) (last : Option Nat) =>
      { u with st := .held (.waitv n va c y (some (host, pa, m.writeCount pa 8))), lastIssue := last, readySince := none }
    let tries := fun (u : Thread) => { u.commit s.cycle with triedAt := some s.cycle }
    let dn := if d = 127#7 then none else some (v.phys d)
    let va := s'.addrBase v a
    (Solo s (.waitv ty d a b) t v s' → t.st = .running → ty.toNat < 6 → s'.memCheck v a pLoad va 8 8 false = .ok (.virt va) →
      s'.reaches t .load va 8 true pa host s2 → m.anyPoison pa 8 = false →
      (meets x ty.toNat (v.rd b).v →
        exec (.waitv ty d a b) s = .next (s2.afterThread (goesOn (tries t) dn (some s2.cycle))))
      ∧ (¬meets x ty.toNat (v.rd b).v → exec (.waitv ty d a b) s =
          .next (s2.afterThread (waits (tries t) dn va ty.toNat (v.rd b).v (some s2.cycle)))))
    ∧ (∀ cr tid n wva c y seen, s.thread cr tid = some t → t.st = .held (.waitv n wva c y seen) → c < 6 →
        s.unwritten seen = false → s.entriesUsed (s.coreOf t) < 256 → s.reaches t .load wva 8 true pa host s2 →
        m.anyPoison pa 8 = false →
        (meets x c y → exec (.waitvReread cr tid) s = .next (s2.setThread (goesOn (tries t) n t.lastIssue)))
        ∧ (¬meets x c y → exec (.waitvReread cr tid) s = .next (s2.setThread (waits (tries t) n wva c y t.lastIssue))))

/-! ### Capabilities -/

/-- R246, R248, R249, R250: CAPINC moves the cursor by B modulo 2^56 and keeps A's tag only where the new cursor lies from the base to the
end of the range inclusive; CAPPERM clears the permissions that B[7:0] lacks; CAPMOV copies the pair with its tag; CAPCHK gives bit 0 for
an untagged pair, bit 1 for a missing permission of B[63:56] and bit 2 where B[37:0] bytes at the cursor, if any, leave the range. -/
def Claims.CapabilityArithmetic : Prop :=
  ∀ (s s' : State) (t v : Thread) (d a b : RegField),
    let lo := v.rdAt a 0
    let hi := v.rdAt a 1
    let c := v.capAt a
    let w := (v.rd b).v.toNat
    let cur := (lo.v.toNat / 2 ^ 8 + w) % 2 ^ 56
    let out := w % 2 ^ 38 ≠ 0 ∧ ¬(c.base ≤ c.cursor ∧ c.cursor + w % 2 ^ 38 ≤ c.limit)
    (Solo s (.capinc d a b) t v s' →
      GivesPair s s' (.capinc d a b) t v d { lo with v := BitVec.ofNat 64 (cur * 2 ^ 8 + lo.v.toNat % 2 ^ 8) } hi
        (v.tagAt a && decide (c.base ≤ cur) && decide (cur ≤ c.limit)))
    ∧ (Solo s (.capperm d a b) t v s' → ∃ p : Word,
      GivesPair s s' (.capperm d a b) t v d { lo with v := p } hi (v.tagAt a)
      ∧ ∀ n, n < 64 → p.getLsbD n = (lo.v.getLsbD n && (decide (8 ≤ n) || (v.rd b).v.getLsbD n)))
    ∧ (Solo s (.capmov d a) t v s' → GivesPair s s' (.capmov d a) t v d lo hi (v.tagAt a))
    ∧ (Solo s (.capchk d a b) t v s' → ∃ r : Word,
      exec (.capchk d a b) s = .next (s'.afterReg (.capchk d a b) t v d r sTimeless)
      ∧ (r.getLsbD 0 = true ↔ v.tagAt a = false) ∧ (r.getLsbD 1 = true ↔ c.has (w / 2 ^ 56) = false)
      ∧ (r.getLsbD 2 = true ↔ out) ∧ r.toNat < 8)

/-- R247, R243: CAPNRW of a tagged pair to the n = B bytes from its cursor, n not 0, in units of the least exponent that covers them with at
most 65,536, keeps cursor, permissions and stamps and gives the covered range, tagged, where that lies within A's range. -/
def Claims.CapabilityNarrowing : Prop :=
  ∀ (s s' : State) (t v : Thread) (d a b : RegField) (e : Nat), Solo s (.capnrw d a b) t v s' →
    let c := v.capAt a
    let n := (v.rd b).v.toNat
    let lo := c.cursor
    let hi := c.cursor + n
    let l := 2 ^ (12 + e)
    v.tagAt a = true → 0 < n → LeastExponent lo hi e → c.base ≤ lo / l * l → (hi + l - 1) / l * l ≤ c.limit →
    GivesPair s s' (.capnrw d a b) t v d (v.rdAt a 0) { v := rangeWord lo hi e, s := (v.rdAt a 1).s } true

/-- R247: CAPNRW of an untagged pair takes the capability fault *untagged*; with B = 0, with no exponent up to 15 that covers the bytes, or
with a cover outside A's range, the capability fault *bounds*. -/
def Claims.CapabilityNarrowingTraps : Prop :=
  ∀ (s s' : State) (t v : Thread) (d a b : RegField), Solo s (.capnrw d a b) t v s' →
    let c := v.capAt a
    let n := (v.rd b).v.toNat
    let lo := c.cursor
    let hi := c.cursor + n
    let traps := fun (sub : Nat) =>
      exec (.capnrw d a b) s = .next (s'.takeTrap (t.commit s.cycle) { code := 6, sub := sub, detail := c.cursor }).done
    (v.tagAt a = false → traps 1)
    ∧ (v.tagAt a = true → (n = 0 ∨ (∀ e, ¬LeastExponent lo hi e)
          ∨ ∃ e, LeastExponent lo hi e ∧ (lo / 2 ^ (12 + e) * 2 ^ (12 + e) < c.base
            ∨ c.limit < (hi + 2 ^ (12 + e) - 1) / 2 ^ (12 + e) * 2 ^ (12 + e))) → traps 4)

/-- R245: CAPSCR with source 0 makes a LOAD and STORE capability over n bytes of the crew's scratchpad at offset A, in the scratchpad
window; with source 1 a LOAD and EXECUTE capability over n bytes of the kernel code (which ends below that window, R90) at offset A. The range is widened as R76 gives; both
registers are TIMELESS and the pair is tagged. -/
def Claims.ScratchAndCodeCapabilities : Prop :=
  ∀ (s s' : State) (t v : Thread) (d a b : RegField) (e : Nat), Solo s (.capscr d a b) t v s' →
    let off := (v.rd a).v.toNat
    let w := (v.rd b).v.toNat
    let n := w % 2 ^ 38
    let code := s'.codeCap v
    let gives := fun (sb perms : Nat) => LeastExponent (sb + off) (sb + off + n) e →
      GivesPair s s' (.capscr d a b) t v d { v := BitVec.ofNat 64 ((sb + off) % 2 ^ 56 * 2 ^ 8 + perms), s := sTimeless }
        { v := rangeWord (sb + off) (sb + off + n) e, s := sTimeless } true
    (w / 2 ^ 62 = 0 → n ≠ 0 → off + n ≤ s'.scratchSize v → gives 0xFFFFFFFFFC0000 3)
    ∧ (w / 2 ^ 62 = 1 → n ≠ 0 → code.limit ≤ 0xFFFFFFFFFC0000 → off + n ≤ code.limit - code.base → code.base ≤ (code.base + off) / 2 ^ (12 + e) * 2 ^ (12 + e) →
        (code.base + off + n + 2 ^ (12 + e) - 1) / 2 ^ (12 + e) * 2 ^ (12 + e) ≤ code.limit → gives code.base 5)

/-- R245: CAPSCR with source 2 or 3 takes the capability fault *space*, and with n = 0, or bytes past the scratchpad allocation or the
kernel code, the capability fault *bounds*. -/
def Claims.ScratchAndCodeCapabilityTraps : Prop :=
  ∀ (s s' : State) (t v : Thread) (d a b : RegField), Solo s (.capscr d a b) t v s' →
    let off := (v.rd a).v.toNat
    let w := (v.rd b).v.toNat
    let n := w % 2 ^ 38
    let code := s'.codeCap v
    let traps := fun (sub : Nat) => ∃ detail, exec (.capscr d a b) s =
      .next (s'.takeTrap (t.commit s.cycle) { code := 6, sub := sub, detail := detail }).done
    (2 ≤ w / 2 ^ 62 → traps 3)
    ∧ (w / 2 ^ 62 = 0 → n = 0 ∨ s'.scratchSize v < off + n → traps 4)
    ∧ (w / 2 ^ 62 = 1 → n = 0 ∨ code.limit - code.base < off + n → traps 4)

/-- R244, R76: CAPGET leaves in flight, tagged and TIMELESS, the capability of region K of the thread's task: cursor at the region's first
byte, the range that covers its bytes, LOAD for IN, LOAD, STORE and RESTAMP for OUT, and ATOMIC too for UPD and SHARED. (A region of a
registered pager's queue carries PAGER as well, R369.) -/
def Claims.RegionCapabilities : Prop :=
  ∀ (s s' : State) (t v : Thread) (d : RegField) (k : BitVec 4) (x : Task) (r : Region) (e : Nat),
    Solo s (.capget d k) t v s' → s'.taskRec v = some x → x.regions[k.toNat]? = some r →
    (s'.isPagerQueue (s'.ctxOf v) r.lb = false ∨ r.kind < 2) →
    let lo := r.ver.va + r.off
    let hi := lo + ((r.rows - 1) * r.pitch + r.rowb)
    let perms := match r.kind with
      | 0 => 1
      | 1 => 1 + 2 + 32
      | _ => 1 + 2 + 8 + 32
    LeastExponent lo hi e →
    exec (.capget d k) s = .next (s'.afterL t
      { id := 0, flag := none, entry := false, wait := .ready (s.cycle + 1)
        regs := [(v.phys d, { v := BitVec.ofNat 64 (lo % 2 ^ 56 * 2 ^ 8 + perms), s := sTimeless }),
                 (v.phys d + 1, { v := rangeWord lo hi e, s := sTimeless })]
        tags := [(v.phys d / 2, true)] })

/-! ### Special registers and stamps -/

/-- R155: MOVS reads the special register that K numbers, TIMELESS: the thread's, crew's and cohort's identity, the device, time and cycle,
and the thread's own registers. -/
def Claims.SpecialRegisterReads : Prop :=
  ∀ (s s' : State) (t v : Thread) (c : Crew) (h : Cohort) (d k : RegField), Solo s (.movs d k) t v s' →
    s.crew t.crew = some c → s.cohort c.cohort = some h →
    let num := fun (n : Nat) => BitVec.ofNat 64 n
    let table : List (Nat × Word) :=
      [(0, num t.tid), (1, num (t.tid % 32)), (2, num (t.tid / 32)), (3, num c.crewid), (4, num h.cohortid), (5, num (c.core / 384)),
       (6, num s.devid), (7, num h.ncrew), (8, num c.nthread), (9, num s.now), (10, num s.cycle), (11, v.fpmode.setWidth 64),
       (12, v.fpstat.setWidth 64), (13, v.amax.setWidth 64), (14, v.xmask.setWidth 64), (15, v.stale.setWidth 64),
       (16, v.wbase.setWidth 64), (17, v.stkptr), (18, v.repctr.setWidth 64), (19, v.dither.setWidth 64)]
    (∀ p ∈ table, k.toNat = p.1 → exec (.movs d k) s = .next (s'.afterReg (.movs d k) t v d p.2 sTimeless))
    ∧ (∀ n, n < 7 → k.toNat = 33 + n → exec (.movs d k) s = .next (s'.afterReg (.movs d k) t v d (v.abs.getD n 0#64) sTimeless))

/-- R51, R54, R119, R120, R124, R155: MOVSW writes `fpmode` (upper bits zero, rounding mode 0 to 4), `amax` (neither negative nor with an
exponent of all ones), `xmask`, `stkptr`, `dither` and an age bound (its MBZ bits zero, ACT not 3, BOUND at most 2^28) from A, clears the
bits of `fpstat` and `stale` that A names, visible four cycles on; a value that the register does not take raises the illegal-instruction
trap. A's stamp plays no part. -/
def Claims.SpecialRegisterWrites : Prop :=
  ∀ (s s' : State) (t v : Thread) (a k : RegField), Solo s (.movsw a k) t v s' →
    let w := (v.rd a).v
    let n := k.toNat
    let writes := exec (.movsw a k) s = .next (s'.afterF (.movsw a k) t { due := 0, sregs := [(n, w)] })
    let traps := exec (.movsw a k) s = .next (s'.takeTrap (t.commit s.cycle) { code := 1, detail := v.pc.hdr }).done
    let boundOk := w.toNat / 2 ^ 35 = 0 ∧ w.toNat / 2 ^ 33 % 4 ≠ 3 ∧ w.getLsbD 29 = false ∧ w.toNat % 2 ^ 29 ≤ 2 ^ 28
    (n = 14 ∨ n = 17 ∨ n = 19 → writes)
    ∧ (n = 11 → (w.toNat < 16 ∧ w.toNat % 8 ≤ 4 → writes) ∧ (¬(w.toNat < 16 ∧ w.toNat % 8 ≤ 4) → traps))
    ∧ (n = 13 → (w.getLsbD 31 = false ∧ w.toNat / 2 ^ 23 % 2 ^ 8 ≠ 255 → writes)
        ∧ (¬(w.getLsbD 31 = false ∧ w.toNat / 2 ^ 23 % 2 ^ 8 ≠ 255) → traps))
    ∧ (33 ≤ n ∧ n ≤ 39 → (boundOk → writes) ∧ (¬boundOk → traps))
    ∧ (n = 12 → exec (.movsw a k) s = .next (s'.afterF (.movsw a k) t { due := 0, fclr := w.setWidth 6 }))
    ∧ (n = 15 → ∃ m : BitVec 9, exec (.movsw a k) s = .next (s'.afterF (.movsw a k) t { due := 0, sclr := m })
        ∧ ∀ j, j < 9 → m.getLsbD j = (decide (1 ≤ j) && w.getLsbD j))

/-- R24, R155, R164: once a result is due, the thread has it: each register its value with its stamp, `fpstat` and `stale` with the cleared
bits out and the set bits in, `amax` the larger magnitude; special registers and tags as written. What is not due waits. -/
def Claims.ResultsBecomeVisible : Prop :=
  ∀ (t : Thread) (p : Pend) (c : Nat), t.pend = [p] →
    (c < p.due → t.commit c = t)
    ∧ (p.due ≤ c → p.sregs = [] →
      let u := t.commit c
      u.pend = [] ∧ u.fpstat = t.fpstat &&& ~~~p.fclr ||| p.fset ∧ u.stale = t.stale &&& ~~~p.sclr ||| p.sset
      ∧ u.amax.toNat = max t.amax.toNat p.amax.toNat
      ∧ (∀ n r, p.regs = [(n, r)] → n < t.regs.length → u.regs[n]? = some r ∧ ∀ k, k ≠ n → u.regs[k]? = t.regs[k]?)
      ∧ (∀ n b, p.tags = [(n, b)] → n < t.tags.length → u.tags[n]? = some b ∧ ∀ k, k ≠ n → u.tags[k]? = t.tags[k]?))

/-- R187, R188, R189: STAMPR gives A's stamp word, with TICK 0 for TIMELESS and VACANT, and AGE its class at bits [31:30] with its age in
ticks for DATA and WEIGHT; both TIMELESS. AGEJOIN gives A's value, with A's stamp aged to the stamp word B (clamped) as R189's table says. -/
def Claims.StampInstructions : Prop :=
  ∀ (s s' : State) (t v : Thread) (d a b : RegField),
    let x := (v.rd a).s
    let cls := x.toNat / 2 ^ 30
    let age := (s.now + 2 ^ 30 - x.toNat % 2 ^ 30) % 2 ^ 30
    let y := clampStamp s.now ((v.rd b).v.setWidth 32)
    let ycls := y.toNat / 2 ^ 30
    let older := (x.toNat % 2 ^ 30 + 2 ^ 30 - y.toNat % 2 ^ 30) % 2 ^ 30
    let join : Stamp :=
      if cls = 3 ∨ ycls = 2 ∨ ycls = 3 then (if cls < 2 then x else BitVec.ofNat 32 (cls * 2 ^ 30))
      else if cls = 2 then y
      else BitVec.ofNat 32 (cls * 2 ^ 30 + (if 2 ^ 29 ≤ older then x else y).toNat % 2 ^ 30)
    (Solo s (.stampr d a) t v s' → exec (.stampr d a) s = .next (s'.afterReg (.stampr d a) t v d
      (BitVec.ofNat 64 (if cls < 2 then x.toNat else cls * 2 ^ 30)) sTimeless))
    ∧ (Solo s (.age d a) t v s' → exec (.age d a) s = .next (s'.afterReg (.age d a) t v d
      (BitVec.ofNat 64 (cls * 2 ^ 30 + if cls < 2 then age else 0)) sTimeless))
    ∧ (Solo s (.agejoin d a b) t v s' → exec (.agejoin d a b) s = .next (s'.afterReg (.agejoin d a b) t v d (v.rd a).v join))

/-- R190, R52, R53: AGECHK checks the stamp of A under its selector: where the check passes, or its failure only sets `stale` bits, the
thread goes on and no register is written; a local failure is the freshness trap with DETAIL 0; an escalating one is the task's fault. -/
def Claims.AgeCheck : Prop :=
  ∀ (s s' : State) (t v : Thread) (n : BitVec 3) (a : RegField), Solo s (.agechk n a) t v s' →
    let r := s.freshness v n.toNat [(v.rd a).s] 0
    let c := t.commit s.cycle
    (∀ sset, r = .ok sset → exec (.agechk n a) s = .next (s'.afterF (.agechk n a) t { due := 0, sset := sset }))
    ∧ (∀ tr, r = .trap tr → exec (.agechk n a) s = .next (s'.takeTrap c tr).done)
    ∧ (∀ sub, r = .escalate sub → exec (.agechk n a) s = .next (s'.escalate c 0x26 sub 0 0).done)

/-! ### Privileged state -/

/-- R317, R153: a thread is in the privileged state when its context has PRIV or it runs a trap handler; what is marked S needs PRIV as
well. The privileged instructions are TRET, CSRR, CSRW, STAMPSET, CMAPW, TLBINV, HALTC and DBGSTEP. -/
def Claims.PrivilegedState : Prop :=
  ∀ (s : State) (t : Thread) (c : Crew) (x : Ctx), s.crew t.crew = some c → s.ctx c.ctx = some x →
    s.isPriv t = (t.hnd || x.priv) ∧ s.isS t = x.priv
    ∧ ∀ i : Instr, i.wf = true → (Instr.privileged i = true ↔ ∃ w ∈ (encode i).head?, 0xE8 ≤ w.toNat / 2 ^ 24 ∧ w.toNat / 2 ^ 24 ≤ 0xEF)

/-- R327: TRET in a handler restores `wbase`, `repctr` and the PC from `ewbase`, `erep` and `epc` and clears HND; nothing else changes. Out
of a handler it is an illegal-instruction trap. -/
def Claims.ReturnFromTrap : Prop :=
  ∀ (s s' : State) (t v : Thread), Solo s .tret t v s' →
    let c := t.commit s.cycle
    (t.hnd = true → exec .tret s = .next (s'.afterThread { c with
      wbase := v.ewbase.setWidth 8, repctr := v.erep.setWidth 7, hnd := false
      pc := { hdr := v.epc.toNat / 2 ^ 8, slot := v.epc.toNat % 8 }, clause := none, lastIssue := some s.cycle, readySince := none }))
    ∧ (t.hnd = false → exec .tret s = .next (s'.takeTrap c { code := 1, detail := v.pc.hdr }).done)

/-- R320, R321, R323, R330: CSRR of a register of the thread, or of its crew or context with no write of it under way, gives its value,
TIMELESS: the trap registers, `estate`, `tvec`, `ctxctl`, `ctxid`, `dbgst`, `dbgwho`; in a context with PRIV also `ctxsel`, `dbgsel`, and
`cpol` of the partition. A number that is not in the table is an illegal-instruction trap. -/
def Claims.ControlRegisterReads : Prop :=
  ∀ (s s' : State) (t v : Thread) (c : Crew) (x : Ctx) (ty : BitVec 3) (d k : BitVec 7), Solo s (.csrr ty d k) t v s' →
    s.crew t.crew = some c → s.ctx c.ctx = some x → c.pendTvec = [] → x.pendCtl = [] → (s.part x.part).pendPol = [] →
    let n := 128 * ty.toNat + k.toNat
    let gives := fun (w : Word) => exec (.csrr ty d k) s = .next (s'.afterReg (.csrr ty d k) t v d w sTimeless)
    let num := fun (n : Nat) => BitVec.ofNat 64 n
    let table : List (Nat × Word) :=
      [(0, v.ecause), (1, v.epc), (2, v.edetail), (3, v.elanes), (4, v.ewbase), (5, v.erep), (6, v.ememb),
       (7, num ((if x.priv then 2 else 0) + if v.hnd then 1 else 0)), (0x10, c.tvec), (0x20, x.ctl),
       (0x21, num ((if x.priv then 2 ^ 24 else 0) + x.prio % 8 * 2 ^ 20 + x.part % 8 * 2 ^ 16 + x.dcn % 64 * 2 ^ 8 + x.num % 64)),
       (0x22, num ((if x.dhalt then 2 ^ 63 else 0) + (if x.refused then 2 ^ 62 else 0) + x.steps % 2 ^ 16 * 2 ^ 32)), (0x23, x.dbgwho)]
    let tableS : List (Nat × Word) := [(0x24, v.ctxsel.setWidth 64), (0x40, v.dbgsel), (0x100, (s.part x.part).cpol)]
    (∀ p ∈ table, n = p.1 → gives p.2)
    ∧ (∀ p ∈ tableS, n = p.1 → (x.priv = true → gives p.2)
        ∧ (x.priv = false → exec (.csrr ty d k) s = .next (s'.takeTrap (t.commit s.cycle) { code := 3, detail := v.pc.hdr }).done))
    ∧ ((7 < n ∧ n < 0x10) ∨ (0x10 < n ∧ n < 0x20) ∨ (0x24 < n ∧ n < 0x30) ∨ (0x33 < n ∧ n < 0x40) ∨ (0x42 < n ∧ n < 0x100) ∨ 0x100 < n →
        exec (.csrr ty d k) s = .next (s'.takeTrap (t.commit s.cycle) { code := 1, detail := v.pc.hdr }).done)

/-- R320, R321, R322, R323, R328, R330: CSRW of `epc`, `ewbase` and `erep` with values that their fields take is in flight to the thread,
visible four cycles on; of `tvec` and of `ctxctl` (DBG unchanged, RZN 10 to 30) it is under way to the crew and the context. A value that
the fields do not take, and a read-only register, raise the illegal-instruction trap and change nothing. -/
def Claims.ControlRegisterWrites : Prop :=
  ∀ (s s' : State) (t v : Thread) (c : Crew) (x : Ctx) (ty : BitVec 3) (a k : BitVec 7), Solo s (.csrw ty a k) t v s' →
    s.crew t.crew = some c → s.ctx c.ctx = some x → x.pendCtl = [] →
    let n := 128 * ty.toNat + k.toNat
    let w := (v.rd a).v
    let m := w.toNat
    let u := t.commit s.cycle
    let key := (s.cycle + 4) * 2 ^ 15 + c.slot % 32 * 2 ^ 10 + t.tid % 2 ^ 10
    let traps := exec (.csrw ty a k) s = .next (s'.takeTrap u { code := 1, detail := v.pc.hdr }).settle.done
    let thread := exec (.csrw ty a k) s = .next (s'.issueF u 1 { due := 0, sregs := [(1024 + n, w)] }).settle.done
    let fieldOk := (n = 1 → m % 2 ^ 8 = 0) ∧ (n = 4 → m < 2 ^ 8 ∧ m % 8 = 0 ∧ m < v.regs.length) ∧ (n = 5 → m ≤ 64)
    (n = 1 ∨ n = 4 ∨ n = 5 → (fieldOk → thread) ∧ (¬fieldOk → traps))
    ∧ (n = 0x10 → (m < 2 ^ 52 ∧ m / 2 ^ 8 % 2 ^ 24 = 0 ∧ m % 8 = 0 →
          exec (.csrw ty a k) s = .next ((s'.setCrew { c with pendTvec := addWrite c.pendTvec key w }).issueF u 1 { due := 0 }).settle.done)
        ∧ (¬(m < 2 ^ 52 ∧ m / 2 ^ 8 % 2 ^ 24 = 0 ∧ m % 8 = 0) → traps))
    ∧ (n = 0x20 → (m < 2 ^ 12 ∧ m / 2 ^ 5 % 8 = 0 ∧ 10 ≤ m % 2 ^ 5 ∧ m % 2 ^ 5 ≤ 30 ∧ x.ctl.getLsbD 16 = false →
          exec (.csrw ty a k) s = .next ((s'.setCtx { x with pendCtl := addWrite x.pendCtl key w }).issueF u 1 { due := 0 }).settle.done)
        ∧ (m < 2 ^ 12 ∧ m / 2 ^ 5 % 8 = 0 ∧ x.ctl.getLsbD 16 = false ∧ (m % 2 ^ 5 < 10 ∨ 30 < m % 2 ^ 5) → traps))
    ∧ (n = 0 ∨ n = 2 ∨ n = 3 ∨ n = 7 ∨ n = 0x21 ∨ n = 0x22 → traps)

/-- R330, R155: a register that several threads share holds the last of the writes that are due, in the order of their keys: cycle, crew
slot, `tid`; with none due it is as before. -/
def Claims.SharedRegisterWrites : Prop :=
  ∀ (cycle : Nat) (w : Word) (ps : List (Nat × Word)),
    let r := settleWord cycle w ps
    ((∀ p ∈ ps, cycle < p.1 / 2 ^ 15) → r = (w, ps))
    ∧ (∀ p qs, ps = qs ++ [p] → p.1 / 2 ^ 15 ≤ cycle → r.1 = p.2)
    ∧ (∀ p, p ∈ r.2 ↔ p ∈ ps ∧ cycle < p.1 / 2 ^ 15)
    ∧ (∀ key v, (addWrite ps key v).length = ps.length + 1 ∧ (key, v) ∈ addWrite ps key v ∧ ∀ p ∈ ps, p ∈ addWrite ps key v)

/-- R331: STAMPSET.REG gives D the value of A with the stamp word B, normalised: TICK 0 for TIMELESS and VACANT, `now` for a tick later than
`now`, the clamp of R62 else. STAMPSET.GRANULE gives the granule at the cursor of A that stamp and leaves its bytes as they are, in device
memory or in the scratchpad; it needs RESTAMP, and host memory is the capability fault *space*. -/
def Claims.StampSetting : Prop :=
  ∀ (s s' s2 : State) (t v : Thread) (c : Crew) (d a b : RegField) (off pa : Nat), s.crew t.crew = some c →
    let st := normaliseStamp s.now ((v.rd b).v.setWidth 32)
    let va := s'.addrBase v a
    let place := s'.memCheck v a 32 va 1 1 true
    (Solo s (.stampsetReg d a b) t v s' → exec (.stampsetReg d a b) s = .next (s'.afterL t
        { id := 0, flag := none, entry := false, wait := .ready (s.cycle + 1), regs := s.regOut v d (v.rd a).v st, tags := v.tagOut d }))
    ∧ (Solo s (.stampsetGranule a b) t v s' →
      (place = .ok (.virt va) → s'.reaches t .store va 1 false pa false s2 → ∃ m : Memory,
        exec (.stampsetGranule a b) s = .next ({ s2 with mem := m }.afterL t
          { id := 0, flag := none, entry := true, access := true, wait := .ready (s.cycle + 1) })
        ∧ (s2.mem.wf = true → ∀ g, m.stamp g = if g = pa / 32 then st else s2.mem.stamp g) ∧ ∀ q, m.byte q = s.mem.byte q)
      ∧ (place = .ok (.scratch off) → ∃ m : Memory,
        exec (.stampsetGranule a b) s = .next ((s'.setCrew { c with scr := m }).afterL t
          { id := 0, flag := none, entry := false, access := true, wait := .ready (s.cycle + 1) })
        ∧ (c.scr.wf = true → ∀ g, m.stamp g = if g = off / 32 then st else c.scr.stamp g) ∧ ∀ q, m.byte q = c.scr.byte q)
      ∧ (∀ tr, place = .error tr → tr.code ≠ 7 → exec (.stampsetGranule a b) s = .next (s'.takeTrap (t.commit s.cycle) tr).done)
      ∧ (place = .ok (.virt va) → s'.translate (s'.ctxOf (t.commit s.cycle)) .store va 1 = (.page pa true, s2) →
        exec (.stampsetGranule a b) s = .next (s2.takeTrap (t.commit s.cycle) { code := 6, sub := 3, detail := va }).done))
    ∧ (∀ x : Stamp, (x.toNat / 2 ^ 30 = 2 → normaliseStamp s.now x = 0x80000000#32)
      ∧ (x.toNat / 2 ^ 30 = 3 → normaliseStamp s.now x = 0xC0000000#32)
      ∧ (x.toNat / 2 ^ 30 < 2 → 2 ^ 29 ≤ stampAge s.now x →
          normaliseStamp s.now x = BitVec.ofNat 32 (x.toNat / 2 ^ 30 * 2 ^ 30 + s.now % 2 ^ 30))
      ∧ (x.toNat / 2 ^ 30 < 2 → stampAge s.now x < 2 ^ 29 → normaliseStamp s.now x = clampStamp s.now x))

/-- R332, R364: TLBINV with its MBZ bits zero names the cached translations of its scope: 0 those of the thread's context that map the
address A at any page size, 1 all of its context, 2 all of a context of the partition, 3 all of the partition. It is in flight until the
accesses open in the partition have completed, and takes the named translations with it when it completes. Scopes 2 and 3 need S. -/
def Claims.TranslationInvalidation : Prop :=
  ∀ (s s' : State) (t v : Thread) (c : Crew) (x : Ctx) (a b : RegField), Solo s (.tlbinv a b) t v s' →
    s.crew t.crew = some c → s.ctx c.ctx = some x →
    let w := (v.rd b).v.toNat
    let va := (v.rd a).v.toNat % 2 ^ 56
    let u := t.commit s.cycle
    let drops := fun (named : TlbEntry → Prop) => ∃ gone, exec (.tlbinv a b) s =
        .next (s'.afterL t { id := 0, flag := none, entry := false, wait := .accesses (s.openAccesses (s.partOf t)) gone })
      ∧ ∀ n, n ∈ gone ↔ ∃ e ∈ s.tlb, named e ∧ n = (e.ctx, e.level, e.vpn)
    (w = 0 → drops (fun e => e.ctx = c.ctx ∧ e.vpn = va / 2 ^ levelShift e.level))
    ∧ (w = 1 → drops (fun e => e.ctx = c.ctx))
    ∧ (w = 3 → x.priv = true → drops (fun e => (s.peerCtx v e.ctx).isSome = true))
    ∧ (∀ k y, k < 64 → w = 2 + k * 2 ^ 8 → x.priv = true → s.peerCtx v k = some y → drops (fun e => e.ctx = k))
    ∧ (w % 4 ≥ 2 → w / 2 ^ 14 = 0 → w / 4 % 2 ^ 6 = 0 → x.priv = false →
        exec (.tlbinv a b) s = .next (s'.takeTrap u { code := 3, detail := v.pc.hdr }).done)
    ∧ (w / 2 ^ 14 ≠ 0 ∨ w / 4 % 2 ^ 6 ≠ 0 → exec (.tlbinv a b) s = .next (s'.takeTrap u { code := 1, detail := v.pc.hdr }).done)

/-- R333: CMAPW by a thread of a PRIV context, of a core of the partition's dies, with B's MBZ bits zero, gives the core's entry: FENCED,
AVAIL and the partition of its die; unless RD is set the core's AVAIL takes B[8] at the end of the cycle, but stays clear on a fenced core.
Another core number is an illegal-instruction trap. -/
def Claims.CoreMap : Prop :=
  ∀ (s s' : State) (t v : Thread) (c : Crew) (x : Ctx) (d a b : RegField), Solo s (.cmapw d a b) t v s' →
    s.crew t.crew = some c → s.ctx c.ctx = some x →
    let k := (v.rd a).v.toNat
    let w := (v.rd b).v
    let e := s.coreEntry k
    let u := t.commit s.cycle
    let old := BitVec.ofNat 64 ((if e.fenced then 2 ^ 9 else 0) + (if e.avail then 2 ^ 8 else 0) + s.partOfDie (k / 384) % 8)
    let valid := k ≤ 3071 ∧ (s.part x.part).dies.getLsbD (k / 384) = true ∧ w.toNat / 2 ^ 10 % 2 ^ 53 = 0 ∧ w.toNat / 2 ^ 3 % 2 ^ 5 = 0
    (x.priv = true → valid → w.getLsbD 63 = true → exec (.cmapw d a b) s = .next (s'.afterReg (.cmapw d a b) t v d old sTimeless))
    ∧ (x.priv = true → valid → w.getLsbD 63 = false → ∃ s2, s2 = s'.setCoreEntry { e with next := some (w.getLsbD 8 && !e.fenced) }
        ∧ exec (.cmapw d a b) s = .next (s2.afterReg (.cmapw d a b) t v d old sTimeless))
    ∧ (x.priv = true → ¬valid → exec (.cmapw d a b) s = .next (s'.takeTrap u { code := 1, detail := v.pc.hdr }).done)
    ∧ (x.priv = false → v.hnd = true → exec (.cmapw d a b) s = .next (s'.takeTrap u { code := 3, detail := v.pc.hdr }).done)

/-- R334: HALTC of the thread's own context, or of any context of the partition with S: operation 0 begins a halt of a context that is not
halted, 1 resumes another context that is halted or in a debug halt and has no effect on the thread's own, 2 begins a debug halt where DBG
is set. Operation 3 or more, a number with
bits above 5, a context of no or another partition, and a debug halt without DBG are illegal-instruction traps; naming another context
without S is a privilege trap. The table's three rows are one word, whose B says which operation it is. -/
def Claims.HaltControl : Prop :=
  ∀ (s s' : State) (t v : Thread) (c : Crew) (x : Ctx) (a b : RegField) (i : Instr),
    i = .haltcHalt a b ∨ i = .haltcResume a b ∨ i = .haltcDebugHalt a b → Solo s i t v s' → s.crew t.crew = some c →
    let k := (v.rd a).v.toNat
    let op := (v.rd b).v.toNat
    let u := t.commit s.cycle
    let illegal := exec i s = .next (s'.takeTrap u { code := 1, detail := v.pc.hdr }).done
    let named := k < 64 ∧ s.peerCtx v k = some x ∧ (k = c.ctx ∨ s'.isS v = true)
    (named → op = 0 → x.halted = false →
      (x.saved = false → exec i s = .next ((s'.beginStop x.num .halt []).issueF u 1 { due := 0 }).done)
      ∧ (x.saved = true → exec i s = .next ((s'.modCtx x.num (fun y => { y with halted := true })).issueF u 1 { due := 0 }).done))
    ∧ (named → op = 0 → x.halted = true → exec i s = .next (s'.issueF u 1 { due := 0 }).done)
    ∧ (named → op = 1 → k = c.ctx → exec i s = .next (s'.issueF u 1 { due := 0 }).done)
    ∧ (named → op = 1 → k ≠ c.ctx → exec i s = .next ((s'.resumeCtx x).issueF u 1 { due := 0 }).done)
    ∧ (named → op = 2 → x.pendCtl = [] → x.ctl.getLsbD 16 = true →
        exec i s = .next ((s'.debugHalt x.num 0#64).issueF u 1 { due := 0 }).done)
    ∧ (named → op = 2 → x.pendCtl = [] → x.ctl.getLsbD 16 = false → illegal)
    ∧ (3 ≤ op ∨ 64 ≤ k ∨ s.peerCtx v k = none → illegal)
    ∧ (k < 64 → op < 3 → s.peerCtx v k = some x → k ≠ c.ctx → s'.isS v = false →
        exec i s = .next (s'.takeTrap u { code := 3, detail := v.pc.hdr }).done)

/-- R334, R354: what resuming does: a debug halt ends and the context's stopped threads go on in what they were in; a halt that is still
stopping takes note; a completed halt is undone, and where the context is not saved its threads go on. -/
def Claims.ResumingAContext : Prop :=
  ∀ (s : State) (x : Ctx), s.ctx x.num = some x →
    let wakes := fun (u : State) => ∀ t, s.thread t.crew t.tid = some t → s.ctxOf t = x.num →
      (t.st = .stopped → t.resume = .running → u.thread t.crew t.tid =
        some { t with st := .running, notBefore := s.cycle + 1, readySince := none })
      ∧ (t.st ≠ .stopped → u.thread t.crew t.tid = some t)
    (x.dhalt = true → (s.resumeCtx x).ctx x.num = some { x with dhalt := false } ∧ wakes (s.resumeCtx x))
    ∧ (∀ st, x.dhalt = false → x.stop = some st → st.kind = .halt →
        s.resumeCtx x = s.setCtx { x with stop := some { st with resumeAsked := true } })
    ∧ (x.dhalt = false → x.stop = none → x.halted = true → (s.resumeCtx x).ctx x.num = some { x with halted := false }
        ∧ (x.saved = false → wakes (s.resumeCtx x)))
    ∧ (x.dhalt = false → x.stop = none → x.halted = false → s.resumeCtx x = s)

/-- R338, R163: from a debug halt on, each thread of the context that runs and stands at a clause boundary stops there, its issued results
and its arithmetic in flight finished; one inside a clause goes on to its end. -/
def Claims.StoppingAtClauseBoundaries : Prop :=
  ∀ (s : State) (t : Thread) (x : Ctx), s.thread t.crew t.tid = some t → s.ctx (s.ctxOf t) = some x → x.dhalt = true → t.st = .running →
    (t.pc.slot = 0 → s.sweepStops.thread t.crew t.tid = some { t.handOver with st := .stopped, resume := .running })
    ∧ (t.pc.slot ≠ 0 → s.sweepStops.thread t.crew t.tid = some t)

/-- R339: DBGSTEP with its MBZ fields zero, in the privileged state: where the selected thread of a debug-halted context is ready, its
bundle's step is the next move; where there is none, it is not debug-halted, or it is not ready, REFUSED is set. A step whose context has
left the debug halt by then, or whose focus is no longer ready, sets REFUSED; one that issues its bundle raises STEPS and clears REFUSED. -/
def Claims.DebugSteps : Prop :=
  ∀ (s s' s1 : State) (t v u : Thread) (c : Crew) (x y : Ctx) (a : RegField) (r : Ready), Solo s (.dbgstep a) t v s' →
    s.crew t.crew = some c → s.ctx c.ctx = some x → x.priv = true →
    let w := (v.rd a).v.toNat
    let issued := fun (s : State) => (s.issueF (t.commit s.cycle) 1 { due := 0 }).done
    let refuses := fun (s : State) n => s.modCtx n (fun z => { z with refused := true })
    let counts := fun (s : State) n => s.modCtx n (fun z => { z with refused := false, steps := (z.steps + 1) % 2 ^ 16 })
    (w / 2 ^ 10 % 2 ^ 21 = 0 → s'.peerCtx v (w / 2 ^ 58) = some y →
      (s'.selected v (v.rd a).v = none ∨ y.dhalt = false → exec (.dbgstep a) s = .next (issued (refuses s' y.num)))
      ∧ (s'.selected v (v.rd a).v = some u → y.dhalt = true →
          (s'.judge u Thread.steppable = (none, s1) → exec (.dbgstep a) s = .next (issued (refuses s1 y.num)))
          ∧ (s'.judge u Thread.steppable = (some r, s1) → r.entry = false →
              exec (.dbgstep a) s = .next (issued { s1 with agenda := .debugStep u.crew u.tid :: s1.agenda }))))
    ∧ (s.inDebugHalt t.crew = false → s.debugStep exec t.crew t.tid = .next (refuses s c.ctx))
    ∧ (s.inDebugHalt t.crew = true →
      (∀ s2, s.pickStep t.crew t.tid = (none, s2) → s.debugStep exec t.crew t.tid = .next (refuses s2 c.ctx))
      ∧ ∀ seed b s2 s3 s4 i, s.pickStep t.crew t.tid = (some (seed :: b), s2) →
          let ks := bundleKeys (seed :: b)
          (s2.letGo ks).openBundle ks seed.pc seed.rep seed.f = .ok (i, s3) → exec i s3 = .next s4 →
          s.debugStep exec t.crew t.tid = .next (counts (s4.stopAgain ks) c.ctx))

/-- R371, R218: PAGEDONE through a tagged pair with PAGER, 32-byte aligned, within its range and not in the scratchpad window, whose record is
reached and not poisoned, has the one event of `pageDone` as its effect, and is in flight; where the walk of that event fails, the thread
does what it does when its own access fails so. Its checks come in R371's order; an action above
2 in B is an illegal-instruction trap. The table's three rows are one word, whose B says which action it is. -/
def Claims.PageDoneCompletes : Prop :=
  ∀ (s s' s2 : State) (t v : Thread) (a b : RegField) (i : Instr) (pa : Nat) (host : Bool),
    i = .pagedoneResume a b ∨ i = .pagedoneMap a b ∨ i = .pagedoneFail a b → Solo s i t v s' →
    let c := v.capAt a
    let w := (v.rd b).v.toNat
    let va := c.cursor
    let traps := fun (tr : Trap) => exec i s = .next (s'.takeTrap (t.commit s.cycle) tr).done
    let ok1 := w ≤ 2
    let ok2 := ok1 ∧ v.tagAt a = true
    let ok3 := ok2 ∧ c.has pPager = true
    let ok4 := ok3 ∧ va < 0xFFFFFFFFFC0000
    let ok5 := ok4 ∧ c.base ≤ va ∧ va + 32 ≤ c.limit
    (¬ok1 → traps { code := 1, detail := v.pc.hdr })
    ∧ (ok1 → ¬ok2 → traps { code := 6, sub := 1, detail := va })
    ∧ (ok2 → ¬ok3 → traps { code := 6, sub := 2, detail := va })
    ∧ (ok3 → ¬ok4 → traps { code := 6, sub := 3, detail := va })
    ∧ (ok4 → ¬ok5 → traps { code := 6, sub := 4, detail := va })
    ∧ (ok5 → va % 32 ≠ 0 → traps { code := 5, detail := va })
    ∧ (ok5 → va % 32 = 0 → s'.reaches t .atomic va 32 true pa host s2 → (s2.store host).anyPoison pa 32 = false →
        (∀ u x, s2.pageDone (s2.ctxOf (t.commit s.cycle)) va pa host w = (.ok (), u) → u.thread t.crew t.tid = some x →
          exec i s = .next ({ u with nextUid := u.nextUid + 1 }.issueL (x.commit u.cycle)
            { id := u.nextUid, flag := none, entry := false, access := true, wait := .ready (u.cycle + 1) }).done)
        ∧ ∀ u f, f ≠ .wait → s2.pageDone (s2.ctxOf (t.commit s.cycle)) va pa host w = (.error f, u) →
          exec i s = .next (u.walkFailed (t.commit s.cycle) va .atomic f).done)

/-- R371, R372: PAGEDONE of an outstanding record completes with one event: its TAG becomes 0, the record is outstanding no longer, and
each agent that joined it goes on (actions 0 and 1) or fails (action 2); action 1 first makes the pager-held leaf of its unit a leaf, and
has no effect where that walk fails. Where the record is no outstanding one of a pager of the queue, nor one that a destroyed context
left, a TAG of 0 among them, there is nothing to do. -/
def Claims.PageDoneResolves : Prop :=
  ∀ (s : State) (c va pa act owner : Nat) (host : Bool) (p : Pager) (r : PRec),
    let m := s.store host
    let target := m.readNat (pa + 8) 8 / 2 ^ 48 % 2 ^ 6
    let unit := m.readNat (pa + 16) 8 % 2 ^ 56
    (m.readNat pa 8 = 0 → s.pageDone c va pa host act = (.ok (), s))
    ∧ (s.recordAt c va (m.readNat pa 8) = none → s.orphanAt c va (m.readNat pa 8) = none → s.pageDone c va pa host act = (.ok (), s))
    ∧ (s.recordAt c va (m.readNat pa 8) = some (owner, p, r) → ∀ mapped : State,
      (∀ f, act = 1 → s.mapHeld target unit = (.error f, mapped) → s.pageDone c va pa host act = (.error f, mapped))
      ∧ ((act = 1 → s.mapHeld target unit = (.ok (), mapped)) → (act ≠ 1 → mapped = s) →
        let freed := mapped.modStore host (fun m => m.engineWrite mapped.now pa (toBytes 8 0) (fun _ => sTimeless))
        let taken := freed.modCtx owner (fun x => { x with pagers := x.pagers.map (fun q =>
          if q.p == p.p then { q with recs := q.recs.filter (fun y => y.n != r.n) } else q) })
        s.pageDone c va pa host act =
          (.ok (), r.joined.foldl (fun s j => if act = 2 then s.failJoined unit j.1 else s.wakeJoined j.1) taken)))

/-- R31, R372: a thread that a resolved record parked runs from the next cycle; one that a failed record parked stays parked until its
task's squash, and its task holds code 0x22 with the faulting unit's address. -/
def Claims.ParkedThreads : Prop :=
  ∀ (s : State) (cr tid p u va : Nat) (t : Thread), s.thread cr tid = some t → t.st = .parked (.pager p u) →
    s.wakeJoined (.thread cr tid) = s.setThread
        { t with st := .running, resumedAt := some s.cycle, notBefore := s.cycle + 1, readySince := none }
    ∧ s.failJoined va (.thread cr tid) = (s.holdFault (s.ctxOf t) (s.taskOf t) { code := 0x22, sub := 0, detail := va }).setThread
        { t with st := .parked .untilSquash }

/-! ### Bulk, counter, egress and lease-count instructions -/

/-- R251, R256: BCOPY, BFILL, BPUT, BGET and each BATOM of a lone thread whose words pass the checks of R252 creates an engine thread that
holds the copy group's registers as they were read; the operation is in flight until that engine thread ends, and D of a BATOM then takes
what the peer returned. Words that fail take the trap that the check names. -/
def Claims.BulkInstructions : Prop :=
  ∀ (s s' : State) (t v : Thread) (i : Instr) (o : BulkOp) (k : EngineKind) (a : RegField) (n : Nat) (d : Option RegField),
    Solo s i t v s' → bulkInstr i = some (o, k, a, n, d) →
    (bulkCheck o a s' v = none →
      exec i s = .next (s'.afterEngine t k ((List.range n).map (v.rdAt a))
        ((d.map (fun f => s'.regOut v f 0#64 sTimeless)).getD []) ((d.map v.tagOut).getD [])))
    ∧ (∀ tr, bulkCheck o a s' v = some tr → exec i s = .next (s'.afterTrap t tr))

/-- R252, R253, R254, R255: the checks of a bulk instruction's words, in their order. A shape word (not consulted by BATOM), then a counter
word, then a peer word of a fabric instruction that breaks its layout is a bulk-operand trap with the word as DETAIL; then a local pair
that is untagged, lacks a permission or does not cover every byte of the shape is a capability fault; then a counter offset that is no
multiple of 8 is the alignment trap; then a counter or shape bytes beyond the scratchpad allocation are the scratchpad trap. -/
def Claims.BulkOperandChecks : Prop :=
  ∀ (s : State) (v : Thread) (o : BulkOp) (a : RegField),
    let w := (v.rdAt a 4).v.toNat
    let ctr := (v.rdAt a 5).v.toNat
    let peer := (v.rdAt a 6).v.toNat
    let rows := w / 2 ^ 50 % 2 ^ 12 + 1
    let rowb := w / 2 ^ 36 % 2 ^ 14 + 1
    let cols := w / 2 ^ 38 % 2 ^ 12 + 1
    let width := 2 ^ (w / 2 ^ 36 % 4)
    let spitch := w / 2 ^ 18 % 2 ^ 18 * 32
    let dpitch := w % 2 ^ 18 * 32
    let mode := w / 2 ^ 62
    let shapeOk := o = .atom ∨ (mode = 0 ∧ w / 2 ^ 38 = 0 ∧ 1 ≤ w ∧ w ≤ 2 ^ 37)
      ∨ (mode = 1 ∧ rowb ≤ dpitch ∧ (o = .fill ∨ rowb ≤ spitch))
      ∨ (mode = 2 ∧ o = .copy ∧ cols * width ≤ spitch ∧ rows * width ≤ dpitch)
    let ctrOk := ctr < 2 ^ 19 ∧ (ctr < 2 ^ 18 → ctr = 0)
    let peerOk := o = .copy ∨ o = .fill ∨ (peer < 2 ^ (if o = .put then 17 else 16) ∧ peer / 2 ^ 6 % 4 = 0)
    let pairOk := fun (f : RegField) (perm : Nat) (r : Rows) => v.tagAt f = true ∧ (v.capAt f).has perm = true
      ∧ ∀ i, i < r.rows → (v.capAt f).base ≤ (v.capAt f).cursor + i * r.pitch ∧ (v.capAt f).cursor + i * r.pitch + r.rowb ≤ (v.capAt f).limit
    let inScr := fun (f : RegField) (r : Rows) => ∀ i, i < r.rows → 0xFFFFFFFFFC0000 ≤ (v.capAt f).cursor + i * r.pitch →
      (v.capAt f).cursor + i * r.pitch - 0xFFFFFFFFFC0000 + r.rowb ≤ s.scratchSize v
    let dst := shapeDst w 0
    let src := shapeSrc w 0
    let pairsOk := (o = .copy → pairOk a 2 dst ∧ pairOk (a + 2#7) 1 src) ∧ (o = .fill → pairOk a 2 dst)
      ∧ (o = .put → pairOk (a + 2#7) 17 src) ∧ (o = .get → pairOk a 18 dst)
    let scrOk := (o = .copy → inScr a dst ∧ inScr (a + 2#7) src) ∧ (o = .fill → inScr a dst) ∧ (o = .put → inScr (a + 2#7) src)
      ∧ (o = .get → inScr a dst)
    let off := ctr % 2 ^ 18
    let used := 2 ^ 18 ≤ ctr
    let r := bulkCheck o a s v
    (¬shapeOk → r = some { code := 0x11, detail := w })
    ∧ (shapeOk → ¬ctrOk → r = some { code := 0x11, detail := ctr })
    ∧ (shapeOk → ctrOk → ¬peerOk → r = some { code := 0x11, detail := peer })
    ∧ (shapeOk → ctrOk → peerOk → ¬pairsOk → ∃ sub detail, r = some { code := 6, sub := sub, detail := detail })
    ∧ (shapeOk → ctrOk → peerOk → pairsOk → used → off % 8 ≠ 0 → r = some { code := 5, detail := off })
    ∧ (shapeOk → ctrOk → peerOk → pairsOk → (used → off % 8 = 0) → ¬(scrOk ∧ (used → off + 8 ≤ s.scratchSize v)) →
        ∃ detail, r = some { code := 7, detail := detail })
    ∧ (shapeOk → ctrOk → peerOk → pairsOk → (used → off % 8 = 0) → scrOk ∧ (used → off + 8 ≤ s.scratchSize v) → r = none)

/-- R258: the packets of a transfer divide its destination: each packet holds bytes of one row that lie in one 4 KiB block, and every byte
of every row lies in exactly one packet. -/
def Claims.PacketsDivideATransfer : Prop :=
  ∀ (r : Rows), 0 < r.rowb →
    (∀ p, p < r.packets → ∃ q, r.piece p = some q ∧ q.row < r.rows ∧ 0 < q.n ∧ q.x + q.n ≤ r.rowb
      ∧ r.pieceVa q = r.va + q.row * r.pitch + q.x ∧ r.pieceVa q / 4096 = (r.pieceVa q + q.n - 1) / 4096)
    ∧ (∀ i x, i < r.rows → x < r.rowb → ∃ p, p < r.packets ∧
        ∀ p', p' < r.packets → ((∃ q, r.piece p' = some q ∧ q.row = i ∧ q.x ≤ x ∧ x < q.x + q.n) ↔ p' = p))

/-- R258, R254, R266: an engine thread with a destination in memory or in the scratchpad that works on a packet, none of whose granules it
has written ahead (R304), whose source bytes it can read and whose destination it can write leaves those bytes there; the packet is done
and, with CEN set, the local counter has risen by the packet's bytes. What it had read ahead for the packet is of no more use. R262: the
bytes of a BFILL packet are the pattern's by address, each with the pattern's stamp. -/
def Claims.EnginePackets : Prop :=
  ∀ (s s2 s3 : State) (e p : Nat) (x : Engine) (q : Piece) (l : List (Byte × Stamp)),
    s.engine e = some x → s.packetReady x p = true → (s.planOf x).rows.piece p = some q → (s.planOf x).dst = .memory →
    (∀ w ∈ s.wrote, w.1 ≠ .packet e p) →
    s.pieceBytes x p (s.planOf x) q = (.ok l, s2) →
    let va := (s.planOf x).rows.pieceVa q
    let completes := exec (.enginePacket e p) s = .next
      (({ s3 with early := s3.early.filter (fun y => y.1 != Joiner.packet e p) }.setEngine { x with done := x.done ++ [p] }).localAdd x q.n)
    (x.kind ≠ .tfill → (∀ y, (s.planOf x).src ≠ .taken y) → s2.engPut x.ctx x.crew va l = (.ok (), s3) → completes)
    ∧ (x.kind = .tfill → s2.fillPut x.ctx va (s.planOf x).rows (l.map (fun y => y.1)) = (.ok (), s3) → completes)
    ∧ (x.kind = .bfill → s2 = s ∧ ∀ j, j < q.n → l[j]? = some
        (BitVec.ofNat 8 (x.word 2 / 256 ^ ((va + j) % 8)), (x.words.getD 2 Reg.zero).s))

/-- R141, R257, R260, R332, R204: an operation that may complete writes its results for its thread and lowers its flag, and the translations
that a TLBINV named are no longer cached. The operations of one rendezvous complete together. An engine thread of a thread
whose packets are all done, and which stages nothing, ends: it is no longer there and its operation completes. One that has failed ends
likewise, with no result. -/
def Claims.OperationsComplete : Prop :=
  ∀ (s : State) (cr tid id e : Nat) (t : Thread) (op : LOp), s.thread cr tid = some t →
    t.lops.find? (fun x => x.id == id) = some op →
    let done := fun (t : Thread) (op : LOp) => { (t.commit s.cycle).completes op with doneAt := s.cycle }
    (s.lopReady t op = true → op.group = none →
      ((∀ l gone, op.wait ≠ .accesses l gone) → exec (.longLatencyComplete cr tid id) s = .next (s.setThread (done t op)))
      ∧ ∀ l gone, op.wait = .accesses l gone → exec (.longLatencyComplete cr tid id) s = .next { s.setThread (done t op) with
          tlb := s.tlb.filter (fun x => !gone.contains (x.ctx, x.level, x.vpn)) })
    ∧ (∀ g, s.lopReady t op = true → op.group = some g → (s.threads.map (fun y => (y.crew, y.tid))).Nodup → ∃ u,
        exec (.longLatencyComplete cr tid id) s = .next u
        ∧ ∀ t2 op2, s.thread cr t2.tid = some t2 → t2.lops.filter (fun x => x.group == some g) = [op2] →
            t2.lops.find? (fun x => x.id == op2.id) = some op2 → u.thread cr t2.tid = some (done t2 op2))
    ∧ (∀ x c, s.engine e = some x → x.crew = some cr → x.tid = tid → x.lop = some id → s.ctx x.ctx = some c → op.wait = .engine e →
        let gone := { s with engines := s.engines.filter (fun y => y.uid != x.uid) }
        (x.failed = false → c.unitRuns x.unit = true → (s.planOf x).rows.packets ≤ x.done.length → (s.planOf x).dst ≠ .staged →
          exec (.engineComplete e) s = .next (gone.setThread (done t op)))
        ∧ (x.failed = true →
          exec (.engineComplete e) s = .next (gone.setThread (done t { op with regs := [], tags := [] }))))

/-- R266, R267, R268: ACTR at an offset that is a multiple of 8 inside the allocation and not poisoned lowers the counter by B and returns
the new value; the granule's stamp is as it was. WAITC lets the thread go on where the counter, read as signed, is at or above B, and else
holds it at the instruction; a held one does the same when it reads again after a write of the granule. -/
def Claims.ArrivalCounters : Prop :=
  ∀ (s s' : State) (t v : Thread) (c : Crew) (d a b : BitVec 7), s.crew t.crew = some c →
    let off := (v.rd a).v.toNat
    let counter := c.scr.readNat off 8
    let new := BitVec.ofNat 64 counter - (v.rd b).v
    let u := t.commit s.cycle
    let fits := off % 8 = 0 ∧ off + 8 ≤ c.scrSize
    (Solo s (.actr d a b) t v s' → fits → c.scr.anyPoison off 8 = false → ∃ m : Memory,
      exec (.actr d a b) s = .next ((s'.setCrew { c with scr := m }).afterL t
        { id := 0, flag := none, entry := false, access := true, wait := .ready (s.cycle + 1)
          regs := s.regOut v d new sTimeless, tags := v.tagOut d })
      ∧ (c.scr.wf = true → m.readNat off 8 = new.toNat ∧ (∀ x, x < off ∨ off + 8 ≤ x → m.byte x = c.scr.byte x)
        ∧ ∀ g, m.stamp g = c.scr.stamp g))
    ∧ (Solo s (.waitc a b) t v s' → t.st = .running → fits → c.scr.anyPoison off 8 = false →
      (toSigned 64 (v.rd b).v.toNat ≤ toSigned 64 counter → exec (.waitc a b) s = .next (s'.afterThread
        { u.advance s.cycle 1 with st := .running, notBefore := s.cycle + 1, lastIssue := some s.cycle }))
      ∧ (toSigned 64 counter < toSigned 64 (v.rd b).v.toNat → exec (.waitc a b) s = .next (s'.afterThread
        { u with st := .held (.waitc off (v.rd b).v (some (c.scr.writeCount off 8))), lastIssue := some s.cycle, readySince := none })))
    ∧ (∀ i : Instr, i = .actr d a b ∨ i = .waitc a b → Solo s i t v s' →
      (off % 8 ≠ 0 → exec i s = .next (s'.afterTrap t { code := 5, detail := off }))
      ∧ (off % 8 = 0 → c.scrSize < off + 8 → exec i s = .next (s'.afterTrap t { code := 7, detail := off })))
    ∧ (∀ cr tid o target seen, s.thread cr tid = some t → t.st = .held (.waitc o target seen) →
      seen ≠ some (c.scr.writeCount o 8) → c.scr.anyPoison o 8 = false →
      (toSigned 64 target.toNat ≤ toSigned 64 (c.scr.readNat o 8) → exec (.waitcReread cr tid) s = .next (s.setThread
        { u.advance s.cycle 1 with st := .running, notBefore := s.cycle + 1, lastIssue := t.lastIssue }))
      ∧ (toSigned 64 (c.scr.readNat o 8) < toSigned 64 target.toNat → exec (.waitcReread cr tid) s = .next (s.setThread
        { u with st := .held (.waitc o target (some (c.scr.writeCount o 8))), readySince := none })))

/-- R269: ACTRD with B[63] clear binds tag B[7:0] to the crew's counter at offset A, where no other crew holds the tag, the checks of that
offset coming first; with B[63] set it
unbinds a tag that the crew holds. A tag that another crew holds, a tag not held, or a set bit of B[62:8] is the bulk-operand trap. -/
def Claims.DeliveryTags : Prop :=
  ∀ (s s' : State) (t v : Thread) (c : Crew) (x : Ctx) (i : Instr) (a b : BitVec 7),
    i = .actrdBind a b ∨ i = .actrdUnbind a b → Solo s i t v s' → s.crew t.crew = some c → s.ctx c.ctx = some x →
    let w := (v.rd b).v
    let n := w.toNat % 2 ^ 8
    let off := (v.rd a).v.toNat
    let owner := (x.dtags.find? (fun g => g.tag == n)).map (fun g => g.crew)
    let others := x.dtags.filter (fun g => g.tag != n)
    let leaves := fun (l : List DTag) => exec i s = .next ((s'.setCtx { x with dtags := l }).afterL t
      { id := 0, flag := none, entry := false, wait := .ready (s.cycle + 1) })
    let traps := exec i s = .next (s'.afterTrap t { code := 0x11, detail := w.toNat })
    let bitsOk := w.toNat / 2 ^ 8 % 2 ^ 55 = 0
    let fits := off % 8 = 0 ∧ off + 8 ≤ c.scrSize
    (w.getLsbD 63 = false → off % 8 ≠ 0 → exec i s = .next (s'.afterTrap t { code := 5, detail := off }))
    ∧ (w.getLsbD 63 = false → off % 8 = 0 → c.scrSize < off + 8 → exec i s = .next (s'.afterTrap t { code := 7, detail := off }))
    ∧ (¬bitsOk → w.getLsbD 63 = true ∨ fits → traps)
    ∧ (bitsOk → w.getLsbD 63 = false → fits →
        (owner = none ∨ owner = some t.crew → leaves (others ++ [{ tag := n, crew := t.crew, off := off }]))
        ∧ (∀ k, owner = some k → k ≠ t.crew → traps))
    ∧ (bitsOk → w.getLsbD 63 = true → (owner = some t.crew → leaves others) ∧ (owner ≠ some t.crew → traps))

/-- R273: SEND through an open port of kind 1 or 2, with a send word whose fields are in range, a record that fits the ring (kind 1), a
pair with LOAD and SEND that covers LENGTH bytes from its cursor, and a counter that fits, creates an engine thread with the word and the
pair. A bad word, a closed port or one of another kind (SUB 1), and a record longer than the ring are bulk-operand traps. -/
def Claims.EgressSends : Prop :=
  ∀ (s s' : State) (t v : Thread) (c : Crew) (x : Ctx) (d a : BitVec 7) (k : BitVec 6), Solo s (.send d a k) t v s' →
    s.crew t.crew = some c → s.ctx c.ctx = some x →
    let w := (v.rd d).v.toNat
    let n := w % 2 ^ 25
    let off := w / 2 ^ 32 % 2 ^ 18
    let used := w / 2 ^ 50 % 2 = 1
    let cap := v.capAt a
    let port := x.ports.find? (fun p => p.n == k.toNat)
    let wordOk := w < 2 ^ 51 ∧ w / 2 ^ 25 % 2 ^ 7 = 0 ∧ (¬used → off = 0) ∧ 1 ≤ n ∧ n ≤ 2 ^ 24
    let traps := fun (sub : Nat) => exec (.send d a k) s = .next (s'.afterTrap t { code := 0x11, sub := sub, detail := w })
    let ring := fun (p : Port) => 2 ^ ((p.desc.getD 1 0#64).toNat % 2 ^ 5)
    let record := (16 + n + 31) / 32 * 32
    (¬wordOk → traps 0)
    ∧ (wordOk → port = none → traps 1)
    ∧ (∀ p, wordOk → port = some p → p.kind ≠ 1 → p.kind ≠ 2 → traps 1)
    ∧ (∀ p, wordOk → port = some p → p.kind = 1 → ring p < record → traps 0)
    ∧ (∀ p, wordOk → port = some p → (p.kind = 1 ∧ record ≤ ring p) ∨ p.kind = 2 → v.tagAt a = true → cap.has 17 = true →
        cap.base ≤ cap.cursor → cap.cursor + n ≤ cap.limit → (used → off % 8 = 0 ∧ off + 8 ≤ c.scrSize) →
        (0xFFFFFFFFFC0000 ≤ cap.cursor → cap.cursor - 0xFFFFFFFFFC0000 + n ≤ c.scrSize) →
        exec (.send d a k) s = .next (s'.afterEngine t (.send k.toNat) [v.rd d, v.rdAt a 0, v.rdAt a 1] [] []))

/-- R276, R390: LEASEQ writes the channel counts between the package and peer K, TIMELESS: BASE in bit 48, PEND, RX and TX below it, with no
rotation running; 0 for the package itself and for a peer that is not present. -/
def Claims.LeaseCounts : Prop :=
  ∀ (s s' : State) (t v : Thread) (d : BitVec 7) (k : BitVec 6), Solo s (.leaseq d k) t v s' →
    let q := k.toNat
    let f := s'.fab
    let gives := fun (w : Word) => exec (.leaseq d k) s = .next (s'.afterL t
      { id := 0, flag := none, entry := false, wait := .ready (s.cycle + 1), regs := s'.regOut v d w sTimeless, tags := v.tagOut d })
    let active := fun (l : List Chan) => (l.filter (fun c => c.peer == q && c.st == .active)).length
    let up := match f.links.find? (fun l => l.peer == q) with
      | some l => l.up
      | none => false
    let pend := ((f.requests.find? (fun r => r.peer == q)).map (fun r => r.want)).getD 0
      + (f.txc.filter (fun c => c.peer == q && c.st == .retune true)).length
    (q = s'.devid ∨ f.present.contains q = false → gives 0#64)
    ∧ (s'.agreed 2 = true → q ≠ s'.devid → f.present.contains q = true → f.rotating = false →
        gives (BitVec.ofNat 64 ((if up then 2 ^ 48 else 0) + pend % 2 ^ 10 * 2 ^ 32 + active f.rxc % 2 ^ 10 * 2 ^ 16 + active f.txc % 2 ^ 10)))

/-! ### Matrix engine and update unit -/

/-- R277, R278, R280, R281, R288 to R291: of a crew with an accumulator allotment, MSWAP and MSTAT, MZERO and MSCALE with a tile word that
keeps its layout, names a tile in the allotment and has an EXP other than -128, and MREAD of 8, 16 or 32 bytes at a multiple of their
number inside the allotment each enter the crew's queue with the register that they read; the thread's operation waits for the command.
A word that breaks these, and a crew without an allotment, are the matrix-operand trap. -/
def Claims.MatrixCommandsEnterTheQueue : Prop :=
  ∀ (s s' : State) (t v : Thread) (c : Crew) (h : Cohort) (ty : BitVec 3) (k : BitVec 1) (d a : BitVec 7),
    s.crew t.crew = some c → s.cohort c.cohort = some h →
    let acc := h.accBytes
    let w := (v.rd a).v.toNat
    let n := if ty = 0#3 then 8 else if ty = 1#3 ∨ ty = 2#3 then 16 else 32
    let dn := if d = 127#7 then none else some (v.phys d)
    let traps := fun (i : Instr) => exec i s = .next (s'.takeTrap (t.commit s.cycle) { code := 0x10, detail := w }).done
    (0 < acc →
      (Solo s .mswap t v s' → exec .mswap s = .next (s'.afterCommand t v c .mswap [v.rd 127#7] [] none))
      ∧ (Solo s (.mstat k d) t v s' → exec (.mstat k d) s = .next (s'.afterCommand t v c (.mstat k d) [v.rd 127#7] [] dn))
      ∧ (∀ i, i = .mzero a ∨ i = .mscale a → Solo s i t v s' →
        (TileWordOk w acc ∧ w / 2 ^ 56 ≠ 128 → exec i s = .next (s'.afterCommand t v c i [v.rd a] [] none))
        ∧ (¬(TileWordOk w acc ∧ w / 2 ^ 56 ≠ 128) → traps i))
      ∧ (Solo s (.mread ty d a) t v s' → ty.toNat ∈ [0, 1, 2, 4, 5] →
        (w % n = 0 ∧ w + n ≤ acc → exec (.mread ty d a) s = .next (s'.afterCommand t v c (.mread ty d a) [v.rd a] [] dn))
        ∧ (¬(w % n = 0 ∧ w + n ≤ acc) → traps (.mread ty d a))))
    ∧ (acc = 0 → ∀ i, i = .mswap ∨ i = .mstat k d ∨ i = .mzero a ∨ i = .mscale a ∨ i = .mread ty d a ∨ i = .mnorm a →
        Solo s i t v s' → ∃ (s2 : State) (detail : Nat), s2 = { s' with freeCtr := s2.freeCtr } ∧
          exec i s = .next (s2.takeTrap (t.commit s.cycle) { code := 0x10, detail := detail }).done)

/-- R292, R278: MNORM and MDRAIN whose tile word, update word, step, decay and bound keep their layout and limits, with a weight capability
(LOAD, and STORE for MDRAIN) that covers M rows of 128 weights from a cursor that is a multiple of 32, and a cell capability (ATOMIC for
MNORM; LOAD for MDRAIN, with ATOMIC for AMX) that covers 12 bytes from a multiple of 16, both below the scratchpad window, enter the
crew's queue with the seven registers of their group. An offending word is the matrix-operand trap. -/
def Claims.UpdateCommandsEnterTheQueue : Prop :=
  ∀ (s s' : State) (t v : Thread) (c : Crew) (h : Cohort) (i : Instr) (a : BitVec 7) (z : BitVec 1),
    s.crew t.crew = some c → s.cohort c.cohort = some h → 0 < h.accBytes → i = .mnorm a ∨ i = .mdrain a z → Solo s i t v s' →
    let tile := (v.rdAt a 5).v.toNat
    let upd := (v.rdAt a 6).v.toNat
    let sd := (v.rdAt a 4).v.toNat
    let width := if upd / 2 ^ 24 % 4 = 0 then 4 else 2
    let pitch := upd % 2 ^ 24
    let finite := fun (x : Nat) => x / 2 ^ 23 % 2 ^ 8 ≠ 255
    let wordsOk := TileWordOk tile h.accBytes ∧ upd / 2 ^ 30 % 4 = 0 ∧ upd / 2 ^ 24 % 4 ≠ 3 ∧ pitch % 32 = 0 ∧ 128 * width ≤ pitch
      ∧ finite (sd / 2 ^ 32) ∧ finite (sd % 2 ^ 32)
      ∧ (upd / 2 ^ 27 % 2 = 1 → finite (upd / 2 ^ 32) ∧ 0 < upd / 2 ^ 32 ∧ upd / 2 ^ 32 < 2 ^ 31)
    let drain := i ≠ .mnorm a
    let wcap := v.capAt a
    let ccap := v.capAt (a + 2#7)
    let wperm := if drain then 3 else 1
    let cperm := if drain then (if upd / 2 ^ 26 % 2 = 1 then 9 else 1) else 8
    let weightsOk := v.tagAt a = true ∧ wcap.has wperm = true ∧ wcap.cursor < 0xFFFFFFFFFC0000 ∧ wcap.cursor % 32 = 0
      ∧ ∀ m, m < tile / 2 ^ 39 % 2 ^ 10 + 1 → wcap.base ≤ wcap.cursor + m * pitch ∧ wcap.cursor + m * pitch + 128 * width ≤ wcap.limit
    let cellOk := v.tagAt (a + 2#7) = true ∧ ccap.has cperm = true ∧ ccap.cursor < 0xFFFFFFFFFC0000 ∧ ccap.cursor % 16 = 0
      ∧ ccap.base ≤ ccap.cursor ∧ ccap.cursor + 12 ≤ ccap.limit
    (wordsOk → weightsOk → cellOk → exec i s = .next (s'.afterCommand t v c i ((List.range 7).map (v.rdAt a))
        [(0, v.capAt a), (1, v.capAt (a + 2#7))] none))
    ∧ (¬wordsOk → ∃ w, (w = tile ∨ w = upd ∨ w = sd)
        ∧ exec i s = .next (s'.takeTrap (t.commit s.cycle) { code := 0x10, detail := w }).done)
    ∧ (wordsOk → ¬weightsOk ∨ ¬cellOk → ∃ tr : Trap, (tr.code = 6 ∨ tr.code = 5)
        ∧ exec i s = .next (s'.takeTrap (t.commit s.cycle) tr).done)

/-- R282, R286, R284: MLOAD whose source capability passes the checks over every byte that the lane reads, and MSTREAM, of a crew with an
accumulator allotment and a lane in its own mask, join the rendezvous of their team with the registers on which they vote; then what the
end of the cycle evaluates is evaluated. -/
def Claims.MatrixCollectivesJoin : Prop :=
  ∀ (s s' : State) (t v : Thread) (c : Crew) (h : Cohort) (a : BitVec 7),
    s.crew t.crew = some c → s.cohort c.cohort = some h → 0 < h.accBytes →
    let joins := fun (i : Instr) (sel : Nat) (c3 : Reg) => exec i s = .next ((s'.afterJoin i t v c
      { tid := t.tid, a := v.rdAt a 0, b := v.rdAt a 1, c := c3, bound := v.bound sel, d := none, flag := none }).settle).done
    let notIn := fun (i : Instr) => exec i s = .next (s'.takeTrap (t.commit s.cycle) { code := 8, detail := v.xmask.toNat }).settle.done
    (Solo s (.mload a) t v s' →
      (v.xmask.getLsbD v.lane = true → mloadCheck a s' v = none → joins (.mload a) ((v.rdAt a 2).v.toNat / 2 ^ 4 % 8) (v.rdAt a 2))
      ∧ (v.xmask.getLsbD v.lane = false → notIn (.mload a)))
    ∧ (Solo s (.mstream a) t v s' →
      (v.xmask.getLsbD v.lane = true → joins (.mstream a) ((v.rdAt a 1).v.toNat / 2 ^ 49 % 8) Reg.zero)
      ∧ (v.xmask.getLsbD v.lane = false → notIn (.mstream a)))

/-- R284: when the rendezvous of an MLOAD or MSTREAM completes, joined lanes that disagree on a register they vote on all take the
format-divergence trap, and where they agree on a word that breaks its layout or limits they all take the matrix-operand trap; nothing
enters the queue. Otherwise one command enters it, for the joined lanes. -/
def Claims.MatrixCollectivesVote : Prop :=
  ∀ (s : State) (cr : Nat) (c : Crew) (h : Cohort) (r : Rdv) (j0 : RJoin), s.crew cr = some c → s.cohort c.cohort = some h →
    s.rdvComplete cr r = true → r.joins.find? (fun j => r.joins.all (fun k => j.tid ≤ k.tid)) = some j0 →
    let word := fun (j : RJoin) => match r.instr with
      | .mload _ => (j.c.v, 0#64)
      | _ => (j.a.v, j.b.v)
    let bad := match r.instr with
      | .mload _ => if fmtWordBad j0.c.v then some j0.c.v else none
      | _ => streamBad j0.a.v j0.b.v c.scrSize h.accBytes
    let s1 := s.setCrew { c with rdvs := c.rdvs.filter (fun x => x.id != r.id) }
    let allTrap := fun (tr : Trap) => s.settleRdv cr r = r.joins.foldl (fun s j => s.joinTrap cr r.pc j tr) s1
    (∃ a, r.instr = .mload a ∨ r.instr = .mstream a) →
    ((∃ j ∈ r.joins, word j ≠ word j0) → allTrap { code := 0x0F, detail := (laneMask r.joins (fun _ => true)).toNat })
    ∧ ((∀ j ∈ r.joins, word j = word j0) → ∀ w, bad = some w → allTrap { code := 0x10, detail := w.toNat })
    ∧ ((∀ j ∈ r.joins, word j = word j0) → bad = none →
        ∃ (c' : Crew) (m : MCmd), (s.settleRdv cr r).crew cr = some c' ∧ c'.mq = enterQueue m c.mq ∧ m.instr = r.instr ∧ m.tid = j0.tid
          ∧ m.words = [j0.a, j0.b, j0.c] ∧ m.issuers.map (fun p => p.1) = r.joins.map (fun j => j.tid) ∧ m.done = 0)

/-- R279, R285, R287, R288, R290, R291: the matrix engine of a cluster takes one step of the next crew's command. MSWAP exchanges the
planes; MSTAT gives the status word and with CLR clears MF; MREAD gives 8 bytes as they are, or
four or eight elements converted to its type; MZERO makes the tile's header and leaves
each of its elements +0 in VACANT granules; a step of MSTREAM whose tile has the command's exponent leaves in each element of its rows
the sum of the old one and the tree over the row's products, rounded to F32. With no command that it can start, it does nothing. -/
def Claims.MatrixEngineSteps : Prop :=
  ∀ (s : State) (cluster : Nat) (c : Crew) (m : MCmd) (h : Cohort),
    let next := nextServed (AList.get 0 cluster s.matNext) (s.served cluster false)
    let s1 := { s with matNext := AList.put 0 cluster (32 * c.core + c.slot + 1) s.matNext }
    let w := (m.words.getD 0 Reg.zero).v
    let sw := (m.words.getD 1 Reg.zero).v
    let gives := fun (t : State) => exec (.matrixStep cluster) s = .next t
    let result := fun (v : Word) (st : Stamp) (x : LOp) => match m.dreg with
      | none => x
      | some d => { x with regs := [(d, { v := v, s := st })], tags := [(d / 2, false)] }
    let elem := fun (off i n : Nat) => off + 512 * (i + 1) + 4 * n
    (next = none → gives s)
    ∧ (next = some (c, m) → s.cohort c.cohort = some h → s.crew c.uid = some c →
      (m.instr = .mswap → gives (s1.afterDone { c with active := c.shadow, shadow := c.active } m id))
      ∧ (∀ k d, m.instr = .mstat k d → gives (s1.afterDone (if k = 1#1 then { c with mf := 0#6 } else c) m
          (result (BitVec.ofNat 64 (c.shadow.fmt * 2 ^ 12 + c.active.fmt * 2 ^ 8 + c.mf.toNat)) sTimeless)))
      ∧ (∀ d a, m.instr = .mread 0#3 d a → h.acc.anyPoison w.toNat 8 = false → ∀ r, m.dreg = some r →
          ∃ f : LOp → LOp, gives (s1.afterDone c m f) ∧ ∀ x, f x = { x with
            regs := [(r, { v := BitVec.ofNat 64 (h.acc.readNat w.toNat 8), s := clampStamp s.now (combineList (h.acc.stampsOf w.toNat 8)) })]
            tags := [(r / 2, false)] })
      ∧ (∀ ty d a, m.instr = .mread ty d a → ty.toNat ∈ [1, 2, 4, 5] → h.acc.anyPoison w.toNat (mreadBytes ty) = false → ∀ r, m.dreg = some r →
          let f := fmtOf ty.toNat
          ∃ (o : Word) (fl : BitVec 6), gives (s1.afterDone c m (fun x => { x with
              regs := [(r, { v := o, s := clampStamp s.now (combineList (h.acc.stampsOf w.toNat (mreadBytes ty))) })]
              tags := [(r / 2, false)]
              fset := x.fset ||| fl }))
            ∧ ∀ j, j < f.n → elem f.w o.toNat j = (convert fmtF32 f
                { mode := rmodeOf m.fpmode.toNat, ovn := m.fpmode.getLsbD 3, idx := (m.tid % 32 * f.n + j) % 64 + m.phase }
                (h.acc.readNat (w.toNat + 4 * j) 4)).v % 2 ^ f.w)
      ∧ (∀ a, m.instr = .mzero a → h.acc.wf = true → ∃ acc : Memory, gives ((s1.setCohort { h with acc := acc }).afterDone c m id)
          ∧ acc.wf = true
          ∧ acc.readNat (wordTile w) 8 = 2 ^ 18 + (wordRows w - 1) * 2 ^ 8 + w.toNat / 2 ^ 56
          ∧ (∀ i n, i < wordRows w → n < 128 → acc.readNat (elem (wordTile w) i n) 4 = 0
              ∧ acc.stamp (elem (wordTile w) i n / 32) = sVacant)
          ∧ ∀ b, b < wordTile w ∨ wordTile w + 512 * (wordRows w + 1) ≤ b → acc.byte b = h.acc.byte b)
      ∧ (∀ a, m.instr = .mstream a → h.acc.wf = true →
          let off := w.toNat
          let scr := s1.scrSeen c m.id
          let tile := wordTile sw
          let rows := min 128 (wordRows sw - m.done)
          let runs := (List.range rows).map (fun i => (off + (m.done + i) * swPitch sw, 128 * swWidth sw))
          let header := h.acc.readNat tile 8
          (m.done = 0 → header / 2 ^ 18 % 2 = 1 ∧ header / 2 ^ 8 % 2 ^ 10 + 1 = wordRows sw) → header % 2 ^ 8 = sw.toNat / 2 ^ 56 →
          sw.toNat / 2 ^ 49 % 8 = 0 → runs.any (fun r => scr.anyPoison r.1 r.2) = false →
          h.acc.anyPoison tile (512 * (wordRows sw + 1)) = false →
          ∃ (acc : Memory) (fl : BitVec 6),
            gives (let s2 := s1.setCohort { h with acc := acc }
              if m.done + rows = wordRows sw then s2.afterDone { c with mf := c.mf ||| fl } m id
              else s2.setCrew { c with
                mf := c.mf ||| fl, mq := c.mq.map (fun x => if x.id == m.id then { x with done := m.done + rows } else x) })
            ∧ acc.wf = true
            ∧ (∀ i n, m.done ≤ i → i < m.done + rows → n < 128 →
                let xs := (List.range 128).map (fun k => (fmtOf (swFmt sw)).decode (scr.readNat (off + i * swPitch sw + k * swWidth sw) (swWidth sw)))
                let tree := (dotTree xs ((List.range 128).map (fun k => c.active.at k n))).1
                acc.readNat (elem tile i n) 4
                  = (fmtF32.add rcRne (fmtF32.decode (h.acc.readNat (elem tile i n) 4)) tree).v % 2 ^ 32)
            ∧ ∀ b, b < elem tile m.done 0 ∨ elem tile (m.done + rows) 0 ≤ b → acc.byte b = h.acc.byte b))

/-- R282, R277: an MLOAD whose reads succeed and whose words name no age bound leaves in the shadow plane the rows of the joined lanes, each
lane supplying rows 4l to 4l + 3, and zero in every other row; the plane stamp is the combine of the stamps of all that was read, the
format the one of the format word; the engine's flags go to MF. -/
def Claims.WeightLoads : Prop :=
  ∀ (s s2 : State) (cluster : Nat) (c : Crew) (m : MCmd) (h : Cohort) (a : BitVec 7) (rs : List LaneRows),
    nextServed (AList.get 0 cluster s.matNext) (s.served cluster false) = some (c, m) → m.instr = .mload a →
    s.cohort c.cohort = some h →
    let fw := (m.words.getD 2 Reg.zero).v
    let s1 := { s with matNext := AList.put 0 cluster (32 * c.core + c.slot + 1) s.matNext }
    State.readLanes c.ctx c.uid m.id fw m.srcs s1 = (.ok rs, s2) → s2.crew c.uid = some c → fw.toNat / 2 ^ 4 % 8 = 0 →
    (rs.map (fun r => r.lane)).Nodup → (∀ r ∈ rs, r.lane < 32 ∧ r.rows.length = 4 ∧ ∀ l ∈ r.rows, l.length = 128) →
    ∃ p : Plane, exec (.matrixStep cluster) s = .next (s2.afterDone { c with shadow := p, mf := c.mf ||| fUnion (rs.map (fun r => r.fl)) } m id)
      ∧ p.s = clampStamp s2.now (combineList (rs.flatMap (fun r => r.stamps))) ∧ p.fmt = fw.toNat % 8
      ∧ (∀ r ∈ rs, ∀ i n, i < 4 → n < 128 → p.at (4 * r.lane + i) n = (r.rows.getD i []).getD n (.fin false 0 0))
      ∧ (∀ k n, k < 128 → n < 128 → (∀ r ∈ rs, r.lane ≠ k / 4) → p.at k n = .fin false 0 0)

/-- R137, R289: MSCALE of a live tile of the named rows that holds no poison multiplies each of its finite nonzero elements by 2^k, k being
the new exponent less the old one, each rounded once to F32, and writes the new exponent to the header; the granules of the elements keep
their stamps. A tile that is not live, or has other rows, is a matrix fault of the task, code 0x25 SUB 0. -/
def Claims.TileRescale : Prop :=
  ∀ (s : State) (cluster : Nat) (c : Crew) (m : MCmd) (h : Cohort) (a : BitVec 7),
    nextServed (AList.get 0 cluster s.matNext) (s.served cluster false) = some (c, m) → m.instr = .mscale a →
    s.cohort c.cohort = some h → s.crew c.uid = some c → h.acc.wf = true →
    let s1 := { s with matNext := AList.put 0 cluster (32 * c.core + c.slot + 1) s.matNext }
    let w := (m.words.getD 0 Reg.zero).v
    let off := wordTile w
    let rows := wordRows w
    let header := h.acc.readNat off 8
    let live := header / 2 ^ 18 % 2 = 1 ∧ header / 2 ^ 8 % 2 ^ 10 + 1 = rows
    let elem := fun (i n : Nat) => off + 512 * (i + 1) + 4 * n
    let k := toSigned 8 (w.toNat / 2 ^ 56) - toSigned 8 (header % 2 ^ 8)
    (live → h.acc.anyPoison off (512 * (rows + 1)) = false → k ≠ 0 →
      ∃ (acc : Memory) (fl : BitVec 6),
        exec (.matrixStep cluster) s = .next ((s1.setCohort { h with acc := acc }).afterDone { c with mf := c.mf ||| fl } m id)
        ∧ acc.readNat off 8 = 2 ^ 18 + (rows - 1) * 2 ^ 8 + w.toNat / 2 ^ 56
        ∧ (∀ i n, i < rows → n < 128 → acc.readNat (elem i n) 4 = (rescaleElem (h.acc.readNat (elem i n) 4) k).v % 2 ^ 32
            ∧ acc.stamp (elem i n / 32) = h.acc.stamp (elem i n / 32))
        ∧ ∀ b, b < off ∨ off + 512 * (rows + 1) ≤ b → acc.byte b = h.acc.byte b)
    ∧ (¬live → exec (.matrixStep cluster) s =
        .next ((s1.holdFault c.ctx c.task { code := 0x25, sub := 0, detail := w.toNat }).afterDone c m id))

/-- R293, R294, R295: the update unit of a cluster processes the tile of the next crew's command, none of whose writes has been made
ahead. MNORM adds the two norms to its cells, with the combine of the stamps of all that it read. MDRAIN reads its cells first: if they
hold a NaN, an infinity or a number below -0 it sets MF.NV and writes nothing; else it writes the new weights as WEIGHT data of this tick,
with AMX the greatest magnitude to its cell, and with .zt zeros to the tile. The step factor f of a drain: MODE 0 gives
η * sqrt(wn2) * rsqrt(un2) where both cells are above zero, MODE 1 gives η * c where c = BND * rsqrt(un2) is below 1, and η else, each
operation rounded to F32. -/
def Claims.UpdateUnitSteps : Prop :=
  ∀ (s : State) (cluster : Nat) (c : Crew) (m : MCmd) (h : Cohort),
    let next := nextServed (AList.get 0 cluster s.updNext) (s.served cluster true)
    let s1 := { s with updNext := AList.put 0 cluster (32 * c.core + c.slot + 1) s.updNext }
    let tile := (m.words.getD 5 Reg.zero).v
    let upd := (m.words.getD 6 Reg.zero).v
    let sd := (m.words.getD 4 Reg.zero).v
    let off := wordTile tile
    let rows := wordRows tile
    let base := ((m.srcs.getD 0 (0, { lo := 0#64, hi := 0#64 })).2).cursor
    let cell := ((m.srcs.getD 1 (0, { lo := 0#64, hi := 0#64 })).2).cursor
    let header := h.acc.readNat off 8
    let gives := fun (t : State) => exec (.updateStep cluster) s = .next t
    let decode := fmtF32.decode
    (next = none → gives s)
    ∧ (next = some (c, m) → m.ready = false → s.cohort c.cohort = some h →
      header / 2 ^ 18 % 2 = 1 → header / 2 ^ 8 % 2 ^ 10 + 1 = rows →
      let e := toSigned 8 (header % 2 ^ 8)
      let runs := (weightRuns tile upd).map (fun r => (base + r.1, r.2))
      let whole := h.acc.anyPoison off (512 * (rows + 1)) = false
      (∀ a s2 s3 read cl, m.instr = .mnorm a → State.cmdReadAll c.ctx c.uid m.id runs s1 = (.ok read, s2) →
        s2.devMap c.ctx .atomic cell 8 = (.ok cl, s3) → s3.segPoison cl = none → whole → s3.crew c.uid = some c →
        let norms := tileNorms (sd.toNat / 2 ^ 32) (numbered (fun i r => (gradRow h.acc off i e, weightRow upd r.1)) read)
        let st := combineList (h.acc.stampsOf off (512 * (rows + 1)) ++ read.flatMap (fun r => r.2))
        let pa := (cl.headD { pa := 0, n := 0, host := false }).pa
        let r1 := fmtF32.add rcRne (decode (s3.mem.readNat pa 4)) (decode norms.1.v)
        let m1 := s3.mem.store s3.now pa (toBytes 4 r1.v) st
        let r2 := fmtF32.add rcRne (decode (m1.readNat (pa + 4) 4)) (decode norms.2.v)
        gives (({ s3 with mem := m1.store s3.now (pa + 4) (toBytes 4 r2.v) st } : State).afterDone
          { c with mf := c.mf ||| (norms.1.fl ||| norms.2.fl) ||| r1.fl ||| r2.fl } m id))
      ∧ (∀ a z s2 cl, m.instr = .mdrain a z → s1.devMap c.ctx .load cell 8 = (.ok cl, s2) → s2.segPoison cl = none →
        let wn2 := ofBytes ((s2.segBytes cl).take 4)
        let un2 := ofBytes ((s2.segBytes cl).drop 4)
        (cellBad wn2 = true ∨ cellBad un2 = true → s2.crew c.uid = some c →
          gives (s2.afterDone { c with mf := c.mf ||| fNV } m (fun x => { x with ditherInc := 1 })))
        ∧ (cellBad wn2 = false → cellBad un2 = false → whole → ∀ s3 s4 s5 read segs mx,
          State.cmdReadAll c.ctx c.uid m.id runs s2 = (.ok read, s3) → State.mapRows c.ctx .store runs s3 = (.ok segs, s4) →
          (if uwAbsmax upd then s4.devMap c.ctx .atomic (cell + 8) 4 else (.ok [], s4)) = (.ok mx, s5) → s5.segPoison mx = none →
          s5.crew c.uid = some c → s5.cohort c.cohort = some h →
          let f := stepFactor (upd.getLsbD 27) (upd.toNat / 2 ^ 32) (sd.toNat % 2 ^ 32) wn2 un2
          let new := numbered (fun i r => drainRow upd m.fpmode m.phase f.v (sd.toNat / 2 ^ 32) i (gradRow h.acc off i e)
            (weightRow upd r.1)) read
          let td := weightAt s5.now
          let granules := (segs.zip new).flatMap (fun p =>
            let bs := p.2.flatMap (fun r => toBytes (uwWidth upd) r.v)
            numbered (fun i pa => (pa, (bs.drop (32 * i)).take 32))
              (p.1.flatMap (fun g => listOf (g.n / 32) (fun k => g.pa + 32 * k))))
          let m1 := granules.foldl (fun mm g => mm.engineWrite s5.now g.1 g.2 (fun _ => td)) s5.mem
          let pa := (mx.headD { pa := 0, n := 0, host := false }).pa
          let am := if uwAbsmax upd then drainAbsmax upd (new.flatMap (fun r => r.map FRes.v)) else (none, false)
          let last := am.1.map (fun x => fmtF32.minmax true (m1.readNat pa 4) x)
          let s6 : State := { s5 with mem := match last with
            | none => m1
            | some r => m1.store s5.now pa (toBytes 4 r.v) td }
          let s7 := if z = 1#1 then s6.setCohort { h with
              acc := h.acc.engineWrite s5.now (off + 512) (List.replicate (512 * rows) 0#8) (fun _ => sVacant) } else s6
          gives (s7.afterDone { c with mf := c.mf ||| (f.fl ||| fUnion (new.flatMap (fun r => r.map FRes.fl)) ||| fWhen am.2 fNF)
            ||| ((last.map FRes.fl).getD 0#6) } m (fun x => { x with ditherInc := 1 })))))
    ∧ (∀ (fpmode : BitVec 4) (phase f decay row : Nat) (gs ws : List FVal) (n : Nat) (g w : FVal), gs[n]? = some g → ws[n]? = some w →
      ((drainRow upd fpmode phase f decay row gs ws)[n]?).map FRes.v = some
        ((fmtOf (uwFmt upd)).fma { mode := rmodeOf fpmode.toNat, ovn := fpmode.getLsbD 3, idx := (n + row) % 64 + phase }
          (decode f).neg (decode (fmtF32.fma rcRne (decode decay) w g).v) w).v)
    ∧ (∀ bound eta wn2 un2 : Nat,
      let pos := fun x => FVal.lt (.fin false 0 0) (decode x) = true
      let mul := fun x y => (fmtF32.mul rcRne (decode x) (decode y)).v
      let rsq := (fmtF32.rsq rcRne (decode un2)).v
      (stepFactor false bound eta wn2 un2).v
        = (if pos wn2 ∧ pos un2 then mul (mul eta (fmtF32.sqrt rcRne (decode wn2)).v) rsq else eta)
      ∧ (stepFactor true bound eta wn2 un2).v
        = (if pos un2 ∧ FVal.lt (decode (mul bound rsq)) (.fin false 1 0) = true then mul eta (mul bound rsq) else eta))

/-! ### Tasks: acceptance -/

/-- R65, R67, R69, R70, R71, R82, R92, R96, R97: the sequencer of a context that accepts enters each task instruction's slot into the window
under a fresh number and moves on; for a ring slot it writes ACCEPT, where the header can be reached at once. A slot that breaks its
layout, or lies outside the limits that show in the slot alone, enters with the illegal-task fault. A slot whose predicate is not met (flag
0: the cell reads 0; flag 1: it does not) enters complete and does nothing. A sequencer that may not accept leaves everything as it is.
SLOT_ACCEPT does for the ring's next slot, once its SEQ is the position's, what its words decode to. -/
def Claims.TaskAcceptance : Prop :=
  ∀ (s : State) (i : Instr) (x : Ctx) (op : Nat) (sl : TaskSlot), i.task = some (op, sl) → s.ctx s.seqCtx = some x → x.task s.nextUid = none →
    let t := Accepts.entry s x op sl
    let gives := fun (u : State) => exec i s = .next u
    let size := sl.b.toNat
    let cellBad := fun (n : Nat) => ∀ cell, decodeCell sl.b = some cell → match cell with
      | .buf _ off => off % n ≠ 0
      | .addr va => va % n ≠ 0
    let illegal := i.wf = false ∨ ((op = 0x16 ∨ op = 0x17) ∧ x.priv = false) ∨ (op = 0x16 ∧ s.agreed 1 = false)
      ∨ (op = 0x0F ∧ (s.agreed 2 = false ∨ sl.a.toNat % 2 ^ 6 = s.devid)) ∨ (op = 0x10 ∧ s.agreed 3 = false)
      ∨ (op = 0x01 ∧ (size = 0 ∨ 2 ^ 37 < size ∨ (sl.flags.getLsbD 3 = true ∧ 2 ^ 26 < size)))
      ∨ (op = 0x05 ∧ bufferSide sl.b.toNat sl.c.toNat [1, 2] = none) ∨ (op = 0x06 ∧ bufferSide sl.b.toNat sl.c.toNat [2] = none)
      ∨ ((op = 0x08 ∨ op = 0x0B ∨ op = 0x0C ∨ (op = 0x13 ∧ sl.flags.getLsbD 3 = true)) ∧ cellBad 8) ∨ (op = 0x0D ∧ cellBad 16)
    let entered := fun (u : Task) => { s with nextUid := s.nextUid + 1 }.modCtx s.seqCtx (fun x =>
      { x with window := x.window ++ [u], accept := u.after, map := u.afterMap })
    (x.canAccept = false → gives s)
    ∧ (x.canAccept = true → illegal →
        gives (s.enterTask s.seqCtx { t with fault := some { code := 0x20, sub := 0, detail := t.addr } }))
    ∧ (x.canAccept = true → ¬illegal → ∀ v s2, s.readCell x sl.d = .ok v s2 →
        (sl.flags.getLsbD 0 = true ∧ v = 0#64) ∨ (sl.flags.getLsbD 1 = true ∧ v ≠ 0#64) →
        gives (s2.enterTask s.seqCtx { t with skipped := true, stat := .complete }))
    ∧ (∀ u : Task, (u.ringIdx = none → s.enterTask s.seqCtx u = entered u)
        ∧ (∃ owed unv, (s.enterTask s.seqCtx u).ctx s.seqCtx =
            some { x with window := x.window ++ [u], accept := u.after, map := u.afterMap, owed := owed, unvacated := unv })
        ∧ ∀ n segs s2, u.ringIdx = some n → x.owed = [] → (entered u).engMap s.seqCtx .store x.stream 8 = (.ok segs, s2) →
          s.enterTask s.seqCtx u = State.segWrite segs (toBytes 8 ((n + 1) % 2 ^ 64)) (fun _ => sTimeless) s2)
    ∧ (∀ c y w s2, s.ctx c = some y → y.canAccept = true → s.slotWords y = (some w, s2) →
        let r := slotTask w
        exec (.slotAccept c) s = .next (s2.acceptTask c r.1 r.2.1 r.2.2 (acceptBody r.1 r.2.1)))

/-- R92, R93, R98, R99, R100, R107: the tasks that are complete at acceptance. TNOP does nothing. TSETK sets a stream register to B or to the
cell at B; TADDK adds B. TBR goes to the slot at its own address + 32 * A; TBRC goes there when the cell at B meets the condition against
C; TBRK when the register is not 0, which it lowers by 1; outside a procedure they are illegal. TCALL enters the procedure at B, at most
eight deep; the task stream's TRET leaves one. TBUF defines a buffer with a fresh version; TDROP ends one. -/
def Claims.StreamControlTasks : Prop :=
  ∀ (s s2 : State) (i : Instr) (x : Ctx) (op : Nat) (sl : TaskSlot) (v : Word) (a : Nat) (rest : List Nat), Accepts s i x op sl →
    let t := { Accepts.entry s x op sl with stat := TaskStat.complete }
    let waiting := Accepts.entry s x op sl
    let enters := fun (s : State) (u : Task) => exec i s = .next (s.enterTask s.seqCtx u)
    let illegal := enters s { waiting with fault := some { code := 0x20, sub := 0, detail := waiting.addr } }
    let k := sl.a.toNat % 2 ^ 4
    let withK := fun (p : Pos) (v : Word) => { p with ks := modifyAt (fun _ => v) k p.ks }
    let target := ofSigned 56 ((waiting.addr : Int) + 32 * toSigned 32 sl.a.toNat)
    let jumped := fun (p : Pos) => { p with frames := target :: rest }
    let reads := s.readCell x sl.b = .ok v s2
    let enters2 := fun (u : Task) => exec i s = .next (s2.enterTask s.seqCtx u)
    let buf := sl.a.toNat % 2 ^ 12
    let size := sl.b.toNat
    let lobj := sl.flags.getLsbD 3
    (i = .tnop sl → enters s t)
    ∧ (i = .tsetk sl → (lobj = false → enters s { t with after := withK t.after sl.b })
        ∧ (lobj = true → reads → enters2 { t with after := withK t.after v }))
    ∧ (i = .taddk sl → enters s { t with after := withK t.after (x.accept.ks.getD k 0#64 + sl.b) })
    ∧ (i = .tbr sl → (x.accept.frames = a :: rest → enters s { t with after := jumped x.accept }) ∧ (x.accept.frames = [] → illegal))
    ∧ (i = .tbrc sl → (x.accept.frames = a :: rest → reads →
        (condHolds 64 (sl.flags.toNat / 2 ^ 3 % 2 ^ 3) v.toNat sl.c.toNat = true → enters2 { t with after := jumped x.accept })
        ∧ (condHolds 64 (sl.flags.toNat / 2 ^ 3 % 2 ^ 3) v.toNat sl.c.toNat = false → enters2 t))
        ∧ (x.accept.frames = [] → illegal))
    ∧ (i = .tbrk sl →
        let n := sl.b.toNat % 2 ^ 4
        let count := x.accept.ks.getD n 0#64
        (x.accept.frames = a :: rest → (count = 0#64 → enters s t)
          ∧ (count ≠ 0#64 → enters s
              { t with after := jumped { x.accept with ks := modifyAt (fun _ => count - 1#64) n x.accept.ks } }))
        ∧ (x.accept.frames = [] → illegal))
    ∧ (i = .tcall sl → (x.accept.frames.length < 8 →
          enters s { t with after := { t.after with frames := sl.b.toNat % 2 ^ 56 :: t.after.frames } })
        ∧ (8 ≤ x.accept.frames.length → illegal))
    ∧ (i = .tretTask sl → (x.accept.frames = a :: rest → enters s { t with after := { x.accept with frames := rest } })
        ∧ (x.accept.frames = [] → illegal))
    ∧ (i = .tbuf sl →
        let undefined_ := x.map.find? (fun b => b.n == buf) = none
        (undefined_ → ∀ ver, s.freshVersion x.num size lobj = (some ver, s2) →
          enters2 { t with news := [ver], afterMap := x.map ++ [{ n := buf, size := size, lobj := lobj, ver := ver }] })
        ∧ (¬undefined_ → illegal))
    ∧ (i = .tdrop sl →
        (∀ b, x.map.find? (fun b => b.n == buf) = some b → s.isPagerQueue x.num buf = false →
          enters s { t with olds := [b.ver], afterMap := x.map.filter (fun y => y.n != buf) })
        ∧ (x.map.find? (fun b => b.n == buf) = none ∨ s.isPagerQueue x.num buf = true → illegal))

/-- R74, R75, R78, R79: the region entries of a task resolve to the current versions of their buffers, none where a buffer is undefined or
an extent passes its size; a younger region depends on an older one of the same buffer where their declared bytes overlap: IN on OUT and
UPD, UPD and an OUT that is not of the whole buffer on IN, OUT and UPD; a whole-buffer OUT and ACC on nothing. -/
def Claims.RegionsAndDependence : Prop :=
  (∀ (m : List LBuf) (raws : List RawRegion),
    (∀ l, resolveRegions m raws = some l → l.length = raws.length ∧ ∀ (n : Nat) (r : RawRegion), raws[n]? = some r →
      ∃ b, m.find? (fun b => b.n == r.lb) = some b ∧ r.off + ((r.rows - 1) * r.pitch + r.rowb) ≤ b.size ∧ l[n]? = some (r.at b.size b.ver))
    ∧ (resolveRegions m raws = none → ∃ r ∈ raws, ∀ b : LBuf, m.find? (fun b => b.n == r.lb) = some b →
        b.size < r.off + ((r.rows - 1) * r.pitch + r.rowb)))
  ∧ (∀ x y : Region, x.kind < 4 → y.kind < 4 →
      let whole := fun (r : Region) => r.kind = 1 ∧ r.d2 = false ∧ r.off = 0 ∧ r.rowb = r.size
      (x.dependsOn y = true ↔ x.overlaps y = true ∧ ((x.kind = 0 ∧ (y.kind = 1 ∨ y.kind = 2)) ∨ ((x.kind = 1 ∨ x.kind = 2) ∧ ¬whole x ∧ y.kind ≠ 3)))
      ∧ (x.d2 = false → y.d2 = false → x.rows = 1 → y.rows = 1 → 0 < x.rowb → 0 < y.rowb →
          (x.overlaps y = true ↔ x.lb = y.lb ∧ ∃ b, (x.off ≤ b ∧ b < x.off + x.rowb) ∧ (y.off ≤ b ∧ b < y.off + y.rowb))))

/-! ### Tasks: issue -/

/-- R84, R90, R91, R94, R96, R97, R256: a TLAUNCH, TFILL, TSTAMP or TCOPY that enters an empty window with the regions that acceptance gave it,
with its context's own writes made and undo versions that can be made, issues at once: TLAUNCH then waits for its cohorts to be admitted,
the others start an engine thread (a TCOPY from a port first takes its data). -/
def Claims.LaunchAndCopyTasks : Prop :=
  ∀ (s s2 s4 : State) (i : Instr) (x : Ctx) (op : Nat) (sl : TaskSlot) (u : Task) (undo : List (Region × Ver)), Accepts s i x op sl →
    x.window = [] → acceptBody op sl s x (Accepts.entry s x op sl) = .ok u s2 → (s2.enterTask s.seqCtx u).paid s.seqCtx = true →
    State.drawUndo x.num (if u.replayable then u.regions.filter (fun r => r.inPlace) else []) [] (s2.enterTask s.seqCtx u) = (.ok undo, s4) →
    let c := s.seqCtx
    let issued := s4.modTask c u.uid (fun k => { k with undo := undo, stat := .issued })
    (i = .tlaunch sl → exec i s = .next issued)
    ∧ (i = .tfill sl → exec i s = .next (issued.withTaskEngine c u.uid .tfill))
    ∧ (i = .tstamp sl → exec i s = .next (issued.withTaskEngine c u.uid .tstamp))
    ∧ (i = .tcopy sl → sl.a.toNat / 2 ^ 28 ≠ 2 → sl.a.toNat / 2 ^ 24 % 2 ^ 4 ≠ 2 →
        exec i s = .next (issued.withTaskEngine c u.uid .tcopy))

/-- R84, R88: TASK_ISSUE leaves a task alone while R84 does not let it issue, or a write of its context's own is still to be made (log 51);
a TLAUNCH, TFILL or TSTAMP that may issue, and whose undo versions can be made, does so: a launch waits for its cohorts to be admitted, a
fill or stamp starts an engine thread. -/
def Claims.TaskIssue : Prop :=
  ∀ (s s4 : State) (c : Nat) (x : Ctx) (k : Task) (undo : List (Region × Ver)), s.ctx c = some x → x.task k.uid = some k →
    let older := x.window.takeWhile (fun y => y.uid != k.uid)
    let inOrder := fun (op : Nat) => op = 0x10 ∨ op = 0x11 ∨ op = 0x12 ∨ op = 0x16 ∨ op = 0x17
    let mayIssue := x.faulted = false ∧ x.unitRuns .window = true ∧ x.owed = [] ∧ k.stat = .waiting ∧ k.fault = none
      ∧ (∀ y ∈ older, y.stat = .complete ∨ ((∀ r ∈ k.regions, ∀ q ∈ y.regions, r.dependsOn q = false)
          ∧ ¬inOrder k.op ∧ ¬inOrder y.op ∧ y.op ≠ 0x0E ∧ y.op ≠ 0x0B))
      ∧ (k.replayable = true ∨ ∀ y ∈ older, y.stat = .complete ∧ y.fault = none)
      ∧ (k.op = 0x0B → ∀ cell, decodeCell k.slot.b = some cell → ∀ y ∈ older, y.writesCell cell = false)
    let issued := s4.modTask c k.uid (fun k => { k with undo := undo, stat := .issued })
    (¬mayIssue → exec (.taskIssue c k.uid) s = .next s)
    ∧ (mayIssue → State.drawUndo x.num (if k.replayable then k.regions.filter (fun r => r.inPlace) else []) [] s = (.ok undo, s4) →
        (k.op = 0x03 → exec (.taskIssue c k.uid) s = .next issued)
        ∧ (k.op = 0x05 → exec (.taskIssue c k.uid) s = .next (issued.withTaskEngine c k.uid .tfill))
        ∧ (k.op = 0x06 → exec (.taskIssue c k.uid) s = .next (issued.withTaskEngine c k.uid .tstamp)))

/-- R101 to R104, R86: TSIG and TMARK that enter an empty window with a cell they can name are complete, their write staged until
retirement; TFENCE is complete; TWAITV notes t0 and reads its cell, and is complete where the word meets its condition. A waiting TWAITV
reads again after a write of its cell; once device time has passed t0 + A, and no read begun before waits for the host, its task takes the
wait-timeout fault. -/
def Claims.SignalsMarksAndWaits : Prop :=
  ∀ (s : State) (i : Instr) (x : Ctx) (op : Nat) (sl : TaskSlot) (cell : CellRef) (va : Nat),
    let c := s.seqCtx
    let t := Accepts.entry s x op sl
    let named := { t with words := [BitVec.ofNat 64 va] }
    let flags := sl.flags
    (Accepts s i x op sl → x.window = [] →
      (i = .tfence sl → (s.enterTask c t).paid c = true →
        exec i s = .next ((s.enterTask c t).modTask c t.uid (fun k => { k with stat := .complete })))
      ∧ (decodeCell sl.b = some cell → (s.enterTask c named).paid c = true →
        (i = .tsig sl → cellVa x.map 8 cell = some va → va % 8 = 0 →
          exec i s = .next ((s.enterTask c named).modTask c t.uid (fun k => { k with
            stat := .complete
            staged := [{ seq := 0, progress := 0,
                         kind := .signal (va % 2 ^ 64) sl.c (flags.getLsbD 3) (if flags.getLsbD 4 then some (sl.a.toNat % 2 ^ 11) else none) }] })))
        ∧ (i = .tmark sl → cellVa x.map 16 cell = some va → va % 16 = 0 →
          exec i s = .next ((s.enterTask c named).modTask c t.uid (fun k => { k with
            stat := .complete, staged := [{ seq := 0, progress := 0, kind := .mark (va % 2 ^ 64) sl.c }] })))
        ∧ (i = .twaitv sl → cellVa x.map 8 cell = some va → va % 8 = 0 →
          let e := s.enterTask c named
          exec i s = .next ((e.modTask c t.uid (fun k => { k with stat := .issued, t0 := e.now })).readWait c { named with t0 := e.now }))))
    ∧ (∀ d k y bs s2, s.ctx d = some y → y.task k.uid = some k → k.op = 0x0B → k.stat = .issued → k.fault = none →
        (y.unitRuns .window = true → (k.slot.a = 0 ∨ s.now ≤ k.t0 + k.slot.a.toNat) → k.seen = none → s.winRead d (k.word 0) 8 = (.ok bs, s2) →
          condHolds 64 (k.slot.flags.toNat / 2 ^ 3 % 2 ^ 3) (ofBytes bs) k.slot.c.toNat = true →
          exec (.twaitvReread d k.uid) s = .next (s2.modTask d k.uid (fun k => { k with stat := .complete })))
        ∧ (k.slot.a ≠ 0 → k.t0 + k.slot.a.toNat < s.now →
          (k.lastRead = false →
            exec (.waitTimeout d k.uid) s = .next (s.holdFault d k.uid { code := 0x23, sub := 0, detail := k.slot.b.toNat }))
          ∧ (k.lastRead = true → exec (.waitTimeout d k.uid) s = .next s)))

/-- R105, R106, R271, R368, R379, R386: TPORT of an empty window opens or closes a port of its context with counts of 0 (and zeroes the cell
that the device writes, where it can reach it); TSCOPE sets a scope group; TLEASE sets the target for a peer within the partition's quota;
TROTATE loads a rotation table; TPAGER registers a pager for a context of the partition, whose queue buffer is big enough and whose range
meets no other's, or ends one. -/
def Claims.SettingTasks : Prop :=
  ∀ (s s2 : State) (i : Instr) (x : Ctx) (op : Nat) (sl : TaskSlot) (bs : List Byte), Accepts s i x op sl → x.window = [] →
    let c := s.seqCtx
    let t := Accepts.entry s x op sl
    let a := sl.a.toNat
    let named := { t with words := wordsOf bs }
    let port : Port :=
      { n := a % 2 ^ 6, kind := a / 2 ^ 16 % 2 ^ 8, bound := sl.b, desc := wordsOf bs, prod := 0, cons := 0, remainder := [], back := [] }
    let opened := fun (l : List Port) (s : State) => s.modCtx c (fun y => { y with ports := y.ports.filter (fun q => q.n != port.n) ++ l })
    let done := fun (s : State) => s.modTask c t.uid (fun k => { k with stat := .complete })
    let paid := fun (e : State) => e.paid c = true
    let part := fun (n : Nat) => (s.ctx n).filter (fun y => y.part == x.part)
    (i = .tport sl →
      (port.kind = 0 → paid (s.enterTask c t) → exec i s = .next (done (opened [] (s.enterTask c t))))
      ∧ (s.winRead x.num sl.c.toNat 64 = (.ok bs, s2) → portDescOk port.kind (wordsOf bs) = true → paid (s2.enterTask c named) →
        (port.kind = 2 ∨ port.kind = 4 → exec i s = .next (done (opened [port] (s2.enterTask c named))))
        ∧ (∀ s3, port.kind = 1 ∨ port.kind = 3 →
            (s2.enterTask c named).engWrite x.num (named.word (if port.kind = 1 then 2 else 3)) (toBytes 8 0) (fun _ => sTimeless)
              = (.ok (), s3) →
            exec i s = .next (done (opened [port] s3)))))
    ∧ (i = .tscope sl → s.winRead x.num sl.b.toNat 384 = (.ok bs, s2) → paid (s2.enterTask c named) →
        (∀ k, k < 768 * 4 → ((wordsOf bs).getD (k / 64) 0#64).getLsbD (k % 64) = true → (s2.part x.part).dies.getLsbD (k / 384) = true) →
        exec i s = .next (done ((s2.enterTask c named).modCtx c (fun y =>
          { y with groups := y.groups.filter (fun p => p.1 != a % 2 ^ 5) ++ [(a % 2 ^ 5, coresOf (wordsOf bs))] }))))
    ∧ (i = .tlease sl → paid (s.enterTask c t) →
        let q := a % 2 ^ 6
        let n := a / 2 ^ 16 % 2 ^ 6
        let others := ((s.ctxs.filter (fun y => y.part == x.part)).map (fun y =>
          ((y.leases.filter (fun p => !(y.num == x.num && p.1 == q))).map (fun p => p.2)).sum)).sum
        n ≤ x.leaseTo q ∨ others + n ≤ (s.part x.part).lq.toNat →
        exec i s = .next ((done ((s.enterTask c t).modCtx c (fun y =>
          { y with leases := y.leases.filter (fun p => p.1 != q) ++ (if n = 0 then [] else [(q, n)]) }))).keepRequest q))
    ∧ (i = .trotate sl → ∀ (slots : List Byte) (s3 : State) (r : RotTable), bs.length = 64 → s.winRead x.num sl.b.toNat 64 = (.ok bs, s2) →
        let n := ofBytes ((bs.drop 8).take 8) % 2 ^ 5
        (n = 0 ∧ slots = [] ∧ s3 = s2 ∨ 0 < n ∧ n ≤ 16 ∧ slots.length = 192 * n ∧ s2.winRead x.num (sl.b.toNat + 64) (192 * n) = (.ok slots, s3)) →
        961 ≤ (s3.part x.part).lq.toNat → decodeRotation s.devid bs slots = some r →
        let e := done (s3.enterTask c { t with words := wordsOf (bs ++ slots) })
        paid e → exec i s = .next ((e.fab.present.filter (fun q => q != e.devid)).foldl (fun s q =>
            s.tell q (.tableId q r.id (r.slots.map (fun k => k.txn.getD q 0)) (r.slots.map (fun k => k.rxn.getD q 0))))
          { e with fab := { e.fab with rotNext := some { r with begins := e.tableBegins r } } }))
    ∧ (i = .tpagerRegister sl → s.winRead x.num sl.b.toNat 64 = (.ok bs, s2) →
        pagerDescOk (a % 2 ^ 4) (wordsOf bs) = true → paid (s2.enterTask c named) → ∀ tc sc b,
        let p := a % 2 ^ 4
        let lo := named.word 0
        let hi := named.word 1
        let logq := named.word 2 / 2 ^ 16 % 2 ^ 4
        part (a / 2 ^ 8 % 2 ^ 6) = some tc → part (a / 2 ^ 16 % 2 ^ 6) = some sc →
        (∀ q ∈ tc.pagers, q.p ≠ p ∧ (q.p = 0 ∨ p = 0 ∨ hi ≤ q.base ∨ q.limit ≤ lo)) →
        sc.rmap.find? (fun b => b.n == named.word 2 % 2 ^ 12) = some b → 32 * 2 ^ logq ≤ b.size →
        exec i s = .next (done (((s2.enterTask c named).modCtx tc.num (fun y => { y with pagers := y.pagers ++
          [{ p := p, base := lo, limit := hi, sctx := sc.num, qlb := named.word 2 % 2 ^ 12, logq := logq, next := 0, recs := [],
             waiting := [] }] })).modCtx sc.num (fun y => y.keepQueue (named.word 2 % 2 ^ 12)))))
    ∧ (i = .tpagerUnregister sl → paid (s.enterTask c t) → ∀ tc sc q,
        part (a / 2 ^ 8 % 2 ^ 6) = some tc → part (a / 2 ^ 16 % 2 ^ 6) = some sc → tc.pagers.find? (fun q => q.p == a % 2 ^ 4) = some q →
        exec i s = .next (done (((s.enterTask c t).modCtx tc.num (fun y =>
          { y with pagers := y.pagers.filter (fun r => r.p != a % 2 ^ 4) })).abandonPager q)))

/-- R336, R337, R346: TCTX of a context with PRIV and an empty window. Create makes a context whose number is free, by its descriptor, on the
lowest die of the partition with a free window slot. Set priority sets one. Destroy of a saved or halted context removes it; of the issuing
context it is staged for retirement; of a running one it begins a stop. Halt begins a stop, of the issuing context too (which is complete
at once, log 14); of a saved one it only marks it. Resume of a context that is not faulted
resumes it. A number that no context of the partition has is an illegal task. -/
def Claims.ContextTasks : Prop :=
  ∀ (s s2 : State) (i : Instr) (x y : Ctx) (op : Nat) (sl : TaskSlot) (bs : List Byte), Accepts s i x op sl → x.window = [] →
    let c := s.seqCtx
    let t := Accepts.entry s x op sl
    let n := sl.a.toNat / 2 ^ 8 % 2 ^ 6
    let e := s.enterTask c t
    let done := fun (s : State) => s.modTask c t.uid (fun k => { k with stat := .complete })
    let issued := fun (s : State) => s.modTask c t.uid (fun k => { k with stat := .issued })
    let named := n ≠ c ∧ s.ctx n = some y ∧ y.part = x.part ∧ e.paid c = true
    (i = .tctxCreate sl → s.winRead x.num sl.b.toNat 128 = (.ok bs, s2) → s2.descOk x.part (wordsOf bs) = true → s.ctx n = none →
        ∀ home, s.partOpen x.part = true → s.homeFor x.part = some home →
        let e2 := s2.enterTask c { t with words := wordsOf bs }
        e2.paid c = true → exec i s = .next (done ({ e2 with ctxs := e2.ctxs ++ [ctxOfDesc n home e2.cycle (wordsOf bs)] }.ctxWrite n
          ((wordsOf bs).getD 0 0#64).toNat (List.replicate 256 0#8))))
    ∧ (named → i = .tctxSetPriority sl → exec i s = .next (done (e.modCtx n (fun y => { y with prio := sl.b.toNat }))))
    ∧ (named → i = .tctxDestroy sl →
        (y.saved = true ∨ (y.halted = true ∧ y.stop = none) → exec i s = .next (done (e.destroyCtx n)))
        ∧ (y.saved = false → (y.halted = false ∨ y.stop ≠ none) → exec i s = .next ((issued e).beginStop n .destroy [(c, t.uid)])))
    ∧ (n = c → i = .tctxDestroy sl → e.paid c = true → exec i s = .next (e.modTask c t.uid (fun k => { k with
        stat := .complete, staged := [{ seq := 0, kind := .destroySelf, progress := 0 }] })))
    ∧ (named → i = .tctxHalt sl → (y.halted = true → exec i s = .next (done e))
        ∧ (y.halted = false → y.saved = true → exec i s = .next (done (e.modCtx n (fun z => { z with halted := true }))))
        ∧ (y.halted = false → y.saved = false → exec i s = .next ((issued e).beginStop n .halt [(c, t.uid)])))
    ∧ (n = c → i = .tctxHalt sl → e.paid c = true → x.halted = false → x.saved = false → exec i s = .next ((done e).beginStop c .halt []))
    ∧ (named → i = .tctxResume sl → y.faulted = false → y.dhalt = false → exec i s = .next (done (e.resumeCtx y)))
    ∧ ((∀ z, s.ctx n = some z → z.part ≠ x.part) → e.paid c = true → i = .tctxSetPriority sl ∨ i = .tctxDestroy sl ∨ i = .tctxHalt sl ∨ i = .tctxResume sl →
        exec i s = .next (e.holdFault c t.uid { code := 0x20, sub := 0, detail := t.addr }))

/-! ### Tasks: retirement, records, faults -/

/-- R85, R86, R102, R103, R358, R439: the oldest task of a context whose window runs, which is not Faulted and has no write of its own still to
make, retires once it is complete and holds no fault: first its journal is written and valid; then its staged signals and marks are written,
each noted in the journal, the retired state becomes the state after it, GEN rises by 2, the versions it replaced go back to the free lists,
and it leaves the window. A journal that is still to be written holds the rest back. Any other task stays. -/
def Claims.TaskRetirement : Prop :=
  ∀ (s s2 : State) (c : Nat) (x : Ctx) (t : Task) (rest : List Task) (l : List Seg), s.ctx c = some x → x.window = t :: rest →
    let retires := x.faulted = false ∧ x.unitRuns .window = true ∧ x.owed = [] ∧ t.stat = .complete ∧ t.fault = none
    let valid := x.journal.map (fun j => j.1) = some t.uid
    let begun := s.beginRetire c t
    let map := if valid then x.rmap else t.afterMap
    let freed := t.olds ++ t.undo.map (fun u => u.2)
    let after : Ctx := { x with
      retired := t.after, gen := (x.gen + 2) % 2 ^ 64, rmap := map, journal := none, recovering := false
      window := (t :: rest).filter (fun y => y.uid != t.uid)
      free := x.free ++ freed.map (fun v => { v with lobj := false })
      kept := x.kept.filter (fun k => !freed.contains k.1) ++ t.keeps }
    (valid → begun = s)
    ∧ (¬valid → ∃ owed unv, begun.ctx c =
        some { x with journal := some (t.uid, 1), rmap := t.afterMap, owed := owed, unvacated := unv })
    ∧ (¬retires → exec (.taskRetire c) s = .next s)
    ∧ (retires → begun.paid c = false → exec (.taskRetire c) s = .next begun)
    ∧ (retires → begun.paid c = true → t.staged = [] →
        ∃ u owed unv, exec (.taskRetire c) s = .next u ∧ u.ctx c = some { after with owed := owed, unvacated := unv })
    ∧ (retires → begun.paid c = true → x.dropWrite = none → ∀ g va, t.staged = [g] →
        (∀ v vec, g.kind = .signal va v false vec → begun.engMap c .store va 8 = (.ok l, s2) →
          let w := State.segWrite l (toBytes 8 v.toNat) (fun _ => sTimeless) s2
          exec (.taskRetire c) s = .next ((((match vec with
            | some n => { w with msix := w.msix ++ [n] }
            | none => w).unstage c t.uid g).writeJournal c).finishRetire c t))
        ∧ (∀ tag, g.kind = .mark va tag → begun.engMap c .store va 16 = (.ok l, s2) →
          exec (.taskRetire c) s = .next ((((State.segWrite l (toBytes 8 s2.now ++ toBytes 8 tag.toNat) (fun _ => sTimeless) s2).unstage
            c t.uid g).writeJournal c).finishRetire c t)))
    ∧ (retires → begun.paid c = true → (∃ g ∈ t.staged, g.kind = .destroySelf) → exec (.taskRetire c) s = .next (begun.destroyCtx c))

/-- R87, R329, R58, R59: a fault of the oldest task of a context that is not Faulted is delivered: the window is squashed back to the retired
state, the context is Faulted, the fault record is written at its address and its vector sent when it is enabled. A freshness fault of a
replayable task with re-firable producers and replays left re-fires them and replays the task instead. Other tasks' faults wait, and so does
one of a context that is being stopped. -/
def Claims.TaskFaults : Prop :=
  ∀ (s : State) (c : Nat) (x : Ctx) (t : Task) (rest : List Task) (f : TFault), s.ctx c = some x → x.window = t :: rest →
    let heads := x.faulted = false ∧ x.stop = none ∧ x.unitRuns .window = true ∧ x.owed = [] ∧ t.fault = some f
    let word0 := f.code % 2 ^ 8 * 2 ^ 56 + f.sub % 2 ^ 8 * 2 ^ 48 + f.thsub % 2 ^ 8 * 2 ^ 40
      + (match f.thread with
        | some (h, cr, tid) => 2 ^ 37 + h % 2 ^ 24 * 2 ^ 13 + cr % 8 * 2 ^ 10 + tid % 2 ^ 10
        | none => 0)
    let delivered := fun (s : State) => ∃ y : Ctx, (s.squashWindow c).ctx c = some y ∧ y.window = [] ∧ y.accept = y.retired ∧ y.map = y.rmap
      ∧ y.retired = x.retired ∧ y.rmap = x.rmap
      ∧ (let q := s.squashWindow c
         let record := toBytes 8 word0 ++ toBytes 8 t.addr ++ toBytes 8 f.detail ++ toBytes 8 q.now
         let b := q.setCtx { y with faulted := true, journal := none, recovering := false }
         ∀ l s2, y.owed = [] → b.engMap c .store y.faultAddr 32 = (.ok l, s2) →
           let w := State.segWrite l record (fun _ => sTimeless) s2
           s.deliverOldest c t f = if y.firq then { w with msix := w.msix ++ [y.fvec] } else w)
    (x.faulted = true ∨ x.stop ≠ none ∨ x.unitRuns .window = false ∨ x.owed ≠ [] ∨ t.fault = none →
      exec (.taskFault c) s = .next s ∧ exec (.freshnessFault c) s = .next s)
    ∧ (heads → f.code ≠ 0x26 → f.code ≠ 0 → exec (.taskFault c) s = .next (s.deliverOldest c t f) ∧ exec (.freshnessFault c) s = .next s)
    ∧ (heads → delivered s)
    ∧ (heads → f.code = 0x26 → x.pendCtl = [] → exec (.taskFault c) s = .next s
        ∧ (t.replayable = false ∨ x.producers t = [] ∨ x.ctl.toNat / 2 ^ 8 % 2 ^ 4 ≤ t.replays →
            exec (.freshnessFault c) s = .next (s.deliverOldest c t f))
        ∧ (t.replayable = true → x.producers t ≠ [] → t.replays < x.ctl.toNat / 2 ^ 8 % 2 ^ 4 →
            exec (.freshnessFault c) s = .next (s.replayOldest c t (x.producers t) 1)))

/-- R272, R274, R86, R90: a record to a host ring with room is written at PROD, then PROD is written, then the vector is sent; a task's
records are released only at its retirement, with IMM at once, and of one port in the order in which they were sent. R349: the next entry of
a context's pool ring, once its TAG is n + 1, is zeroed and its block joins the free list. R94, R95, R275: a copy takes what a squashed copy
had taken of its port, unless it is re-fired, then what its port still holds, before the ring's next record. -/
def Claims.PortsAndPool : Prop :=
  ∀ (s s2 : State) (c : Nat) (x : Ctx) (t : Task), s.ctx c = some x → x.task t.uid = some t →
    let imm := match t.launch with
      | some l => l.imm
      | none => false
    (imm = true → x.unitRuns .window = true → x.faulted = false →
      exec (.egressRelease c t.uid) s = .next (State.releaseFirst x t.uid (s.headRecords c t) s))
    ∧ (imm = false → x.faulted = false → x.unitRuns .window = true → x.owed = [] → x.window.head? = some t → t.stat = .complete →
      t.fault = none → (s.beginRetire c t).paid c = true →
      exec (.egressRelease c t.uid) s = .next (State.releaseFirst x t.uid (s.headRecords c t) (s.beginRetire c t)))
    ∧ (∀ g ∈ s.headRecords c t, ∃ n bs st b, g.kind = .record n bs st b
        ∧ (∀ h ∈ t.staged, ∀ bs' st' b', h.kind = .record n bs' st' b' → g.seq ≤ h.seq)
        ∧ ∀ e ∈ s.engines, e.ctx = c → e.task = t.uid → e.kind = .send n → e.seq < g.seq → e.staged = true ∨ e.failed = true)
    ∧ (imm = false → x.window.head? ≠ some t ∨ t.stat ≠ .complete → (x.window.map (fun k => k.uid)).Nodup →
      exec (.egressRelease c t.uid) s = .next s)
    ∧ (∀ now (bs : List Byte) (st : List Stamp), bs.length = st.length →
      let r := recordOf now bs st
      r.length = (16 + bs.length + 31) / 32 * 32
      ∧ (r.take 16).map (fun b => b.1) = toBytes 4 bs.length ++ toBytes 4 (combineList st).toNat ++ toBytes 8 now
      ∧ ((r.drop 16).take bs.length).map (fun b => b.1) = bs)
    ∧ (∀ bs stamps v, x.saved = false → s.engRead c x.poolAddr 16 = (.ok (bs, stamps), s2) → ofBytes (bs.take 8) = (x.poolIdx + 1) % 2 ^ 64 →
      poolBlock (ofBytes (bs.drop 8)) = some v → x.ownedOf v.cls < 2 ^ 20 →
      ∃ u owed unv, exec (.poolEntryTake c) s = .next u ∧ u.ctx c = some { x with
        poolIdx := x.poolIdx + 1, free := x.free ++ [v], owned := AList.put 0 v.cls (x.ownedOf v.cls + 1) x.owned, owed := owed,
        unvacated := unv })
    ∧ (∀ p piece more, t.op = 0x04 → t.srck = 2 → t.stat = .issued → t.fault = none → t.wants ≠ 0 → x.unitRuns .window = true →
      x.port t.cport = some p →
      (t.order = t.uid → p.back = piece :: more → exec (.ingressConsume c t.uid) s =
        .next (s.giveIngress c t.uid p piece (fun l p => { p with back := l ++ more })))
      ∧ (t.order ≠ t.uid ∨ p.back = [] → p.remainder = piece :: more → exec (.ingressConsume c t.uid) s =
        .next (s.giveIngress c t.uid p piece (fun l p => { p with remainder := l ++ more }))))

/-! ### Scheduling: admission, starts, release, stop and restore -/

/-- R12, R15, R16, R17, R347, R351: after the arbiters of the dies below it, the arbiter of a die whose choice is the head cohort of a launch
admits it on the lowest cluster of the die that it fits; a cohort fits where each of its crews finds an available core of the cluster with
enough thread slots, registers in each partition and scratchpad bytes, and the cluster enough accumulator bytes and plane pairs. A die
admits one item in a cycle. Contexts whose items fit nowhere then wait. -/
def Claims.CohortAdmission : Prop :=
  ∀ (s : State) (die : Nat),
    let b := s.arbitersBelow die
    let free := b.load (fun _ => false)
    let loads := s.load (fun _ => false)
    let waits := fun (u : State) => (s.items.map (fun p => p.1.num)).foldl State.makeRoom u
    (8 ≤ die → exec (.cohortAdmit die) s = .next s)
    ∧ (die < 8 → b.dieChoice die = none → exec (.cohortAdmit die) s = .next (waits b))
    ∧ (∀ x, die < 8 → b.dieChoice die = some (x, .restore) → exec (.cohortAdmit die) s = .next (waits (b.restoreCtx x)))
    ∧ (∀ x t l, die < 8 → b.dieChoice die = some (x, .cohort t l) → ∃ q cores,
        exec (.cohortAdmit die) s = .next (waits (b.admitCohort x t l q cores))
        ∧ die * 48 ≤ q ∧ q < die * 48 + 48 ∧ cores.length = l.crews ∧ cores.Nodup
        ∧ (∀ k ∈ cores, k / 8 = q ∧ b.coreFits free (l.need t) k = true)
        ∧ (∀ q', die * 48 ≤ q' → q' < q → b.fitOn free (l.need t) q' = none))
    ∧ (die ∈ s.admits → s.dieChoice die = none)
    ∧ (∀ (n : Need) (k : Nat), s.coreFits loads n k = true ↔
        (s.coreEntry k).avail = true ∧ (s.coreEntry k).fenced = false ∧ loads.slots k + n.threads ≤ 1024
        ∧ loads.scratch k + n.scr ≤ 262144 ∧ ∀ p, p < 4 → loads.regs k p + crewRegs n.threads n.regs p ≤ 32768)

/-- R21, R155, R210, R277: a crew starts with every thread at slot 0 of the code capability's cursor, g0 and g1 the argument capability,
TIMELESS and tagged, every other register 0 and VACANT, `xmask` all ones, the other special registers 0; with empty planes, empty
scratchpad, crew barriers of generation 0 and convergence barriers that hold all lanes. -/
def Claims.CrewsAndThreadsAtStart : Prop :=
  ∀ (s : State) (ctx task cohort crewid core : Nat) (l : Launch) (tvec : Word), 2 ≤ l.regs → l.regs % 2 = 0 →
    ∃ slot, s.startCrew ctx task cohort crewid core l tvec = { s with
        nextUid := s.nextUid + 1
        crews := s.crews ++ [Crew.start s.nextUid ctx task cohort crewid core slot l tvec]
        threads := s.threads ++ (List.range l.threads).map (fun i => Thread.start ctx s.nextUid i l.regs l.code l.args) }
      ∧ (∀ i, let t := Thread.start ctx s.nextUid i l.regs l.code l.args
          t.tid = i ∧ t.pc = { hdr := l.code.cursor, slot := 0 } ∧ t.regs.length = l.regs ∧ t.tags.length = l.regs / 2
          ∧ t.regs[0]? = some { v := l.args.lo, s := sTimeless } ∧ t.regs[1]? = some { v := l.args.hi, s := sTimeless }
          ∧ (∀ n, 2 ≤ n → n < l.regs → t.regs[n]? = some { v := 0#64, s := sVacant })
          ∧ t.tags[0]? = some true ∧ (∀ n, 1 ≤ n → n < l.regs / 2 → t.tags[n]? = some false)
          ∧ t.xmask = 0xFFFFFFFF#32 ∧ t.fpmode = 0#4 ∧ t.fpstat = 0#6 ∧ t.amax = 0#32 ∧ t.stale = 0#9 ∧ t.wbase = 0#8 ∧ t.stkptr = 0#64
          ∧ t.repctr = 0#7 ∧ t.dither = 0#6 ∧ t.abs = List.replicate 7 0#64 ∧ t.hnd = false ∧ t.flags = List.replicate 12 0)
      ∧ (let c := Crew.start s.nextUid ctx task cohort crewid core slot l tvec
         c.scr = Memory.empty ∧ c.active = Plane.empty ∧ c.shadow = Plane.empty ∧ c.mq = [] ∧ c.mf = 0#6 ∧ c.rdvs = []
         ∧ c.bars = List.replicate 16 { gen := 0#32, arrived := [], released := none }
         ∧ c.cbs = List.replicate (l.threads / 32) (List.replicate 8 { mask := 0xFFFFFFFF#32, arr := 0#32 }))

/-- R18, R356, R357: a cohort whose start is the next of its island starts, and its launch and island note the cycle. A crew whose threads
have exited and which has no command queued and no engine thread is released with its delivery tags; with the last crew its cohort.
An island comes up when it holds an admitted cohort, and goes down after IDLE ticks without one, where its gate bit allows. -/
def Claims.StartReleaseAndIslands : Prop :=
  ∀ (s : State) (h cr i : Nat) (k : Cohort) (c : Crew) (x : Ctx), 
    (s.cohort h = some k → s.nextStart (k.cluster / 12) = some k →
      exec (.cohortStart h) s = .next ({ s.setCohort { k with started := some s.cycle } with
        islands := modifyAt (fun i => { i with lastStart := some s.cycle }) (k.cluster / 12) s.islands }.modTask k.ctx k.task
          (fun t => { t with lastStart := some s.cycle })))
    ∧ (s.cohort h = some k → (∀ n, s.nextStart (k.cluster / 12) = some n → n.uid ≠ h) → exec (.cohortStart h) s = .next s)
    ∧ (s.crew cr = some c → s.cohort c.cohort = some k → s.ctx c.ctx = some x →
        let gone := (∀ t ∈ s.threads, t.crew = cr → t.st = .exited) ∧ c.mq = [] ∧ (∀ e ∈ s.engines, e.crew ≠ some cr) ∧ k.saved = false
        (¬gone → exec (.crewRelease cr) s = .next s)
        ∧ (gone → (∃ d ∈ s.crews, d.uid ≠ cr ∧ d.cohort = c.cohort) →
          exec (.crewRelease cr) s = .next ({ s with
            crews := s.crews.filter (fun d => d.uid != cr), threads := s.threads.filter (fun t => t.crew != cr) }.setCtx
              { x with dtags := x.dtags.filter (fun g => g.crew != cr) }))
        ∧ (gone → (∀ d ∈ s.crews, d.cohort = c.cohort → d.uid = cr) → ∃ u, exec (.crewRelease cr) s = .next u
          ∧ u.cohort c.cohort = none ∧ u.crew cr = none ∧ ∀ t ∈ u.threads, t.crew ≠ cr))
    ∧ (let isl := s.island i
       let holds := ∃ h ∈ s.cohorts, h.saved = false ∧ h.cluster / 12 = i
       let set := fun (b : Bool) => { s with islands := modifyAt (fun k => { k with on := b }) i s.islands }
       let sched := (s.part (s.partOfDie (i / 4))).sched.toNat
       (isl.on = false → holds → exec (.islandPowerUp i) s = .next (set true))
       ∧ (isl.on = true ∨ ¬holds → exec (.islandPowerUp i) s = .next s)
       ∧ (isl.on = true → sched / 2 ^ 12 % 2 = 1 → ¬holds → sched % 2 ^ 12 ≤ s.now - isl.idleSince →
          exec (.islandPowerDown i) s = .next (set false))
       ∧ (isl.on = false ∨ sched / 2 ^ 12 % 2 = 0 ∨ holds → exec (.islandPowerDown i) s = .next s))

/-- R353, R354, R335, R355: a unit of a stopping context acknowledges once it is at its boundary, a core once each of the context's threads on
it stands at a clause boundary or is not Ready and has no access open; its threads then are Stopped. With the last acknowledgement a halt
or pre-emption saves the context, and a destruction removes it. A context that the arbiter of its die chooses, after those of the dies
below, is restored, once its image can be read and is as it was sealed. -/
def Claims.StopAndRestore : Prop :=
  ∀ (s : State) (c : Nat) (x : Ctx) (st : Stop) (u : StopUnit), s.ctx c = some x →
    (x.stop = none → exec (.unitStopAck c u) s = .next s)
    ∧ (x.stop = some st → u ∈ st.waiting →
        let left := st.waiting.filter (fun w => w != u)
        let stopped := s.stopUnit x u
        (s.atBoundary c u = false → exec (.unitStopAck c u) s = .next s)
        ∧ (s.atBoundary c u = true → ∀ y, stopped.ctx c = some y →
            let acked := { y with stop := some { st with waiting := left } }
            (left ≠ [] → exec (.unitStopAck c u) s = .next (stopped.setCtx acked))
            ∧ (left = [] → exec (.unitStopAck c u) s = .next ((stopped.setCtx acked).completeStop acked { st with waiting := [] })))
        ∧ (∀ k, u = .core k → (s.atBoundary c u = true ↔ ∀ t ∈ s.threads, s.ctxOf t = c → s.coreOf t = k →
              (t.st = .running → t.pc.slot = 0 ∨ (s.judge t (fun _ => true)).1 = none) ∧ ∀ o ∈ t.lops, o.access = false)
            ∧ ∀ t ∈ stopped.threads, s.ctxOf t = c → s.coreOf t = k → t.st = .stopped ∨ t.st = .exited ∨ t.st = .escalated))
    ∧ (let b := s.arbitersBelow (s.restoreDie x)
       (∀ y, b.dieChoice (s.restoreDie x) = some (y, .restore) → y.num = c → exec (.contextRestore c) s = .next (b.restoreCtx y))
       ∧ ((∀ y, b.dieChoice (s.restoreDie x) = some (y, .restore) → y.num ≠ c) → exec (.contextRestore c) s = .next s))
    ∧ (∀ ps home s2, s.placeAll (s.savedOf c) (s.load (fun _ => false)) = some ps →
        (if x.saved then s.homeFor x.part else some x.home) = some home →
        (s.sealOk x = (some true, s2) →
          let placed := ps.foldl State.placeCohort s2
          s.restoreCtx x = (placed.modCtx c (fun y => { y with
            saved := false, sealBytes := [], home := home, waitSince := none
            resSince := if x.saved then placed.cycle else y.resSince
            resTick := if x.saved then placed.now else y.resTick })).wakeWhere (fun t =>
              x.dhalt == false && ((s2.crew t.crew).map (fun k => ps.any (fun p => p.1 == k.cohort))).getD false))
        ∧ (s.sealOk x = (some false, s2) → s.restoreCtx x =
            ((s2.squashWindow c).modCtx c (fun y => { y with sealBytes := [] })).deliver c x.oldestAddr { code := 0x29, sub := 5, detail := x.save })
        ∧ (s.sealOk x = (none, s2) → s.restoreCtx x = s2))

/-- R24, R35, R37, R26, R347: at the end of a cycle the counter advances, every partition may issue again and every die admit; a rendezvous
whose timer has reached its limit, once the cycle's joins and exits have been applied, is dissolved, and each thread joined to it takes the
rendezvous-stall trap with the mask; one that has not, or is not the named one, stays. -/
def Claims.CyclesAndStalls : Prop :=
  ∀ (s : State) (cr rid : Nat) (c : Crew), s.settle.crew cr = some c →
    (s.finishCycle.cycle = s.cycle + 1 ∧ s.finishCycle.issuedNow = [] ∧ s.finishCycle.admits = [] ∧ s.finishCycle.orders = [])
    ∧ (s.cycleIssued = false → exec (.rendezvousStall cr rid) s = .next s)
    ∧ (∀ r, s.cycleIssued = true → c.rdvs.find? (fun r => r.id == rid && decide (r.limit ≤ r.timer)) = some r →
        exec (.rendezvousStall cr rid) s = .next (r.joins.foldl
          (fun s j => s.joinTrap cr r.pc j { code := 9, detail := r.mask.toNat })
          (s.settle.setCrew { c with rdvs := c.rdvs.filter (fun x => x.id != r.id) })))
    ∧ ((∀ r ∈ c.rdvs, r.id = rid → r.timer < r.limit) → exec (.rendezvousStall cr rid) s = .next s)

/-! ### Device time, the scan and pager records -/

/-- R61, R62, R410, R417: a device tick raises `now` by 1 modulo 2^64 while RUN is set and the first time exchange is not awaited; each
stack's link then holds one beat with the new time, and the stamps of results under way are clamped. At a multiple of 2^27 no register's
stamp is left unvisited. Else time stands still. -/
def Claims.DeviceTime : Prop :=
  ∀ (s : State),
    (s.hl.tickctl.getLsbD 8 = false ∨ s.hl.waitTime = true → exec .deviceTick s = .next s)
    ∧ (s.hl.tickctl.getLsbD 8 = true → s.hl.waitTime = false → ∃ u, exec .deviceTick s = .next u ∧ u.now = (s.now + 1) % 2 ^ 64
        ∧ u.cycle = s.cycle ∧ u.hl.swold = s.hl.swins
        ∧ (u.now % 2 ^ 27 ≠ 0 → u.threads = s.threads.map (Thread.clampFlight u.now) ∧ u.crews = s.crews)
        ∧ (u.now % 2 ^ 27 = 0 → (∀ t ∈ u.threads, ∀ r ∈ t.regs, r.s = clampStamp u.now r.s)
            ∧ u.threads.map (fun t => t.regs.map (fun r => r.v)) = s.threads.map (fun t => t.regs.map (fun r => r.v)))
        ∧ u.memStacks.length = s.memStacks.length
        ∧ ∀ k ∈ u.memStacks, (k.reqs.filter (fun r => r.cmd == 6)).map (fun r => r.stamps) = [BitVec.ofNat 64 ((s.now + 1) % 2 ^ 64)])

/-- R62, R63, R423: the clamp leaves a DATA or WEIGHT stamp of an age up to 2^28 as it is and gives an older one the age 2^28 + 1; TIMELESS and
VACANT stamps have no tick. A scan visit clamps the stamp at its place against `now`, and an Eft patrol visit
those of a line's two granules against the Eft's own time; neither changes a byte. -/
def Claims.ClampAndScan : Prop :=
  ∀ (s : State) (pa cr off tid n stack line : Nat) (c : Crew) (t : Thread) (r : Reg),
    (∀ now (x : Stamp),
      let age := (now + 2 ^ 30 - x.toNat % 2 ^ 30) % 2 ^ 30
      (x.toNat / 2 ^ 30 = 2 → clampStamp now x = 0x80000000#32) ∧ (x.toNat / 2 ^ 30 = 3 → clampStamp now x = 0xC0000000#32)
      ∧ (x.toNat / 2 ^ 30 < 2 → age ≤ 2 ^ 28 → clampStamp now x = x)
      ∧ (x.toNat / 2 ^ 30 < 2 → 2 ^ 28 < age →
          (clampStamp now x).toNat = x.toNat / 2 ^ 30 * 2 ^ 30 + (now % 2 ^ 30 + 2 ^ 30 - 2 ^ 28 - 1) % 2 ^ 30))
    ∧ (∃ m : Memory, exec (.stampScanVisit (.dram pa)) s = .next { s with mem := m }
        ∧ (s.mem.wf = true → ∀ g, m.stamp g = if g = pa / 32 then clampStamp s.now (s.mem.stamp g) else s.mem.stamp g)
        ∧ ∀ a, m.byte a = s.mem.byte a)
    ∧ (s.crew cr = some c → ∃ m : Memory, exec (.stampScanVisit (.scratch cr off)) s = .next (s.setCrew { c with scr := m })
        ∧ (c.scr.wf = true → ∀ g, m.stamp g = if g = off / 32 then clampStamp s.now (c.scr.stamp g) else c.scr.stamp g))
    ∧ (s.thread cr tid = some t → t.regs[n]? = some r → exec (.stampScanVisit (.reg cr tid n)) s =
        .next (s.setThread { t with regs := t.regs.set n { r with s := clampStamp s.now r.s } }))
    ∧ (let k := s.memStacks.getD stack Stack.reset
       let bytes := s.height * 2 ^ 32
       let g0 := (stack * bytes + 64 * line) / 32
       (k.started = true → stack < 16 → 64 * line < bytes → ∃ m : Memory, exec (.eftPatrolVisit stack line) s = .next { s with mem := m }
          ∧ (s.mem.wf = true → ∀ g, m.stamp g = if g = g0 ∨ g = g0 + 1 then patrolStamp k.eftNow (s.mem.stamp g) else s.mem.stamp g)
          ∧ ∀ a, m.byte a = s.mem.byte a)
       ∧ (k.started = false ∨ 16 ≤ stack → exec (.eftPatrolVisit stack line) s = .next s))

/-- R369, R370: the first fault that waits for pager p of a context becomes a record once the position of the next record reads TAG 0 and can
be written: words 1
to 3 (kind, context and access; the unit; the time), then word 0 with the number + 1, are written to the pager's queue buffer; the record
is then outstanding, with the agents that joined the fault. -/
def Claims.PagerRecords : Prop :=
  ∀ (s s2 : State) (c p : Nat) (x y : Ctx) (q : Pager) (f : PFault) (rest : List PFault) (b : LBuf) (bs : List Byte) (stamps : List Stamp),
    s.ctx c = some x → x.pagers.find? (fun q => q.p == p) = some q → q.waiting = f :: rest → s.ctx q.sctx = some y →
    y.rmap.find? (fun b => b.n == q.qlb) = some b →
    let va := b.ver.va + 32 * (q.next % 2 ^ q.logq)
    s.engRead q.sctx va 8 = (.ok (bs, stamps), s2) →
    (ofBytes bs ≠ 0 → exec (.pagerRecordWrite c p) s = .next s2)
    ∧ (∀ e s3, ofBytes bs = 0 → s2.engMap q.sctx .store va 32 = (.error e, s3) → exec (.pagerRecordWrite c p) s = .next s3)
    ∧ (∀ l s3, ofBytes bs = 0 → s2.engMap q.sctx .store va 32 = (.ok l, s3) →
      let w1 := f.kind % 2 ^ 8 * 2 ^ 56 + c % 2 ^ 6 * 2 ^ 48 + f.acc % 2 ^ 8 * 2 ^ 40
      let w2 := f.unit % 2 ^ 40 * 2 ^ 16
      exec (.pagerRecordWrite c p) s = .next (((((s3.ctxWrite q.sctx (va + 8) (toBytes 8 w1)).ctxWrite q.sctx (va + 16) (toBytes 8 w2)).ctxWrite
          q.sctx (va + 24) (toBytes 8 f.time)).ctxWrite q.sctx va (toBytes 8 (q.next + 1))).modCtx c (fun z => z.modPager p (fun q =>
            { q with next := q.next + 1, recs := q.recs ++ [{ n := q.next, unit := f.unit, joined := f.joined }], waiting := rest }))))

/-! ### Errors and resets -/

/-- R340, R341, R345: a correctable error of a core counts, is logged, and makes a core fault once the count exceeds CETH; one of a stack
counts there. An uncorrectable data error poisons the granule at its place (registers and planes hold no poison) and leaves its bytes. -/
def Claims.ErrorsAreCountedAndPoison : Prop :=
  ∀ (s : State) (k n synd pa cr off tid : Nat) (u : ErrUnit) (c : Crew),
    let e := s.coreEntry k
    let counted := (s.setCoreEntry { e with errors := e.errors + 1 }).logCore k 1 0 none pa
    let cpol := (s.part (s.partOfDie (k / 384)))
    (k < 3072 → cpol.pendPol = [] →
      (e.errors + 1 ≤ cpol.cpol.toNat / 2 ^ 8 % 2 ^ 8 → exec (.correctableError (.core k) pa) s = .next counted)
      ∧ (cpol.cpol.toNat / 2 ^ 8 % 2 ^ 8 < e.errors + 1 → exec (.correctableError (.core k) pa) s = .next (counted.coreFault k)))
    ∧ (n < 16 → synd = 1 ∨ synd = 5 → exec (.correctableError (.stack n synd) pa) s =
        .next ((s.modStack n (fun k => { k with corrected := k.corrected + 1 })).logStack n 1 0 pa synd))
    ∧ (∃ (m : Memory) (v : State), exec (.uncorrectableDataError (.dram pa) (.core k)) s = .next v
        ∧ v = ({ s with mem := m, freeCtr := s.freeCtr + 1 } : State).logCore k 2 1 none pa
        ∧ (s.mem.wf = true → ∀ g, m.isPoison g = (decide (g = pa / 32) || s.mem.isPoison g)) ∧ ∀ a, m.byte a = s.mem.byte a)
    ∧ (s.crew cr = some c → ∃ (m : Memory) (a : Nat), exec (.uncorrectableDataError (.scratch cr off) (.core k)) s =
          .next (({ s with freeCtr := s.freeCtr + 1 }.setCrew { c with scr := m }).logCore k 2 1 none a)
        ∧ (c.scr.wf = true → ∀ g, m.isPoison g = (decide (g = off / 32) || c.scr.isPoison g)))
    ∧ exec (.uncorrectableDataError (.reg cr tid n) u) s = .next s

/-- R342, R359, R7: a core fault fences the core where its policy authorises it, and handles each crew resident on it; a reset of a core
handles each crew from crew replay on, one of a cluster's units empties its planes, queues and allotments and handles its crews from task
replay on, one of an engine ends the engine thread. A host link reset drops what it held. A cold reset gives every register its reset
value; host memory keeps its bytes. -/
def Claims.FaultsAndResetsOfParts : Prop :=
  ∀ (s : State) (k q e : Nat) (x : Engine) (y : Ctx),
    let pol := fun (d : Nat) => (s.part (s.partOfDie d)).cpol.toNat
    let settled := fun (d : Nat) => (s.part (s.partOfDie d)).pendPol = []
    let fenced := s.setCoreEntry { s.coreEntry k with fenced := true, avail := false, next := none }
    let begin_ := if pol (k / 384) / 2 ^ 2 % 2 = 1 then fenced else s
    (k < 3072 → settled (k / 384) → s.crewsOn k ≠ [] →
      exec (.coreFault k) s = .next ((s.crewsOn k).foldl (State.contain (pol (k / 384)) 1) begin_))
    ∧ (k < 3072 → settled (k / 384) → s.crewsOn k = [] → ∃ a, exec (.coreFault k) s =
        .next ({ begin_ with freeCtr := s.freeCtr + 1 }.logCore k 3 0 none a))
    ∧ (settled (k / 384) → exec (.coreReset k) s = .next ((s.crewsOn k).foldl (State.contain (pol (k / 384)) 3) s))
    ∧ (settled (q / 48) →
        let lost := fun (h : Cohort) => !h.saved && h.cluster == q
        let mine := fun (c : Crew) => s.cohorts.any (fun h => lost h && h.uid == c.cohort)
        let empty := { s with
          cohorts := s.cohorts.map (fun h => if lost h then { h with acc := Memory.empty } else h)
          crews := s.crews.map (fun c => if mine c then { c with active := Plane.empty, shadow := Plane.empty, mq := [] } else c) }
        exec (.matrixUnitReset q) s = .next ((empty.crews.filter mine).foldl (State.contain (pol (q / 48)) 4) empty))
    ∧ (s.engine e = some x → s.ctx x.ctx = some y → ∃ u, exec (.copyEngineReset e) s = .next u ∧ u.engine e = none)
    ∧ exec (.windowLogicReset q) s = .next ((s.ctxs.filter (fun x => x.home == q && !x.saved)).foldl State.resetWindow s)
    ∧ (∃ u, exec .hostLinkReset s = .next u ∧ u.hl = { s.hl with held := [], snoops := [] } ∧ u.mem = s.mem ∧ u.hmem = s.hmem
        ∧ u.threads = s.threads)
    ∧ (∃ m : Memory, exec .coldReset s = .next { State.reset with
          devid := s.devid, height := s.height, hmem := m, fab := { Fabric.reset with domain := s.fab.domain }
          nextUid := s.nextUid, freeCtr := s.freeCtr } ∧ ∀ a, m.byte a = s.hmem.byte a)

/-! ### The host link -/

/-- R408, R412, R414, R44: while a boot failure stands the device does not answer; a read beyond usable memory is a violation; one of a page in
transition is held; any other returns its line, with the poison indication of its granules. A caching read of a device-bias page
flips the page to host bias first and is held for it. -/
def Claims.HostReads : Prop :=
  ∀ (s : State) (pa : Nat) (caching : Bool) (i : Instr), i = (if caching then .memrdCaching pa else .memrd pa) →
    let held := fun (u : State) => { u with hl := { u.hl with held := u.hl.held ++ [.read pa caching] } }
    (s.hl.fail ≠ 0 → exec i s = .next s)
    ∧ (s.hl.fail = 0 → s.height * 2 ^ 36 ≤ pa → exec i s = .next (s.hostViolation pa))
    ∧ (s.hl.fail = 0 → pa < s.height * 2 ^ 36 → (∃ f ∈ s.hl.flips, f.page = pa / 4096) → exec i s = .next (held s))
    ∧ (s.hl.fail = 0 → pa < s.height * 2 ^ 36 → (∀ f ∈ s.hl.flips, f.page ≠ pa / 4096) →
        (caching = true → s.hl.biasSet = true → s.hostBias pa = false →
          exec i s = .next (held { s with hl := { s.hl with
            flips := s.hl.flips ++ [{ page := pa / 4096, toHost := true, snoops := [], commanded := false }]
            answered := s.hl.answered.filter (fun l => l / 64 != pa / 4096) } }))
        ∧ (caching = false ∨ s.hl.biasSet = false ∨ s.hostBias pa = true → ∃ u d p, exec i s = .next u
            ∧ u.hostOut = s.hostOut ++ [.data (pa / 64 * 64) d p] ∧ u.mem = s.mem ∧ u.threads = s.threads ∧ u.hl.flips = s.hl.flips
            ∧ (∀ n, n < 64 → d.extractLsb' (8 * n) 8 = s.mem.byte (pa / 64 * 64 + n))
            ∧ p = (s.mem.isPoison (pa / 64 * 2) || s.mem.isPoison (pa / 64 * 2 + 1))))

/-- R412, R414, R417, R47, R49, R44: with the stamp windows unchanged in this tick, a host write of a page in transition is held with the
stamps of its arrival; one that is not held and hits no stream header and no byte of the bias table writes the bytes of its
mask and completes: a granule that it covers whole takes the window's stamp and loses
its poison, one that it covers in part combines the stamp into its own and keeps its poison, any other is unchanged. -/
def Claims.HostWrites : Prop :=
  ∀ (s : State) (pa : Nat) (d : BitVec 512) (mask : BitVec 64) (i : Instr),
    i = .memwrptl pa d mask ∨ (i = .memwr pa d ∧ mask = BitVec.allOnes 64) →
    let st := (windowStamp s.hl.swins s.now (pa / 64 * 64), windowStamp s.hl.swins s.now (pa / 64 * 64 + 32))
    let req : HeldReq := .write pa d mask (match i with | .memwrptl _ _ _ => true | _ => false) st
    s.hl.swold = s.hl.swins →
    (s.hl.fail ≠ 0 → exec i s = .next s)
    ∧ (s.hl.fail = 0 → s.height * 2 ^ 36 ≤ pa → exec i s = .next (s.hostViolation pa))
    ∧ (s.hl.fail = 0 → pa < s.height * 2 ^ 36 → (∃ f ∈ s.hl.flips, f.page = pa / 4096) →
        exec i s = .next { s with hl := { s.hl with held := s.hl.held ++ [req] } })
    ∧ (s.hl.fail = 0 → pa < s.height * 2 ^ 36 → (∀ f ∈ s.hl.flips, f.page ≠ pa / 4096) →
        (s.writeForbidden pa = true → exec i s = .next (s.hostViolation pa))
        ∧ (s.writeForbidden pa = false → s.mem.wf = true →
            ∃ m : Memory, exec i s = .next { s with mem := m, hostOut := s.hostOut ++ [.complete (pa / 64 * 64)] }
            ∧ (∀ a, m.byte a = if a / 64 = pa / 64 ∧ mask.getLsbD (a % 64) = true then d.extractLsb' (8 * (a % 64)) 8 else s.mem.byte a)
            ∧ ∀ g,
                let covered := (List.range 32).countP (fun k => decide (g / 2 = pa / 64) && mask.getLsbD (g % 2 * 32 + k))
                let st := windowStamp s.hl.swins s.now (32 * g)
                m.stamp g = (if covered = 0 then s.mem.stamp g else if covered = 32 then clampStamp s.now st
                  else clampStamp s.now (combine (s.mem.stamp g) st))
                ∧ m.isPoison g = (if covered = 32 then false else s.mem.isPoison g)))

/-- R416, R417, R47, R331: the stamp of a host write is that of the lowest-numbered enabled window that contains the address: its class at the arrival
tick (MODE 1), or its fixed stamp normalised (MODE 2); without one, DATA at the arrival tick. -/
def Claims.StampWindows : Prop :=
  ∀ (ws before after : List StampWin) (w : StampWin) (now pa : Nat),
    let enabled := fun (w : StampWin) => w.stamp.toNat / 2 ^ 32 % 4 ≠ 0 ∧ w.base.toNat ≤ pa ∧ pa < w.lim.toNat
    ((∀ w ∈ ws, ¬enabled w) → windowStamp ws now pa = BitVec.ofNat 32 (now % 2 ^ 30))
    ∧ (ws = before ++ w :: after → (∀ v ∈ before, ¬enabled v) → enabled w →
        (w.stamp.toNat / 2 ^ 32 % 4 = 1 → windowStamp ws now pa =
          (let c := w.stamp.toNat / 2 ^ 30 % 4
           BitVec.ofNat 32 (c * 2 ^ 30 + if c < 2 then now % 2 ^ 30 else 0)))
        ∧ (w.stamp.toNat / 2 ^ 32 % 4 = 2 → windowStamp ws now pa = normaliseStamp now (w.stamp.setWidth 32)))

/-- R408, R345, R409, R429, R7: a request with an unsupported opcode gets an unsupported-request completion and a host-side record; a read of
an offset that no map lists is a violation, with an error response and a record, and returns zero; a listed one returns its register, the
Aqlin DVSEC's among them. -/
def Claims.UnsupportedAndUnlisted : Prop :=
  ∀ (s : State) (code pa off : Nat),
    let logged := fun (a : Nat) => s.logError none 4 0 none 0xFFF false a 0 0
    let tells := fun (u : State) (l : List HostMsg) => ({ u with hostOut := u.hostOut ++ l } : State)
    (∀ a, (logged a).threads = s.threads ∧ (logged a).hl.hlogNext =
      (if s.hl.hlogSet = false then s.hl.hlogNext else s.hl.hlogNext + 1))
    ∧ exec (.unsupportedRequest code pa) s = .next (tells (logged pa) [.unsupported code])
    ∧ (s.readRegister off = none →
        exec (.unlistedOffsetRead off) s = .next (tells (logged off) [.error off, .value off 0#64]))
    ∧ (∀ v, s.readRegister off = some v → exec (.unlistedOffsetRead off) s = .next { s with hostOut := s.hostOut ++ [.value off v] })
    ∧ (off < 2 ^ 32 → s.readRegister off = s.readBar0 off)
    ∧ (let dvsec := fun (k : Nat) => s.readRegister (2 ^ 33 + k)
       let extra := if s.hl.hostfeat.toNat / 2 ^ 8 = 0 then 0 else 2
       dvsec 0x10 = some 0xFF#64 ∧ dvsec 0x18 = some 0#64 ∧ dvsec 0x20 = some (s.hl.hostfeat.extractLsb' 0 64)
       ∧ dvsec 0x28 = some (s.hl.hostfeat.extractLsb' 64 64)
       ∧ dvsec 0x30 = some (BitVec.ofNat 64 (extra + if s.hl.lock then 1 else 0)))
    ∧ (s.readBar0 0 = some (BitVec.ofNat 64 (s.height * 2 ^ 40 + 0x00070000)) ∧ s.readBar0 0x20 = some 0#64
       ∧ s.readBar0 0x10 = some s.hl.tickctl ∧ s.readBar0 0x2010 = some 0#64 ∧ s.readBar0 0x118 = none ∧ s.readBar0 4 = none)

/-- R412, R435, R436, R64: an answer to an outstanding snoop ends it; data that it brings is one host write of the whole line, and a violation
where a host write is one, with nothing written. An answer to no outstanding snoop changes nothing (the model's reading, log 21). -/
def Claims.SnoopAnswers : Prop :=
  ∀ (s : State) (pa : Nat) (data : Option (BitVec 512)),
    let waits := pa / 64 ∈ s.hl.snoops ∨ ∃ f ∈ s.hl.flips, pa / 64 ∈ f.snoops
    (¬waits → exec (.birsp pa data) s = .next s)
    ∧ (waits → ∀ d, data = some d → s.writeForbidden pa = true → ∃ u, exec (.birsp pa data) s = .next u ∧ pa / 64 ∉ u.hl.snoops
        ∧ (∀ f ∈ u.hl.flips, pa / 64 ∉ f.snoops) ∧ u.hostOut.getLast? = some (.error pa)
        ∧ (s.hl.hlogSet = false → u.mem = s.mem ∧ u.hostOut = s.hostOut ++ [.error pa]))
    ∧ (waits → data = none ∨ s.writeForbidden pa = false → ∃ u, exec (.birsp pa data) s = .next u ∧ pa / 64 ∉ u.hl.snoops
        ∧ (∀ l, l ≠ pa / 64 → (l ∈ u.hl.snoops ↔ l ∈ s.hl.snoops))
        ∧ u.hl.flips.map (fun f => f.page) = s.hl.flips.map (fun f => f.page) ∧ (∀ f ∈ u.hl.flips, pa / 64 ∉ f.snoops)
        ∧ u.threads = s.threads
        ∧ (data = none → u.mem = s.mem)
        ∧ (∀ d, data = some d → s.mem.wf = true → ∀ a, u.mem.byte a =
            if a / 64 = pa / 64 then d.extractLsb' (8 * (a % 64)) 8 else s.mem.byte a))

/-- R224, R239, R299: a snoop of the host takes the device's copy of a host line and counts as a write for the reads that wait on its granules;
a line that comes anew is stamped DATA at its arrival and brings what the host holds. -/
def Claims.HostLines : Prop :=
  ∀ (s : State) (pa : Nat) (d : BitVec 512), s.hmem.wf = true →
    (∃ m : Memory, exec (.hostSnoop pa) s =
        .next { s with hmem := m, hl := { s.hl with lines := s.hl.lines.filter (fun l => l != pa / 64) } }
      ∧ m.bytes = s.hmem.bytes ∧ m.stamps = s.hmem.stamps ∧ m.poison = s.hmem.poison)
    ∧ (s.hl.features.getLsbD 5 = false ∨ pa / 64 ∈ s.hl.lines → exec (.hostLineFill pa d) s = .next s)
    ∧ (s.hl.features.getLsbD 5 = true → pa / 64 ∉ s.hl.lines → ∃ m : Memory,
        exec (.hostLineFill pa d) s = .next { s with hmem := m, hl := { s.hl with lines := s.hl.lines ++ [pa / 64] } }
        ∧ (∀ a, m.byte a = if a / 64 = pa / 64 then d.extractLsb' (8 * (a % 64)) 8 else s.hmem.byte a)
        ∧ ∀ g, m.stamp g = if g / 2 = pa / 64 then BitVec.ofNat 32 (s.now % 2 ^ 30) else s.hmem.stamp g)

/-- R413, R414: a bias command while BUSY, or for a page outside usable memory, is a violation; a flip to the bias the page has completes at
once and sends the bias vector; one for a page in transition waits; any other starts a flip, with one snoop for each of the page's 64 lines when it goes to device
bias. -/
def Claims.BiasCommands : Prop :=
  ∀ (s : State) (page : Nat) (toHost : Bool) (i : Instr), i = (if toHost then .biascmdToHost page else .biascmdToDevice page) →
    let lines := if toHost then [] else (List.range 64).map (fun n => page * 64 + n)
    (s.hl.busy = true ∨ s.height * 2 ^ 36 ≤ page * 4096 → exec i s = .next (s.hostViolation 0x30))
    ∧ (s.hl.busy = false → page * 4096 < s.height * 2 ^ 36 → s.hl.biasSet = true →
        ((∃ f ∈ s.hl.flips, f.page = page) →
          exec i s = .next { s with hl := { s.hl with busy := true, bscPage := page, pendingCmd := some (page, toHost) } })
        ∧ ((∀ f ∈ s.hl.flips, f.page ≠ page) → s.hostBias (page * 4096) = toHost →
          exec i s = .next { s with
            hl := { s.hl with busy := false, bscPage := page, bscBias := toHost }
            msix := s.msix ++ [s.hl.irqvec.toNat / 2 ^ 16 % 2 ^ 11] })
        ∧ ((∀ f ∈ s.hl.flips, f.page ≠ page) → s.hostBias (page * 4096) ≠ toHost → ∃ u, exec i s = .next u
          ∧ u.hl.busy = true ∧ u.hl.bscPage = page ∧ u.mem = s.mem ∧ u.threads = s.threads ∧ u.msix = s.msix
          ∧ u.hl.flips = s.hl.flips ++ [{ page := page, toHost := toHost, snoops := lines, commanded := true }]
          ∧ u.hostOut = s.hostOut ++ lines.map (fun l => .snoop (l * 64) false)))

/-- R414, R435: a flip completes once its snoops are answered: the bit in the bias table becomes the new bias, and no other bit changes; a
commanded flip clears BUSY, shows its bias and sends the bias vector. Before that, or for a page that is not in transition, nothing
happens. The held requests of the page are then served (stated for a page with none, and with no command that waits for it). -/
def Claims.FlipsComplete : Prop :=
  ∀ (s : State) (page : Nat) (f : Flip),
    ((∀ f ∈ s.hl.flips, f.page ≠ page) → exec (.flipComplete page) s = .next s)
    ∧ (s.hl.flips.find? (fun f => f.page == page) = some f →
        (f.snoops ≠ [] → exec (.flipComplete page) s = .next s)
        ∧ (f.snoops = [] → (∃ u, exec (.flipComplete page) s = .next u ∧ u.threads = s.threads)
          ∧ (s.hl.held = [] → (∀ p b, s.hl.pendingCmd = some (p, b) → p ≠ page) → s.mem.wf = true → ∃ u, exec (.flipComplete page) s = .next u
            ∧ (∀ g ∈ u.hl.flips, g.page ≠ page)
            ∧ (∀ n, (u.mem.byte (s.hl.biasbase.toNat + page / 8)).getLsbD n =
                if n = page % 8 then f.toHost else (s.mem.byte (s.hl.biasbase.toNat + page / 8)).getLsbD n)
            ∧ (∀ a, a ≠ s.hl.biasbase.toNat + page / 8 → u.mem.byte a = s.mem.byte a)
            ∧ (f.commanded = true → u.hl.busy = false ∧ u.hl.bscPage = page ∧ u.hl.bscBias = f.toHost
                ∧ u.msix = s.msix ++ [s.hl.irqvec.toNat / 2 ^ 16 % 2 ^ 11])
            ∧ (f.commanded = false → u.hl.busy = s.hl.busy ∧ u.msix = s.msix))))

/-! ### Management registers, boot and attestation -/

/-- R426, R427, R431, R434: GO is taken once, at stage 0; the image's signatures and version are checked in that order, then the islands of
each die come up in ascending order, then the stacks must report one height and start in ascending order; the first that fails stops boot
with its code and leaves what came before it as it is. With all in order STAGE becomes 4. -/
def Claims.Boot : Prop :=
  ∀ (s : State),
    let image := s.hl.imageBytes
    let stop := fun (stage fail : Nat) => { s with hl := { s.hl with go := true, stage := stage, fail := fail } }
    (s.hl.go = true ∨ s.hl.stage ≠ 0 → exec .bootstGo s = .next (s.hostViolation 0x08))
    ∧ (s.hl.go = false → s.hl.stage = 0 →
        (Config.ecdsaOk image = false → exec .bootstGo s = .next (stop 1 1))
        ∧ (Config.ecdsaOk image = true → Config.lmsOk image = false → exec .bootstGo s = .next (stop 1 2))
        ∧ (Config.ecdsaOk image = true → Config.lmsOk image = true → Config.imageVersion image < Config.minVersion →
            exec .bootstGo s = .next (stop 1 3))
        ∧ (Config.ecdsaOk image = true → Config.lmsOk image = true → Config.minVersion ≤ Config.imageVersion image →
            let regulates := fun (n : Nat) => n = 0 ∨ Config.islandOk n = true
            let allUp := ∀ n, n ≤ 31 → regulates n
            let starts := fun (l : List Stack) => l.map (fun k => { k with started := true })
            ∃ u, exec .bootstGo s = .next u ∧ u.mem = s.mem ∧ u.hl.go = true ∧ u.islands.length = s.islands.length
              ∧ (∀ (n : Nat) (k : Island), s.islands[n]? = some k →
                  ((∀ j, j ≤ n % 4 → regulates (n / 4 * 4 + j)) → u.islands[n]? = some { k with on := true, idleSince := s.now })
                  ∧ ((∃ j, j ≤ n % 4 ∧ ¬regulates (n / 4 * 4 + j)) → u.islands[n]? = some k))
              ∧ (¬allUp → u.hl.stage = 2 ∧ u.hl.fail = 6 ∧ u.memStacks = s.memStacks)
              ∧ (allUp → Config.heightsOk = false → u.hl.stage = 3 ∧ u.hl.fail = 4 ∧ u.memStacks = s.memStacks)
              ∧ (allUp → Config.heightsOk = true →
                  (∀ before k after, s.memStacks = before ++ k :: after → (∀ b ∈ before, Config.eftStarts b.image = true) →
                    Config.eftStarts k.image = false → k.started = false →
                    u.hl.stage = 3 ∧ u.hl.fail = 5 ∧ u.memStacks = starts before ++ k :: after)
                  ∧ ((∀ k ∈ s.memStacks, Config.eftStarts k.image = true) →
                    u.hl.stage = 4 ∧ u.hl.fail = 0 ∧ u.memStacks = starts s.memStacks))))

/-- R428, R429: the device answers over DOE with the certificate chain, with a signature over the nonce, and with the measurements (image digest,
the stacks' image digests, the fused version, the agreed features) and their signature; LOCK agrees DEVFEAT AND HOSTFEAT once. -/
def Claims.AttestationAndFeatures : Prop :=
  ∀ (s : State) (off len : Nat) (nonce : BitVec 256),
    let measured := toBytes 48 (Config.sha384 s.hl.imageBytes).toNat ++ s.memStacks.flatMap (fun k => toBytes 48 (Config.sha384 k.image).toNat)
      ++ toBytes 8 Config.minVersion ++ toBytes 16 s.hl.features.toNat
    exec (.getCertificate off len) s = .next { s with hostOut := s.hostOut ++ [.spdm ((Config.certChain.drop off).take len)] }
    ∧ exec (.challenge nonce) s = .next { s with hostOut := s.hostOut ++ [.spdm (Config.spdmSign (toBytes 32 nonce.toNat))] }
    ∧ exec .getMeasurements s = .next { s with hostOut := s.hostOut ++ [.spdm (measured ++ Config.spdmSign measured)] }
    ∧ exec .featctlLock s = .next (if s.hl.lock = true then s
        else { s with hl := { s.hl with lock := true, features := 0xFF#128 &&& s.hl.hostfeat } })

/-- R410, R403: TICKCTL takes an exponent of 6 to 20; a reserved bit, or a change while RUN is 1, is a violation. Setting RUN starts device time at
TIMESET, but on a package that is not the time master with FABRIC agreed, which waits for the first exchange. -/
def Claims.TimeControl : Prop :=
  ∀ (s : State) (v : Word),
    let k := v.toNat % 32
    let ok := v.toNat / 2 ^ 9 = 0 ∧ v.toNat / 32 % 8 = 0 ∧ 6 ≤ k ∧ k ≤ 20
    let run := v.getLsbD 8
    let written := { s with hl := { s.hl with tickctl := v } }
    (¬ok → exec (.tickctlWrite v) s = .next (s.hostViolation 0x10))
    ∧ (ok → s.hl.tickctl.getLsbD 8 = true → exec (.tickctlWrite v) s =
        .next (if run = true ∧ k = s.hl.tickctl.toNat % 32 then s else s.hostViolation 0x10))
    ∧ (ok → s.hl.tickctl.getLsbD 8 = false →
        (run = false → exec (.tickctlWrite v) s = .next written)
        ∧ (run = true → (s.hl.features.getLsbD 2 = true ∧ ∃ q ∈ s.fab.domain, q ∉ s.fab.left ∧ q < s.devid) →
            exec (.tickctlWrite v) s = .next { s with hl := { s.hl with tickctl := v, waitTime := true } })
        ∧ (run = true → (s.hl.features.getLsbD 2 = false ∨ ∀ q ∈ s.fab.domain, q ∉ s.fab.left → s.devid ≤ q) →
            exec (.tickctlWrite v) s = .next { s with hl := { s.hl with tickctl := v }, now := s.hl.timeset.toNat }))

/-- R433: a write of CTX0 at stage 4 with LOCK, BIASBASE and RUN set, of a readable and valid descriptor, creates context 0 with PRIV in partition 0,
and STAGE becomes 5; a write with one of these missing is a violation. -/
def Claims.FirstContext : Prop :=
  ∀ (s : State) (v : Word),
    let a := v.toNat
    let w := wordsOf (s.mem.read a 128)
    let ready := s.hl.stage = 4 ∧ s.hl.fail = 0 ∧ s.hl.lock = true ∧ s.hl.biasSet = true ∧ s.hl.tickctl.getLsbD 8 = true
    let good := a % 128 = 0 ∧ a + 128 ≤ s.height * 2 ^ 36 ∧ (∀ g, a / 32 ≤ g → g < a / 32 + 4 → s.mem.isPoison g = false)
      ∧ s.ctx 0 = none ∧ s.partOpen 0 = true ∧ s.descOk 0 w = true
    (¬(ready ∧ good) → exec (.ctx0 v) s = .next (s.hostViolation 0x20))
    ∧ (ready → good → ∀ home, s.homeFor 0 = some home →
        let q := { s with ctxs := s.ctxs ++ [ctxOfDesc 0 home s.cycle w] }.ctxWrite 0 (w.getD 0 0#64).toNat (List.replicate 256 0#8)
        ∃ u x, exec (.ctx0 v) s = .next u
        ∧ u = { q.modCtx 0 (fun x => { x with priv := true }) with hl := { q.hl with stage := 5, fail := 0 } }
        ∧ u.ctx 0 = some x ∧ x.priv = true ∧ x.part = 0 ∧ x.home = home ∧ u.threads = s.threads)

/-- R409, R410, R416, R418, R378, R429, R7: a host write of a register takes effect at its offset: IRQVEC, TIMESET before RUN, FABCTL and the scheduler word in
their ranges, a partition entry without contexts, the BAR2 window byte by byte; a write to an offset that the map does not list, or a
field outside its rule, is a violation, and a read-only register keeps its value. -/
def Claims.RegisterWrites : Prop :=
  ∀ (s : State) (off : Nat) (v : Word) (p : Nat),
    let x := v.toNat
    let w := fun (off : Nat) => exec (.hostRegisterWrite off v) s
    (w 0 = .next s ∧ w 0x38 = .next s ∧ w 0x118 = .next (s.hostViolation 0x118) ∧ w 4 = .next (s.hostViolation 4))
    ∧ w 0x10 = exec (.tickctlWrite v) s ∧ w 0x20 = exec (.ctx0 v) s
    ∧ (x = 2 ^ 8 → w 0x08 = exec .bootstGo s)
    ∧ w 0x18 = .next (if s.hl.tickctl.getLsbD 8 = true then s.hostViolation 0x18 else { s with hl := { s.hl with timeset := v } })
    ∧ ((x / 2 ^ 43 = 0 ∧ x / 2 ^ 27 % 2 ^ 5 = 0 ∧ x / 2 ^ 11 % 2 ^ 5 = 0) → w 0x110 = .next { s with hl := { s.hl with irqvec := v } })
    ∧ ((x / 2 ^ 43 ≠ 0 ∨ x / 2 ^ 27 % 2 ^ 5 ≠ 0 ∨ x / 2 ^ 11 % 2 ^ 5 ≠ 0) → w 0x110 = .next (s.hostViolation 0x110))
    ∧ w 0x2000 = .next (if fabctlOk x = true then { s with fab := { s.fab with fabctl := v } } else s.hostViolation 0x2000)
    ∧ (p < 8 →
        (s.schedOk x = true → w (0x1000 + 0x80 * p + 0x78) = .next (s.modPart p (fun e => { e with sched := v })))
        ∧ (s.schedOk x = false → w (0x1000 + 0x80 * p + 0x78) = .next (s.hostViolation (0x1000 + 0x80 * p + 0x78)))
        ∧ ((∃ y ∈ s.ctxs, y.part = p) → w (0x1000 + 0x80 * p + 0x48) = .next (s.hostViolation (0x1000 + 0x80 * p + 0x48)))
        ∧ ((∀ y ∈ s.ctxs, y.part ≠ p) → w (0x1000 + 0x80 * p + 0x48) = .next (s.modPart p (fun e => { e with lq := v }))))
    ∧ (off < 2 ^ 26 → AList.wf 0#8 s.hl.image = true → ∃ m, w (2 ^ 32 + off) = .next { s with hl := { s.hl with image := m } }
        ∧ ∀ a, AList.get 0#8 a m = if off ≤ a ∧ a < off + 8 then v.extractLsb' (8 * (a - off)) 8 else AList.get 0#8 a s.hl.image)
    ∧ (s.hl.lock = false → w (2 ^ 33 + 0x20) = .next { s with hl := { s.hl with hostfeat := s.hl.hostfeat.extractLsb' 64 64 ++ v } })
    ∧ (s.hl.lock = true → w (2 ^ 33 + 0x20) = .next s)
    ∧ w (2 ^ 33 + 0x10) = .next s ∧ w (2 ^ 33 + 0x18) = .next s
    ∧ (v.getLsbD 0 = true → w (2 ^ 33 + 0x30) = exec .featctlLock s) ∧ (v.getLsbD 0 = false → w (2 ^ 33 + 0x30) = .next s)

/-- R432, R402: a write of LKGO installs the key in the key registers for the selected direction of the selected peer and clears them: a first key at
once, with any epoch; a later one only with the next epoch, to be taken into use when the one in use has served. One's own `devid`, another epoch, or a second waiting key is a violation. -/
def Claims.LinkKeys : Prop :=
  ∀ (s : State),
    let q := s.hl.lksel.toNat / 2 ^ 8 % 2 ^ 6
    let rx := s.hl.lksel.getLsbD 0
    let k := s.hl.keyIn
    let l := s.fab.linkOr q
    let cur := if rx then l.rx else l.tx
    let next := if rx then l.rxNext else l.txNext
    let cleared := { s with hl := { s.hl with lkeys := [0#64, 0#64, 0#64, 0#64], lkepoch := 0#64 } }
    (q = s.devid ∨ (∃ c, cur = some c ∧ (k.epoch ≠ c.epoch + 1 ∨ next ≠ none)) → exec .lkgo s = .next (s.hostViolation 0x2038))
    ∧ (q ≠ s.devid → rx = true → cur = none → exec .lkgo s = .next (cleared.modLink q (fun l => { l with rx := some k })))
    ∧ (q ≠ s.devid → rx = false → cur = none → l.stall = false →
        exec .lkgo s = .next (cleared.modLink q (fun l => { l with tx := some k })))
    ∧ (∀ c, q ≠ s.devid → cur = some c → next = none → k.epoch = c.epoch + 1 →
        (rx = true → exec .lkgo s = .next (cleared.modLink q (fun l => { l with rxNext := some k })))
        ∧ (rx = false → l.stall = false → exec .lkgo s = .next (cleared.modLink q (fun l => { l with txNext := some k })))
        ∧ (rx = false → l.stall = true → exec .lkgo s = .next ((cleared.modLink q (fun l => { l with txNext := some k })).switchTx q)))
    ∧ (∀ a b c d, s.hl.lkeys = [a, b, c, d] → k = { key := d ++ c ++ b ++ a, epoch := s.hl.lkepoch.toNat % 2 ^ 36 })

/-! ### Stack links -/

/-- R424: a mailbox command of the host is taken while the mailbox is not BUSY, and goes over the stack's link; a write while BUSY is a
violation. -/
def Claims.MailboxCommands : Prop :=
  ∀ (s : State) (n code : Nat) (i : Instr),
    (i, code) ∈ [(Instr.loadFirmwareImage n, 1), (.startFirmware n, 2), (.readFirmwareVersion n, 3), (.readCounts n, 4)] →
    (n < 16 → (s.memStacks.getD n Stack.reset).busy = false → 
      let r : StackReq := { cmd := 5, tag := 0, gmask := 0, addr := 0, stamps := 0#64, data := [] }
      let put := fun (k : Stack) => { k with cmd := BitVec.ofNat 64 code, busy := true, reqs := k.reqs ++ [r] }
      exec i s = .next { s with memStacks := modifyAt put n s.memStacks })
    ∧ ((s.memStacks.getD n Stack.reset).busy = true ∨ 16 ≤ n → exec i s = .next (s.hostViolation (0x3000 + 0x100 * n)))

/-- R424, R421: the base die performs a mailbox request: BUSY falls, the result is shown, and a response goes back. START of a loaded image whose
firmware starts starts the stack; READ COUNTS gives the counts; a code that names no command gives *bad command*. -/
def Claims.MailboxPerformed : Prop :=
  ∀ (s : State) (n tag : Nat) (r : StackReq) (before after : List StackReq), n < s.memStacks.length →
    let k := s.memStacks.getD n Stack.reset
    let mine := fun (x : StackReq) => x.cmd = 5 ∧ x.tag = tag
    ((∀ x ∈ k.reqs, ¬mine x) → exec (.stackMailbox n tag) s = .next s)
    ∧ (k.reqs = before ++ r :: after → mine r → (∀ x ∈ before, ¬mine x) →
        ∃ d : Stack, exec (.stackMailbox n tag) s = .next { s with memStacks := modifyAt (fun _ => d) n s.memStacks }
        ∧ d.reqs = before ++ after ∧ d.busy = false ∧ d.cmd = k.cmd ∧ d.eftNow = k.eftNow
        ∧ d.resps = k.resps ++ [{ cmd := 5, tag := tag, addr := r.addr, status := 0, gpois := 0, synd := 0, stamps := 0#64, data := [] }]
        ∧ (k.cmd = 2#64 → k.loaded = true → Config.eftStarts k.image = true → d.started = true ∧ d.result = 0)
        ∧ (k.cmd = 2#64 → (k.loaded = false ∨ Config.eftStarts k.image = false) → d.started = k.started ∧ d.result = 3)
        ∧ (k.cmd = 4#64 → d.result = 0 ∧ d.data = [BitVec.ofNat 64 k.corrected, BitVec.ofNat 64 k.uncorrected])
        ∧ (k.cmd = 3#64 → d.result = 0 ∧ d.data = [BitVec.ofNat 64 (Config.fwVersion k.image)])
        ∧ (5#64 ≤ k.cmd → d.result = 3 ∧ d.started = k.started))

/-- R419, R420, R421, R422, R43: a started base die performs the oldest request to a line: a read returns the line's bytes, its two stamps and the
granules that are poisoned; a stamp read the stamps alone; a write puts each masked granule with its stamp, clamped against the Eft's time
(R62; log 38 says how that time is read), and clears its poison. An
address outside the stack, or one that is no line's, is an address error. A request behind an older one to its line waits. -/
def Claims.StackLineRequests : Prop :=
  ∀ (s : State) (n tag cmd : Nat) (i : Instr) (r : StackReq) (before after : List StackReq),
    (i, cmd) ∈ [(Instr.stackRead n tag, 1), (.stackWrite n tag, 2), (.stackStampRead n tag, 3)] →
    let k := s.memStacks.getD n Stack.reset
    let bytes := s.height * 2 ^ 32
    let base := n * bytes + r.addr
    let g := base / 32
    let stamps := s.mem.stamp (g + 1) ++ s.mem.stamp g
    let answer := fun (status gpois synd : Nat) (stamps : Word) (data : List Byte) =>
      let a : StackResp := { cmd := cmd, tag := tag, addr := r.addr, status := status, gpois := gpois, synd := synd, stamps := stamps, data := data }
      ({ s with memStacks := modifyAt (fun k => { k with reqs := before ++ after, resps := k.resps ++ [a] }) n s.memStacks } : State)
    n < 16 → n < s.memStacks.length → k.reqs = before ++ r :: after → r.cmd = cmd → r.tag = tag →
    (∀ x ∈ before, ¬(x.cmd = cmd ∧ x.tag = tag)) →
    (k.started = false → exec i s = .next s)
    ∧ ((∃ x ∈ before, 1 ≤ x.cmd ∧ x.cmd ≤ 3 ∧ x.addr / 64 = r.addr / 64) → exec i s = .next s)
    ∧ (k.started = true → (∀ x ∈ before, ¬(1 ≤ x.cmd ∧ x.cmd ≤ 3 ∧ x.addr / 64 = r.addr / 64)) →
        (r.addr % 64 ≠ 0 ∨ bytes < r.addr + 64 → exec i s = .next (answer 3 0 4 0#64 []))
        ∧ (r.addr % 64 = 0 → r.addr + 64 ≤ bytes →
          (cmd = 1 → s.mem.isPoison g = false → s.mem.isPoison (g + 1) = false →
            exec i s = .next (answer 0 0 0 stamps ((List.range 64).map (fun b => s.mem.byte (base + b)))))
          ∧ (cmd = 1 → (s.mem.isPoison g = true ∨ s.mem.isPoison (g + 1) = true) →
            exec i s = .next (answer 2 (b2n (s.mem.isPoison g) + 2 * b2n (s.mem.isPoison (g + 1))) 2 stamps
              ((List.range 64).map (fun b => s.mem.byte (base + b)))))
          ∧ (cmd = 3 → exec i s = .next (answer 0 0 0 stamps []))
          ∧ (cmd = 2 → r.data.length = 64 → s.mem.wf = true → ∃ m : Memory, exec i s = .next { answer 0 0 0 0#64 [] with mem := m }
            ∧ (∀ a, m.byte a = if a / 64 = base / 64 ∧ r.gmask / 2 ^ (a / 32 % 2) % 2 = 1 then r.data.getD (a % 64) 0#8 else s.mem.byte a)
            ∧ ∀ h, m.stamp h = (if h / 2 = base / 64 ∧ r.gmask / 2 ^ (h % 2) % 2 = 1
                then patrolStamp k.eftNow (r.stamps.extractLsb' (32 * (h % 2)) 32) else s.mem.stamp h)
              ∧ m.isPoison h = (if h / 2 = base / 64 ∧ r.gmask / 2 ^ (h % 2) % 2 = 1 then false else s.mem.isPoison h))))

/-- R423, R420: a started Eft takes the time of the beat in flight as its own; the beat is then no longer in flight. Without a beat, nothing
happens. -/
def Claims.TimeBeats : Prop :=
  ∀ (s : State) (n : Nat) (r : StackReq) (before after : List StackReq), n < s.memStacks.length →
    let k := s.memStacks.getD n Stack.reset
    let beat := fun (x : StackReq) => x.cmd = 6 ∧ x.tag = 0
    ((∀ x ∈ k.reqs, ¬beat x) → exec (.timeBeat n) s = .next s)
    ∧ (k.reqs = before ++ r :: after → beat r → (∀ x ∈ before, ¬beat x) →
        let put := fun (k : Stack) => { k with reqs := before ++ after, eftNow := if k.started = true then r.stamps.toNat else k.eftNow }
        exec (.timeBeat n) s = .next { s with memStacks := modifyAt put n s.memStacks })

/-- R422, R425, R43, R345: the first response under a tag arrives once: the granules that it says are uncorrectable become poisoned, and a status
other than *ok* makes a record that names the stack; one that corrected or poisoned counts. -/
def Claims.StackResponses : Prop :=
  ∀ (s : State) (n tag : Nat) (r : StackResp) (before after : List StackResp), n < s.memStacks.length →
    let k := s.memStacks.getD n Stack.reset
    let base := n * (s.height * 2 ^ 32) + r.addr
    let g := base / 32
    ((∀ x ∈ k.resps, x.tag ≠ tag) → exec (.stackResponse n tag) s = .next s)
    ∧ (k.resps = before ++ r :: after → r.tag = tag → (∀ x ∈ before, x.tag ≠ tag) → s.mem.wf = true → ∃ (m : Memory) (u : State),
        let taken := fun (c d : Nat) =>
          let put := fun (k : Stack) => { k with resps := before ++ after, corrected := k.corrected + c, uncorrected := k.uncorrected + d }
          ({ s with mem := m, memStacks := modifyAt put n s.memStacks } : State)
        exec (.stackResponse n tag) s = .next u
        ∧ (∀ a, m.byte a = s.mem.byte a) ∧ (∀ h, m.stamp h = s.mem.stamp h)
        ∧ (∀ h, m.isPoison h = (s.mem.isPoison h || decide (h = g ∧ r.gpois % 2 = 1) || decide (h = g + 1 ∧ r.gpois / 2 % 2 = 1)))
        ∧ (r.status = 0 → u = taken 0 0)
        ∧ (r.status = 1 → u = (taken 1 0).logStack n 1 0 base r.synd)
        ∧ (r.status = 2 → u = (taken 0 1).logStack n 2 1 base r.synd)
        ∧ (3 ≤ r.status → u = (taken 0 0).logStack n 4 0 base r.synd))

/-! ### Events that complete -/

/-- R85, R68, R358: the oldest task of a context whose window runs, complete, without a fault or staged effects, its journal valid, retires: the
retired state is the state after it, GEN rises by 2, the journal is done with, and the task leaves the window. -/
def Claims.RetirementCompletes : Prop :=
  ∀ (s : State) (c : Nat) (x : Ctx) (t : Task) (rest : List Task), s.ctx c = some x → x.window = t :: rest →
    x.faulted = false → x.unitRuns .window = true → x.owed = [] → t.stat = .complete → t.fault = none → t.staged = [] →
    x.journal.map (fun j => j.1) = some t.uid →
    ∃ u y, exec (.taskRetire c) s = .next u ∧ u.ctx c = some y ∧ y.retired = t.after ∧ y.gen = (x.gen + 2) % 2 ^ 64
      ∧ y.journal = none ∧ y.window = x.window.filter (fun k => k.uid != t.uid)

/-- R87, R329, R58, R59: a fault of the oldest task is delivered: the context is Faulted, its window empty, its state the retired one; a
freshness fault too, when the task cannot be replayed. One of a replayable task with producers to re-fire and replays left, for which
versions are there, is replayed behind them, and the context is not Faulted. -/
def Claims.TaskFaultsComplete : Prop :=
  ∀ (s : State) (c : Nat) (x : Ctx) (t : Task) (rest : List Task) (f : TFault), s.ctx c = some x → x.window = t :: rest →
    x.faulted = false → x.stop = none → x.unitRuns .window = true → x.owed = [] → t.fault = some f →
    let delivered := fun (i : Instr) => ∃ u y, exec i s = .next u ∧ u.ctx c = some y ∧ y.faulted = true ∧ y.window = []
      ∧ y.retired = x.retired ∧ y.rmap = x.rmap
    (f.code ≠ 0x26 → f.code ≠ 0 → delivered (.taskFault c))
    ∧ (f.code = 0x26 → t.replayable = false → delivered (.freshnessFault c))
    ∧ (∀ ps m r s1 s2, f.code = 0x26 → x.pendCtl = [] → t.replayable = true → x.producers t ≠ [] →
        t.replays < x.ctl.toNat / 2 ^ 8 % 2 ^ 4 →
        let undone := ((s.squashAll c (x.window.filter (fun y => y.uid != t.uid))).undoTask c t).freeBlocks c t.news
        State.refire c t.before (x.producers t) t.beforeMap [] undone = .ok (ps, m, s1) →
        s1.movesQueue c (resolveIn m t.regions) = false →
        State.renameAll c (resolveIn m t.regions) { regions := [], map := m, news := [], olds := [] } s1 = .ok (r, s2) →
        ∃ u k, exec (.freshnessFault c) s = .next u ∧ k.uid = t.uid ∧ k.stat = .waiting ∧ k.fault = none ∧ k.replays = t.replays + 1
          ∧ u = s2.modCtx c (fun x => { x with window := ps ++ [k], accept := k.after, map := k.afterMap }))

/-- R272, R86, R90: a record of an IMM launch that no earlier record of its port precedes is released to a host ring with room, where
neither the ring's end nor a page boundary cuts it: record, then PROD, then the vector; the task then holds it no longer. R349: a pool entry
with the TAG due is taken. R94, R95, R275: a copy takes what its port holds next, or the ring's next record. -/
def Claims.RecordsAndPoolComplete : Prop :=
  ∀ (s s1 s2 s3 : State) (c : Nat) (x : Ctx) (t : Task) (p : Port), s.ctx c = some x → x.task t.uid = some t →
    x.unitRuns .window = true →
    (∀ g more n bs st b v va l segs segs2, s.headRecords c t = g :: more → g.kind = .record n bs st b → g.progress = 0 →
      t.launch.map (fun k => k.imm) = some true → x.faulted = false → x.dropWrite = none → x.port n = some p → p.kind = 1 →
      let size := recordBytes bs.length
      let prod := (p.prod + size) % 2 ^ 64
      let cell := (p.desc.getD 2 0#64).toNat
      let irq := (p.desc.getD 4 0#64).toNat
      s.portCell c (p.desc.getD 3 0#64).toNat = (.ok v, s1) → size ≤ 2 ^ p.log2 - (p.prod + 2 ^ 64 - v) % 2 ^ 64 →
      let put := fun (u : State) (g : List Seg) (va : Nat) (l : List (Byte × Stamp)) =>
        State.segWrite g (l.map (fun b => b.1)) (fun i => (granuleStamps (l.length / 32 + 2) va l).getD i sVacant) u
      let count := (toBytes 8 prod).map (fun b => (b, sTimeless))
      ringSplit (p.desc.getD 0 0#64).toNat (2 ^ p.log2) p.prod (recordOf s1.now bs st) = [(va, l)] →
      va / 65536 = (va + l.length - 1) / 65536 → (s1.ctx c).bind (fun x => x.dropWrite) = none →
      s1.engMap c .store va l.length = (.ok segs, s2) → (put s2 segs va l).engMap c .store cell 8 = (.ok segs2, s3) →
      let told := (put s3 segs2 cell count).modPort c p.n (fun q => { q with prod := prod })
      exec (.egressRelease c t.uid) s = .next ((if irq.testBit 15 then { told with msix := told.msix ++ [irq % 2 ^ 11] }
        else told).deliverStaged c t.uid g))
    ∧ (∀ bs stamps v, x.saved = false → s.engRead c x.poolAddr 16 = (.ok (bs, stamps), s1) →
      ofBytes (bs.take 8) = (x.poolIdx + 1) % 2 ^ 64 → poolBlock (ofBytes (bs.drop 8)) = some v → x.ownedOf v.cls < 2 ^ 20 →
      ∃ u y, exec (.poolEntryTake c) s = .next u ∧ u.ctx c = some y ∧ y.poolIdx = x.poolIdx + 1 ∧ y.free = x.free ++ [v])
    ∧ (∀ piece, t.op = 0x04 → t.srck = 2 → t.stat = .issued → t.fault = none → t.wants ≠ 0 → x.port t.cport = some p →
      let got := piece.take (if t.dstk = 2 then piece.length else t.wants)
      (p.back = [] → (∃ more, p.remainder = piece :: more) ∨ (p.remainder = [] ∧ s.nextRecord c t.uid p = (.ok (some piece), s1)
          ∧ s1.task c t.uid = some t) →
        ∃ u k, exec (.ingressConsume c t.uid) s = .next u ∧ u.task c t.uid = some k ∧ k.taken = t.taken ++ [got]))

/-- R12, R16, R347, R351: the arbiter of die 0 admits the head cohort of the first waiting launch when the die fits it: the cohort is then on the die,
admitted in this cycle. R18, R356, R357: an admitted cohort that is alone on its island starts once the cohorts of its launch before it have
started, its island is up, and the cycle after its admission, the launch's stagger and the island's 16 cycles have come. R18: a crew is
released. R350: islands come up and go down. -/
def Claims.AdmissionAndStartsComplete : Prop :=
  ∀ (s : State) (h cr i : Nat) (k : Cohort) (c : Crew) (x : Ctx) (t : Task) (l : Launch) (rest : List (Ctx × Item)),
    (s.admits = [] → s.items = (x, .cohort t.uid l) :: rest → (s.part x.part).dies.getLsbD 0 = true →
      (∃ p, s.fitDie (s.load (fun _ => false)) (l.need t.uid) 0 = some p) →
      ∃ u n, exec (.cohortAdmit 0) s = .next u ∧ n ∈ u.cohorts ∧ n.ctx = x.num ∧ n.task = t.uid ∧ n.admitted = s.cycle
        ∧ n.started = none ∧ n.cluster < 48)
    ∧ (s.cohort h = some k → s.ctx k.ctx = some x → s.task k.ctx k.task = some t → t.launch = some l → k.saved = false → k.started = none →
      x.stop = none → x.saved = false → x.halted = false → (s.island (k.cluster / 12)).on = true →
      (∀ n ∈ s.cohorts, n.ctx = k.ctx → n.task = k.task → n.cohortid < k.cohortid → n.started ≠ none) →
      (∀ n ∈ s.cohorts, n.cluster / 12 = k.cluster / 12 → n = k) →
      k.admitted + 1 ≤ s.cycle → (∀ a, t.lastStart = some a → a + l.stagger ≤ s.cycle) →
      (∀ a, (s.island (k.cluster / 12)).lastStart = some a → a + 16 ≤ s.cycle) →
      ∃ u, exec (.cohortStart h) s = .next u ∧ u.cohort h = some { k with started := some s.cycle })
    ∧ (s.crew cr = some c → s.cohort c.cohort = some k → k.saved = false → (∀ t ∈ s.threads, t.crew = cr → t.st = .exited) → c.mq = [] →
      (∀ e ∈ s.engines, e.crew ≠ some cr) →
      ∃ u, exec (.crewRelease cr) s = .next u ∧ u.crew cr = none ∧ ∀ t ∈ u.threads, t.crew ≠ cr)
    ∧ (i < s.islands.length → (s.island i).on = false → (∃ n ∈ s.cohorts, n.saved = false ∧ n.cluster / 12 = i) →
      ∃ u, exec (.islandPowerUp i) s = .next u ∧ (u.island i).on = true)
    ∧ (let sched := (s.part (s.partOfDie (i / 4))).sched.toNat
       i < s.islands.length → (s.island i).on = true → (∀ n ∈ s.cohorts, n.saved = true ∨ n.cluster / 12 ≠ i) → sched / 2 ^ 12 % 2 = 1 →
       (s.island i).idleSince + sched % 2 ^ 12 ≤ s.now →
       ∃ u, exec (.islandPowerDown i) s = .next u ∧ (u.island i).on = false)

/-- R353: a unit of a stopping context that is at its boundary acknowledges, and the stop waits for the others. R351, R355: a context that
is saved without crews, alone in the package, is restored where its partition has a free window. R35: a rendezvous whose timer is at its
limit stalls, and is gone. -/
def Claims.StopsAndRestoresComplete : Prop :=
  ∀ (s : State) (c cr : Nat) (x : Ctx) (st : Stop) (w : StopUnit) (r : Rdv) (k : Crew) (home : Nat),
    (s.ctx c = some x → x.stop = some st → w ∈ st.waiting → (∃ v ∈ st.waiting, v ≠ w) → s.atBoundary c w = true →
      ∃ u y, exec (.unitStopAck c w) s = .next u ∧ u.ctx c = some y ∧ y.stop = some { st with waiting := st.waiting.filter (fun v => v != w) })
    ∧ (s.ctxs = [x] → x.saved = true → x.faulted = false → x.halted = false → x.stop = none → x.owed = [] → x.sealBytes = [] →
      (∀ h ∈ s.cohorts, h.ctx ≠ x.num) → s.admits = [] → s.homeFor x.part = some home →
      ∃ u y, exec (.contextRestore x.num) s = .next u ∧ u.ctx x.num = some y ∧ y.saved = false ∧ y.home = home)
    ∧ (s.cycleIssued = true → s.settle.crew cr = some k → r ∈ k.rdvs → (∀ q ∈ k.rdvs, q.id = r.id → q = r) → r.limit ≤ r.timer →
      ∃ u, exec (.rendezvousStall cr r.id) s = .next u ∧ ∀ n, u.crew cr = some n → ∀ q ∈ n.rdvs, q.id ≠ r.id)

/-! ### The link layer -/

/-- R397, R398, R399, R393, R402: a flit arrives at an up link with a receive key, on a plane of its set, and is checked as the number expected
there. One that fails is discarded with every later one, and the peer is asked for it again; what else is in flight behind it asks for
nothing, and a replay of it that fails asks anew; a failing tag is also a violation. A good flit is passed on once and in the order of
the numbers: it advances the number, with what it acknowledges leaving the replay buffer; one that is ahead waits for those before it. -/
def Claims.FlitsArrive : Prop :=
  ∀ (s : State) (q plane m : Nat) (bs : List Byte) (k : LinkKey) (l : Link),
    let check := checkFlit k q s.devid m bs
    let run := exec (.flitReceive q { plane := plane, bytes := bs }) s
    let asked := fun (u : State) => (u.modLink q (fun l => { l with
      rxBad := some m, rxHeld := l.rxHeld.filter (fun h => decide (h.1 < m)), rxFails := 0 })).tell q (.replayFrom q m)
    let again := fun (u : State) => (u.modLink q (fun l => { l with rxFails := l.rxFails + 1 })).tell q (.replayFrom q m)
    let later := fun n => ∃ i, i < 4096 ∧ crcGood (n + 1 + i) bs = true
    l.rxN < 2 ^ 48 → s.fab.link q = some l →
    (l.up = false ∨ l.rx = none ∨ s.expectOn q plane = none → run = .next s)
    ∧ (l.up = true → l.rx = some k → s.expectOn q plane = some m → m < 2 ^ 48 →
        (∀ u : State, (check = .bad ∧ u = s) ∨ (check = .badTag ∧ u = s.fabricViolation) →
          (l.rxBad = none → run = .next (asked u))
          ∧ (∀ n, l.rxBad = some n → m < n → run = .next (asked u))
          ∧ (∀ n, l.rxBad = some n → n < m ∨ (n = m ∧ later n) → run = .next u)
          ∧ (l.rxBad = some m → ¬later m → run = .next (again u)))
        ∧ (∀ f, check = .good f →
          (∀ n, l.rxBad = some n → n < m → run = .next s)
          ∧ ((∀ n, l.rxBad = some n → m ≤ n) → m ≠ l.rxN → run = .next (s.modLink q (fun l => { l with
              rxBad := if l.rxBad = some m then none else l.rxBad, rxHeld := l.rxHeld ++ [(m, f)] })))
          ∧ ((∀ n, l.rxBad = some n → m ≤ n) → m = l.rxN → ∃ u, run = .next u ∧ l.rxN < (u.fab.linkOr q).rxN
              ∧ (l.rxHeld = [] → (u.fab.linkOr q).rxN = l.rxN + 1) ∧ u.threads = s.threads)
          ∧ (l.rxBad = none → m = l.rxN → l.rxHeld = [] → 3 < f.type ∨ 240 < f.valid ∨ f.mbz ≠ 0 → run = .next (s.modLink q (fun l => { l with
              rxN := l.rxN + 1, rxFails := 0, ackDue := l.ackDue || f.type != 0 })).fabricViolation)
          ∧ (l.rxBad = none → m = l.rxN → l.rxHeld = [] → l.waiting = [] → f.type ≤ 3 → f.type ≠ 1 → f.valid ≤ 240 → f.mbz = 0 →
              run = .next (s.modLink q (fun l => { l with
                rxN := l.rxN + 1, rxFails := 0, ackDue := l.ackDue || f.type != 0, replay := l.replay.filter (fun x => !ackedBy f.ack x.n) })))))
    ∧ (bs.length ≠ 256 → check = .bad)

/-- R395, R398, R401: the flit that a sender makes for a number is what the receiver that expects the number takes, under the same key: the type, the
valid count, the reserved field at 0, the acknowledgement and the payload come back, for every key stream, tag and checksum function
of the model. -/
def Claims.FlitsComeBack : Prop :=
  ∀ (k : LinkKey) (src dst n type ack : Nat) (payload : List Byte), payload.length ≤ 240 → type < 16 →
    (flitBytes k src dst n type ack payload).length = 256
    ∧ checkFlit k src dst n (flitBytes k src dst n type ack payload)
      = .good { type := type, valid := payload.length, mbz := 0, ack := ack % 2 ^ 16, payload := payload }

/-- R393, R397, R399, R400: a replay request names a kept flit: that flit and every later one are sent again, bit for bit, each on its plane of the
current channel set, and the requests for one number in a row are counted; data that rotation holds back waits for its window; a
request for a flit that is not kept does nothing. A link goes down only when REPLIM replays failed, at either end. -/
def Claims.ReplayAndLinkDown : Prop :=
  ∀ (s : State) (q n : Nat) (l : Link), s.fab.link q = some l →
    let again := l.replay.dropWhile (fun f => f.n != n)
    let replim := s.fab.fabctl.toNat / 2 ^ 20 % 2 ^ 4
    (l.up = false ∨ (∀ f ∈ l.replay, f.n ≠ n) → exec (.replayRequest q n) s = .next s)
    ∧ (l.up = true → (∃ f ∈ l.replay, f.n = n) → ∃ u, exec (.replayRequest q n) s = .next u
        ∧ u.threads = s.threads ∧ u.mem = s.mem
        ∧ ((∀ f ∈ again, s.mayCarry q f.out.type = true) →
            u.fabOut = s.fabOut ++ again.map (fun f => .flit q (s.flitPlane q f.out.type f.n) f.bytes))
        ∧ ((∃ f ∈ again, s.mayCarry q f.out.type = false) → u.fabOut = s.fabOut)
        ∧ u.fab.link q = some { l with failN := n, fails := if l.failN = n then l.fails + 1 else 1 })
    ∧ (l.up = false ∨ (l.fails ≤ replim ∧ l.rxFails < replim) → exec (.linkDown q) s = .next s)
    ∧ (l.up = true → (replim < l.fails ∨ replim ≤ l.rxFails) → ∃ u, exec (.linkDown q) s = .next u
        ∧ q ∉ u.fab.present ∧ q ∈ u.fab.left ∧ (∀ c ∈ u.fab.txc, c.peer ≠ q) ∧ (∀ c ∈ u.fab.rxc, c.peer ≠ q) ∧ (∀ p ∈ u.fab.outPk, p.dst ≠ q)
        ∧ (∀ m, u.fab.link q = some m → m.up = false ∧ m.replay = [] ∧ m.rxN = l.rxN
            ∧ m.txN = ((l.replay.head?.map (fun f => f.n)).getD l.txN))
        ∧ ∀ e d, s.engine e.uid = some e → e.unit = .sender e.uid → e.peer = q → e.sent ≠ [] → u.engine e.uid = some d → d.failed = true)

/-- R432, R400, R376, R402: a link with keys in both directions, whose base channel has its slots, comes up, and its peer is present in the
domain; without FABRIC, without a key, or towards oneself it stays down. A direction whose number reaches 2^48 - 2^20 sends the rekey
vector once and agrees on the next epoch with its peer; after flit 2^48 - 1 it stalls, until a key of the next epoch takes over with
number 0. -/
def Claims.LinkUpAndRekey : Prop :=
  ∀ (s : State) (q : Nat) (rx : Bool) (l : Link), s.fab.link q = some l →
    let n := if rx then l.rxN else l.txN
    let done := if rx then l.rxRekey else l.txRekey
    let epoch := ((if rx then l.rx else l.tx).map (fun k => k.epoch + 1)).getD 0
    let fabric := s.hl.features.getLsbD 2 = true
    (¬fabric ∨ q = s.devid ∨ 64 ≤ q ∨ l.up = true ∨ l.tx = none ∨ l.rx = none ∨ s.baseTuned q = false → exec (.linkUp q) s = .next s)
    ∧ (fabric → q ≠ s.devid → q < 64 → l.up = false → l.tx ≠ none → l.rx ≠ none → s.baseTuned q = true →
        ∃ u, exec (.linkUp q) s = .next u ∧ q ∈ u.fab.present ∧ q ∈ u.fab.domain ∧ (∀ p ∈ s.fab.present, p ∈ u.fab.present)
          ∧ ((u.fab.linkOr q).up = true) ∧ u.threads = s.threads ∧ u.mem = s.mem)
    ∧ (done = true ∨ n < 2 ^ 48 - 2 ^ 20 → exec (.rekeyInterrupt q rx) s = .next s)
    ∧ (done = false → 2 ^ 48 - 2 ^ 20 ≤ n → exec (.rekeyInterrupt q rx) s = .next (({
        s.modLink q (fun l => if rx then { l with rxRekey := true } else { l with txRekey := true }) with
          msix := s.msix ++ [s.hl.irqvec.toNat / 2 ^ 32 % 2 ^ 11] } : State).tell q (.keyNext q rx epoch)))
    ∧ (l.stall = true ∨ l.txN < 2 ^ 48 → exec (.directionStall q) s = .next s)
    ∧ (l.stall = false → 2 ^ 48 ≤ l.txN → l.txNext = none →
        exec (.directionStall q) s = .next (s.modLink q (fun l => { l with stall := true })))
    ∧ (∀ k, l.stall = false → 2 ^ 48 ≤ l.txN → l.txNext = some k → l.waiting = [] → exec (.directionStall q) s = .next
        (s.modLink q (fun l => { l with tx := some k, txNext := none, txN := 0, stall := false, txRekey := false })))

/-- R403, R410: the master is the lowest package present. The others ask it, at first and then every TSYNC ticks, with the time of the question; it
answers with that and its own two. The first answer starts a waiting package's time at the master's; later ones leave its device time
where it is (they slew the clock under the tick). Where within a tick a timestamp lies is open. -/
def Claims.TimeExchange : Prop :=
  ∀ (s : State) (q t1 t2 t3 : Nat),
    let fabric := s.hl.features.getLsbD 2 = true
    let follows := fabric ∧ ∃ p ∈ s.fab.domain, p ∉ s.fab.left ∧ p < s.devid
    let due := s.hl.waitTime = true ∨ (s.hl.tickctl.getLsbD 8 = true ∧ s.fab.tsyncAt + s.fab.fabctl.toNat % 2 ^ 16 ≤ s.now)
    let tick := 2 ^ (s.hl.tickctl.toNat % 2 ^ 5)
    (¬follows ∨ ¬due → exec (.timeSync .start) s = .next s)
    ∧ (follows → due → ∃ u p t, exec (.timeSync .start) s = .next u ∧ p ∈ s.fab.domain ∧ p ∉ s.fab.left
        ∧ (∀ x ∈ s.fab.domain, x ∉ s.fab.left → p ≤ x) ∧ t / tick = s.now ∧ .timeRequest p t ∈ u.fabOut ∧ u.fab.tsyncAt = s.now
        ∧ u.now = s.now ∧ u.threads = s.threads ∧ u.mem = s.mem)
    ∧ (¬fabric ∨ follows ∨ q ∉ s.fab.present → exec (.timeSync (.request q t1)) s = .next s)
    ∧ (fabric → ¬follows → q ∈ s.fab.present → ∃ u a b, exec (.timeSync (.request q t1)) s = .next u ∧ a ≤ b ∧ a / tick = s.now ∧ b / tick = s.now
        ∧ .timeReply q t1 a b ∈ u.fabOut ∧ u.now = s.now ∧ u.threads = s.threads ∧ u.mem = s.mem)
    ∧ (¬follows → exec (.timeSync (.reply t1 t2 t3)) s = .next s)
    ∧ (follows → s.hl.waitTime = true → ∃ u d, d ≤ 1 ∧ exec (.timeSync (.reply t1 t2 t3)) s = .next u ∧ u.now = (t3 / tick + d) % 2 ^ 64
        ∧ u.hl = { s.hl with waitTime := false } ∧ u.threads = s.threads ∧ u.mem = s.mem)
    ∧ (follows → s.hl.waitTime = false → ∃ u, exec (.timeSync (.reply t1 t2 t3)) s = .next u ∧ u.now = s.now ∧ u.hl = s.hl
        ∧ u.threads = s.threads ∧ u.mem = s.mem)

/-! ### Requests and replies of the fabric -/

/-- R263, R264, R269, R404, R44: a write packet is checked in the paired context under its capability. One without a paired context, permission or
bounds is rejected, one whose delivery tag is unbound is rejected with SUB 3. Else its bytes are written with their normalised stamps,
its counter adds the bytes, and it is acknowledged. -/
def Claims.WriteRequests : Prop :=
  ∀ (s : State) (n : Nat) (p : Packet), s.readyPacket n 1 = some p →
    let j : Joiner := .fabric p.id
    let open_ := fun (x : Ctx) => s.ctxs.find? (fun x => x.dcn == p.dcn) = some x ∧ p.cap.has pStore = true
      ∧ p.cap.covers p.va p.data.length = true ∧ p.va + p.data.length ≤ 0xFFFFFFFFFC0000
    ((∀ x, ¬open_ x) → exec (.writePacket n) s = .next (s.rejectPacket p 1 p.va))
    ∧ (∀ x, open_ x → s.ctx x.num = some x → p.ten = true → (∀ g ∈ x.dtags, g.tag ≠ p.tag) →
        exec (.writePacket n) s = .next (s.rejectPacket p 3 p.va))
    ∧ (∀ x l s1, open_ x → s.devMap x.num .store p.va p.data.length = (.ok l, s1) → (∀ w ∈ s.wrote, w.1 ≠ j) →
        let st := (stampsOfRuns p.runs).map (normaliseStamp s.now)
        let written := State.segWrite l p.data (fun i => st.getD i sVacant) s1
        (p.ten = false → exec (.writePacket n) s = .next (((written.endEarly j).answer p 2 0 [] []).dropPacket p.id))
        ∧ (∀ g, s.ctx x.num = some x → p.ten = true → x.dtags.find? (fun g => g.tag == p.tag) = some g →
            exec (.writePacket n) s = .next ((((written.endEarly j).counterAdd g.crew g.off p.data.length).answer p 2 0 [] []).dropPacket p.id)))

/-- R265, R264, R44: a read request answers with the bytes and the stamps of the granules that its destination will have; an atomic request performs
its operation once and answers with the old value and its granule's stamp. A poisoned granule refuses either with SUB 2 and a
record, and an atomic out of its alignment is rejected. -/
def Claims.ReadAndAtomicRequests : Prop :=
  ∀ (s : State) (n : Nat) (p : Packet) (x : Ctx) (l : List Seg) (s1 : State), s.ctxs.find? (fun x => x.dcn == p.dcn) = some x →
    (s.readyPacket n 3 = some p → p.cap.has pLoad = true → p.cap.covers p.va p.length = true → p.va + p.length ≤ 0xFFFFFFFFFC0000 →
      s.devMap x.num .load p.va p.length = (.ok l, s1) → (∀ e ∈ s.early, e.1 ≠ .fabric n) →
        (∀ pa, s1.segPoison l = some pa → exec (.readRequest n) s = .next ((s1.logCtx x.num 2 0 none false pa).refusePacket p 2))
        ∧ (s1.segPoison l = none →
            let bs := l.flatMap (fun g => s1.mem.readStamped g.pa g.n)
            exec (.readRequest n) s = .next (((s1.endEarly (.fabric n)).answer p 4 0
              (runsOf (granuleStamps (p.length / 32 + 2) p.dalign bs)) (bs.map (fun b => b.1))).dropPacket p.id)))
    ∧ (s.readyPacket n 5 = some p → p.aop ≤ 5 → p.cap.has pAtomic = true →
        let w := if p.aop = 5 then 4 else 8
        p.cap.covers p.va w = true → p.va + w ≤ 0xFFFFFFFFFC0000 →
        (p.va % w ≠ 0 → exec (.atomicRequest n) s = .next (s.rejectPacket p 1 p.va))
        ∧ (∀ pa, p.va % w = 0 → s.devMap x.num .atomic p.va w = (.ok l, s1) → s1.segPoison l = some pa →
            exec (.atomicRequest n) s = .next ((s1.logCtx x.num 2 0 none false pa).refusePacket p 2))
        ∧ (∀ pa, p.va % w = 0 → s.devMap x.num .atomic p.va w = (.ok [{ pa := pa, n := w, host := false }], s1) →
            s1.mem.isPoison (pa / 32) = false → pa % w = 0 →
            let old := s1.mem.readNat pa w
            let b := ofBytes (p.data.take 8)
            let c := ofBytes ((p.data.drop 8).take 8)
            ∃ v : State, exec (.atomicRequest n) s = .next ((v.answer p 6 0 [(1, s1.mem.stamp (pa / 32))] (toBytes 8 old)).dropPacket p.id)
              ∧ (p.aop = 3 → old ≠ b → v = s1)
              ∧ (∀ new, (p.aop = 0 ∧ new = (old + b) % 2 ^ 64) ∨ (p.aop = 1 ∧ new = old ||| b) ∨ (p.aop = 2 ∧ new = b)
                  ∨ (p.aop = 3 ∧ old = b ∧ new = c) ∨ (p.aop = 4 ∧ new = max old b) →
                  v = { s1 with mem := s1.mem.store s1.now pa (toBytes 8 new) ((p.stamps s1.now).getD 0 sVacant) })))

/-- R257, R258, R265, R344, R404: an acknowledgement, the data of a read, an atomic's result and a rejection find the engine thread and packet they
answer. The packet is then done, its local counter adds its bytes, read data is written at the destination first, an atomic's old
value goes to its register; a rejection gives the task its bulk fault, with a record of its address unless the peer found a data
error. A reply to work that has been abandoned is dropped. -/
def Claims.FabricReplies : Prop :=
  ∀ (s : State) (n j : Nat) (p : Packet) (e : Engine) (q : Piece),
    let done := fun (u : State) (b : Nat) => ((u.setEngine { e with
      done := e.done ++ [j], sent := e.sent.filter (fun x => x != j) }).localAdd { e with
      done := e.done ++ [j], sent := e.sent.filter (fun x => x != j) } b).dropPacket n
    s.replyTo p = some (e, j) → s.engine e.uid = some e → (s.planOf e).rows.piece j = some q →
    (s.readyPacket n 2 = some p →
      (e.failed = true → exec (.writeAcknowledgement n) s = .next (s.dropPacket p.id))
      ∧ (e.failed = false → exec (.writeAcknowledgement n) s = .next (done s q.n)))
    ∧ (∀ s1, s.readyPacket n 4 = some p → e.failed = false → j ∉ e.held → s1.engine e.uid = some e → (∀ w ∈ s.wrote, w.1 ≠ .fabric n) →
        let va := (s.planOf e).rows.pieceVa q
        let l := numbered (fun i b => (b, (p.stamps s.now).getD ((va % 32 + i) / 32) sVacant)) p.data
        s.engPut e.ctx e.crew va l = (.ok (), s1) → exec (.readData n) s = .next (done (s1.endEarly (.fabric n)) q.n))
    ∧ (∀ op, s.readyPacket n 6 = some p → e.failed = false → e.kind = .batom op → op ≠ 5 → ∃ u, exec (.atomicResult n) s = .next u
        ∧ u = done (s.modLop (e.crew.getD 0) e.tid (e.lop.getD 0) (fun x => { x with
            fset := 0#6
            regs := x.regs.map (fun r => (r.1, { v := BitVec.ofNat 64 (ofBytes (p.data.take 8)), s := (p.stamps s.now).getD 0 sVacant })) })) 8)
    ∧ (s.readyPacket n 8 = some p → e.failed = false →
        let logged := if p.aop = 2 then s else s.logCtx e.ctx 4 0 (s.engineCore e) true (s.remoteVa e q)
        exec (.reject n) s = .next (((logged.setEngine { e with failed := true }).holdFault
          e.ctx e.task { code := 0x24, sub := p.aop, detail := s.remoteVa e q }).dropPacket n))

/-- R274, R67: bytes of an egress record for a kind-4 port enter its ring in order while it has room, and wait while it has none; one for no port
is dropped (the model's choice, log 13). -/
def Claims.EgressRecordsArrive : Prop :=
  ∀ (s : State) (n c : Nat) (p : Packet) (q : Port), s.readyPacket n 7 = some p →
    let first := s.fab.inPk.find? (fun k => k.kind == 7 && k.src == p.src && k.dcn == p.dcn && k.tag == p.tag)
    (first.map (fun k => k.id) ≠ some n → exec (.egressRecord n) s = .next s)
    ∧ (first.map (fun k => k.id) = some n →
        (s.localPort p.dcn p.src p.sport p.tag = none → exec (.egressRecord n) s = .next (s.rejectPacket p 1 0))
        ∧ (s.localPort p.dcn p.src p.sport p.tag = some (c, q) →
            let used := (q.prod + 2 ^ 64 - q.cons) % 2 ^ 64
            (2 ^ q.log2 < used + p.data.length → exec (.egressRecord n) s = .next s)
            ∧ (used + p.data.length ≤ 2 ^ q.log2 → ∀ s1,
                State.ringWrite c (ringSplit (q.desc.getD 0 0#64).toNat (2 ^ q.log2) q.prod (p.data.map (fun b => (b, dataAt s.now)))) s = (.ok (), s1) →
                exec (.egressRecord n) s = .next
                  ((s1.modPort c q.n (fun q => { q with prod := (q.prod + p.data.length) % 2 ^ 64 })).dropPacket n))))

/-! ### Leases -/

/-- R380, R381: a receiver grants every requested plane on which it has a free drop, up to the number wanted, tunes those drops, and queues what is left with its
age. A sender takes each granted plane that it reserved; its other reservations towards the peer are free, and where it still wants
channels it reserves anew with one request. -/
def Claims.RequestsAndGrants : Prop :=
  ∀ (s : State) (q want tick : Nat) (planes : BitVec 64),
    let js := (((List.range 64).filter (fun j => planes.getLsbD j)).filter (s.dropFor q)).take want
    let new : List Chan := js.map (fun j => { plane := j, peer := q, st := .retune true })
    let told := ({ s with fab := { s.fab with rxc := s.fab.rxc ++ new } } : State).tell q (.leaseGrant q (planeMask js))
    (s.leasesSuspended = true ∨ q ∉ s.fab.present ∨ q = s.devid → exec (.leaseRequest q planes want tick) s = .next s)
    ∧ (s.leasesSuspended = false → q ∈ s.fab.present → q ≠ s.devid → ∃ queue, exec (.leaseRequest q planes want tick) s =
        .next { told with fab := { told.fab with queued := queue } }
        ∧ ∀ r, r ∈ queue ↔ (r ∈ s.fab.queued ∧ r.peer ≠ q) ∨ (js.length < want ∧ r = { peer := q, want := want - js.length, tick := tick }))
    ∧ (s.leasesSuspended = true → exec (.leaseGrant q planes) s = .next s)
    ∧ (s.leasesSuspended = false → (∀ j, planes.getLsbD j = true → ∃ c ∈ s.fab.txc, c.peer = q ∧ c.plane = j ∧ c.st = .reserved) →
        ∃ u anew, exec (.leaseGrant q planes) s = .next u ∧ u.threads = s.threads ∧ u.mem = s.mem
        ∧ (∀ c ∈ anew, c.peer = q ∧ c.st = .reserved)
        ∧ u.fab.txc = (s.fab.txc.map (fun c => if c.peer = q ∧ planes.getLsbD c.plane = true then { c with st := .retune true } else c)).filter
            (fun c => !(c.peer == q && c.st == .reserved)) ++ anew)

/-- R381, R382: a drop of a plane that has become free is offered, once, to the queued requests, first to the one a revocation freed it for, then
in queue order; each accepts or declines (its sender's own slots decide, which the model leaves open, log 19), and the first that
accepts takes the plane. A request that has waited STARVE ticks makes the receiver revoke one channel of the sender that holds most,
when that one holds two more; at most one in a tick. -/
def Claims.OffersAndRevocation : Prop :=
  ∀ (s : State) (plane q : Nat) (r : LeaseReq),
    let h := s.mostLeased
    let may := s.leasesSuspended = false ∧ r.tick + s.fab.fabctl.toNat / 2 ^ 32 % 2 ^ 16 ≤ s.now ∧ s.fab.revokedAt ≠ some s.now
      ∧ (s.fab.leasedFrom q).length + 2 ≤ (s.fab.leasedFrom h).length
    (s.leasesSuspended = true ∨ 64 ≤ plane ∨ plane ∉ s.fab.freed → exec (.dropSlotOffer plane) s = .next s)
    ∧ (s.leasesSuspended = false → plane < 64 → plane ∈ s.fab.freed → ∃ u, exec (.dropSlotOffer plane) s = .next u
        ∧ u.threads = s.threads ∧ u.mem = s.mem ∧ u.fab.txc = s.fab.txc ∧ u.fab.freed = s.fab.freed.erase plane
        ∧ ((u.fab.rxc = s.fab.rxc ∧ u.fab.queued = s.fab.queued) ∨ ∃ a ∈ s.fab.queued, s.freeDrop plane = true
            ∧ plane ≠ (a.peer + s.devid) % 64 ∧ u.fab.rxc = s.fab.rxc ++ [{ plane := plane, peer := a.peer, st := .retune true }]
            ∧ u.fab.queued = takeWant s.fab.queued a.peer))
    ∧ (s.fab.queued.find? (fun r => r.peer == q) = none → exec (.revocation q) s = .next s)
    ∧ (s.fab.queued.find? (fun r => r.peer == q) = some r → ¬may → exec (.revocation q) s = .next s)
    ∧ (s.fab.queued.find? (fun r => r.peer == q) = some r → may → ∃ u, exec (.revocation q) s = .next u ∧ u.threads = s.threads ∧ u.mem = s.mem
        ∧ (u.fabOut = s.fabOut ∨ ∃ j ∈ s.fab.leasedFrom h, j ≠ (q + s.devid) % 64 ∧ u.fab.revokedAt = some s.now
            ∧ (∃ flits, u.fabOut = s.fabOut ++ .revoke h j :: flits)
            ∧ u.fab.rxc = s.fab.rxc.map (fun c => if c.peer = h ∧ c.plane = j then { c with st := .drain none } else c)))
    ∧ (∀ p, p < 64 → (s.fab.leasedFrom p).length ≤ (s.fab.leasedFrom h).length ∧ ((s.fab.leasedFrom p).length = (s.fab.leasedFrom h).length → p ≤ h))

/-- R383, R384, R385, R397: a sender above its target announces that its highest planes leave, from a flit number on, and releases them. When the
link comes to an announced number, the channel joins the sending set or leaves it; a receiving set changes when the peer's flits come
to it. An ACTIVE channel that the receiver revokes is announced to leave, and asked for anew. A channel that has left its set at its
number drains no more: its slot retunes; once settled it is ACTIVE after a grant, which a sender announces, and FREE after a drain,
when the drop is to be offered. -/
def Claims.ChannelStates : Prop :=
  ∀ (s : State) (q j n : Nat) (l : Link) (tx join : Bool), s.fab.link q = some l →
    let slot := s.fab.slot q j tx
    let number := if tx then l.txN else l.rxN
    let set := if tx then l.planesTx else l.planesRx
    let target := min 63 ((s.ctxs.map (fun x => ((x.leases.find? (fun p => p.1 == q)).map (fun p => p.2)).getD 0)).foldl (· + ·) 0)
    let held := (s.fab.txc.filter (fun c => c.peer == q && (c.st == .retune true || c.st == .active))).length
    (s.leasesSuspended = true ∨ held < target → exec (.leaseRelease q) s = .next s)
    ∧ (s.leasesSuspended = false → target ≤ held → ∃ u, exec (.leaseRelease q) s = .next u ∧ u.threads = s.threads ∧ u.mem = s.mem
        ∧ (∀ r ∈ u.fab.requests, r.peer ≠ q) ∧ (∀ c ∈ u.fab.txc, c.peer = q → c.st ≠ .reserved) ∧ u.fab.rxc = s.fab.rxc
        ∧ (∀ p i, p ≠ q → u.fab.slot p i true = s.fab.slot p i true)
        ∧ (let planes := sortBy (fun a b => decide (b ≤ a)) ((s.fab.txc.filter (fun c => c.peer == q && c.st == .active)).map (fun c => c.plane))
           let gone := planes.take (held - target)
           (∀ p ∈ gone, ∃ m, l.txN < m ∧ u.fab.slot q p true = some (.drain (some m))
             ∧ .setChange q p false m ∈ u.fabOut ∧ .release q p ∈ u.fabOut)
           ∧ ∀ p, p ∉ gone → s.fab.slot q p true ≠ some .reserved → u.fab.slot q p true = s.fab.slot q p true))
    ∧ (l.up = false → exec (.channelSetChange q j tx join n) s = .next s)
    ∧ (l.up = true → tx = true →
        ((j, join, n) ∈ l.changes → n ≤ l.txN → (∀ c ∈ l.changes, c.2.2 ≤ l.txN → c = (j, join, n)) →
          ∃ u m, exec (.channelSetChange q j tx join n) s = .next u ∧ u.fab.link q = some m ∧ (j, join, n) ∉ m.changes
            ∧ (∀ x, x ∈ m.planesTx ↔ (x ∈ l.planesTx ∧ x ≠ j) ∨ (join = true ∧ x = j)) ∧ u.fab.txc = s.fab.txc ∧ u.fab.rxc = s.fab.rxc)
        ∧ (join = false → slot = some .active → n = l.txN + 1 → ∃ u, exec (.channelSetChange q j tx join n) s = .next u
            ∧ u.fab.slot q j true = some (.drain (some n)) ∧ .setChange q j false n ∈ u.fabOut ∧ ∃ r ∈ u.fab.requests, r.peer = q)
        ∧ ((j, join, n) ∉ l.changes ∨ l.txN < n → join = true ∨ slot ≠ some .active ∨ n ≠ l.txN + 1 →
            exec (.channelSetChange q j tx join n) s = .next s))
    ∧ (l.up = true → tx = false →
        (l.rxN = n → slot = some .active ∨ (join = false ∧ slot = some (.drain none)) →
          ∃ u m, exec (.channelSetChange q j tx join n) s = .next u ∧ u.fab.link q = some m
            ∧ (∀ x, x ∈ m.planesRx ↔ (x ∈ l.planesRx ∧ x ≠ j) ∨ (join = true ∧ x = j)) ∧ u.fab.txc = s.fab.txc
            ∧ (join = true → u.fab.rxc = s.fab.rxc) ∧ (join = false → u.fab.slot q j false = some (.drain (some n))))
        ∧ (l.rxN ≠ n ∨ (slot ≠ some .active ∧ (join = true ∨ slot ≠ some (.drain none))) →
            exec (.channelSetChange q j tx join n) s = .next s))
    ∧ (∀ m, slot = some (.drain (some m)) → m ≤ number → j ∉ set →
        exec (.drainEnd q j tx) s = .next { s with fab := s.fab.setSlot q j tx (.retune false) })
    ∧ ((∀ m, slot = some (.drain (some m)) → number < m ∨ j ∈ set) → exec (.drainEnd q j tx) s = .next s)
    ∧ (slot = some (.retune true) →
        (tx = false ∨ s.fab.rotating = true → exec (.retuneSettled q j tx) s = .next { s with fab := s.fab.setSlot q j tx .active })
        ∧ (tx = true → s.fab.rotating = false → ∃ u, exec (.retuneSettled q j tx) s = .next u ∧ u.fab.slot q j true = some .active
            ∧ .setChange q j true (l.txN + 1) ∈ u.fabOut ∧ u.threads = s.threads ∧ u.mem = s.mem ∧ u.fab.rxc = s.fab.rxc))
    ∧ (slot = some (.retune false) →
        (tx = false → exec (.retuneSettled q j tx) s = .next { s with fab := { s.fab with
          rxc := s.fab.rxc.filter (fun c => !(c.peer == q && c.plane == j)), freed := s.fab.freed ++ [j] } })
        ∧ (tx = true → ∃ u anew, exec (.retuneSettled q j tx) s = .next u ∧ u.threads = s.threads ∧ u.mem = s.mem ∧ u.fab.rxc = s.fab.rxc
            ∧ (∀ c ∈ anew, c.peer = q ∧ c.st = .reserved)
            ∧ u.fab.txc = s.fab.txc.filter (fun c => !(c.peer == q && c.plane == j)) ++ anew))
    ∧ (slot ≠ some (.retune true) → slot ≠ some (.retune false) → exec (.retuneSettled q j tx) s = .next s)

/-! ### Rotation -/

/-- R388, R389, R390, R393, R394: a peer's confirmation replaces its earlier one of the same table. Guards and windows follow each other by the
table's times: after a window the guard of the next slot, of slot 0 of the next cycle after the last, or of a new table from the first
cycle start that has its START behind it; in a guard the channels retune to the planes of the slot. Before cycle 0 of the first table
every leased channel drains and is free; a table without slots ends rotation. -/
def Claims.RotationPhases : Prop :=
  ∀ (s : State) (q k : Nat) (id : BitVec 32) (txn rxn : List Nat) (t new : RotTable),
    let tuned := fun (u : State) (k : Nat) => ∀ p i, (∃ c ∈ u.fab.txc, c.peer = p ∧ c.plane = i) ↔
      p < 64 ∧ p ≠ s.devid ∧ ∃ x, x < u.fab.slotChannels k p ∧ i = (s.devid + p + x + 1) % 64
    let period := (t.slots.map (fun x => (x.guard + x.dur) * 100)).foldl (· + ·) 0
    let last := s.fab.rot = some t ∧ s.fab.rotPhase = .between k ∧ t.slots.length ≤ k + 1 ∧ s.fab.guardAt (k + 1) ≤ s.nsHigh
    let start := fun from_ =>
      (new.slots ≠ [] → (s.fab.rotating = true ∨ s.fab.txc = []) → s.nsHigh < max new.begins from_ → exec .guardStart s = .next s)
      ∧ (new.slots ≠ [] → (s.fab.rotating = true ∨ s.fab.txc = []) → max new.begins from_ ≤ s.nsHigh →
          ∃ u, exec .guardStart s = .next u ∧ u.fab.rot = some new ∧ u.fab.rotNext = none ∧ u.fab.rotPhase = .guard 0
            ∧ u.fab.rotBase = max new.begins from_ ∧ tuned u 0 ∧ u.fab.requests = [] ∧ u.fab.queued = [])
      ∧ (new.slots = [] → ∃ u, exec .guardStart s = .next u ∧ u.fab.rot = none ∧ u.fab.rotNext = none ∧ u.fab.rotPhase = .before)
    exec (.tableidConfirm q id txn rxn) s = .next { s with
      fab := { s.fab with
        confirms := s.fab.confirms.filter (fun x => !(x.peer == q && x.id == id)) ++ [{ peer := q, id := id, txn := txn, rxn := rxn }] } }
    ∧ (s.fab.rotPhase = .guard k → exec .guardStart s = .next s ∧ exec .dataWindowEnd s = .next s
        ∧ (s.nsHigh < s.fab.windowAt k → exec .dataWindowStart s = .next s)
        ∧ (s.fab.windowAt k ≤ s.nsHigh → ∃ u, exec .dataWindowStart s = .next u ∧ u.fab.rotPhase = .window k ∧ u.threads = s.threads
            ∧ u.mem = s.mem ∧ (∀ c ∈ u.fab.txc, c.st = .active) ∧ (∀ c ∈ u.fab.rxc, c.st = .active)))
    ∧ (s.fab.rotPhase = .window k → exec .guardStart s = .next s ∧ exec .dataWindowStart s = .next s
        ∧ (s.nsHigh < s.fab.guardAt (k + 1) → exec .dataWindowEnd s = .next s)
        ∧ (s.fab.guardAt (k + 1) ≤ s.nsHigh →
            exec .dataWindowEnd s = .next { s with fab := { s.fab with rotPhase := .between k } }))
    ∧ (s.fab.rot = some t → s.fab.rotPhase = .between k →
        exec .dataWindowStart s = .next s ∧ exec .dataWindowEnd s = .next s
        ∧ (s.nsHigh < s.fab.guardAt (k + 1) → exec .guardStart s = .next s)
        ∧ (s.fab.guardAt (k + 1) ≤ s.nsHigh → k + 1 < t.slots.length → ∃ u, exec .guardStart s = .next u
            ∧ u.fab.rotPhase = .guard (k + 1) ∧ u.fab.rotBase = s.fab.rotBase ∧ tuned u (k + 1)))
    ∧ (last → s.fab.rotNext = none → ∃ u, exec .guardStart s = .next u ∧ u.fab.rotPhase = .guard 0
        ∧ u.fab.rotBase = s.fab.rotBase + period ∧ tuned u 0)
    ∧ (s.fab.rotPhase = .before → s.fab.rotNext = none → exec .guardStart s = .next s)
    ∧ (s.fab.rotNext = some new → s.fab.rotPhase = .before → start 0)
    ∧ (s.fab.rotNext = some new → last → start (s.fab.rotBase + period))
    ∧ (s.fab.rotNext = some new → s.fab.rotPhase = .before → new.slots ≠ [] → s.fab.txc ≠ [] →
        (s.leasesSuspended = false → exec .guardStart s = .next s)
        ∧ (s.leasesSuspended = true → ∃ u, exec .guardStart s = .next u ∧ u.fab.rotPhase = .before ∧ u.fab.rotNext = some new
            ∧ u.fab.requests = [] ∧ ∀ c ∈ u.fab.txc, c.st ≠ .active ∧ c.st ≠ .reserved))

/-! ### Frames -/

/-- R24, R144, R146, R154, R163: where a class-F instruction of `fixedResult` issues for a lone thread without a trap, what it will write is its D (both
registers of a pair) and the tag bit of D's pair, with the floating-point flags and `amax` for the floating-point ones alone; nothing for
gz. Every other register, special register, thread, and every byte and stamp of every memory is as before; so is all else. A class-L
one leaves the same in flight. -/
def Claims.RegisterResultFrame : Prop :=
  ∀ (s s' u : State) (t v : Thread) (i : Instr) (d : RegField), Solo s i t v s' → exec i s = .next u →
    let c := t.commit s.cycle
    let rest := u = { s with threads := u.threads, freeCtr := u.freeCtr, nextUid := u.nextUid, bundle := [], looks := [] } ∧ s.othersKept u t
      ∧ (∀ a, u.mem.byte a = s.mem.byte a) ∧ ∀ a, u.hmem.byte a = s.hmem.byte a
    (∀ n fl, fixedResult i = some (d, n, fl) → (∀ tr, u ≠ (s'.takeTrap c tr).done) →
      rest ∧ ∃ b p, u.thread t.crew t.tid = some b ∧ c.keptF b ∧ b.pend = c.pend ++ [p] ∧ p.due = s.cycle + 4
        ∧ (∀ r ∈ p.regs, v.phys d ≤ r.1 ∧ r.1 < v.phys d + n) ∧ (n = 1 → d = 127#7 → p.regs = [] ∧ p.tags = [])
        ∧ (∀ g ∈ p.tags, g.1 = v.phys d / 2) ∧ p.sregs = [] ∧ p.fclr = 0#6 ∧ p.sset = 0#9 ∧ p.sclr = 0#9
        ∧ (fl = false → p.fset = 0#6 ∧ p.amax = 0#32))
    ∧ (laterResult i = some d → rest ∧ ∃ b op, u.thread t.crew t.tid = some b ∧ c.keptL b ∧ b.lops = c.lops ++ [op]
        ∧ (∀ r ∈ op.regs, d ≠ 127#7 ∧ r.1 = v.phys d) ∧ (∀ g ∈ op.tags, g.1 = v.phys d / 2) ∧ op.sset = 0#9)

/-- R48, R218, R220, R229: a load that completes changes no byte of device, host or scratchpad memory, no accumulator and no other thread; what it
leaves in flight is its D, the tag bit of D's pair, and the `stale` bits. -/
def Claims.LoadFrame : Prop :=
  ∀ (s s' s2 : State) (t v : Thread) (i : Instr) (n : BitVec 3) (d a o : RegField) (w va pa : Nat) (host : Bool) (sset : BitVec 9),
    Solo s i t v s' → capLoad i = some (n, d, a, o, w) → loadCheck a o w s' v = .ok (.virt va) →
    s'.reaches t .load va w true pa host s2 → (s2.store host).anyPoison pa w = false →
    s2.freshness v n.toNat ((s2.store host).stampsOf pa w) va = .ok sset →
    ∃ u b op, exec i s = .next u ∧ s.othersKept u t ∧ u.thread t.crew t.tid = some b ∧ (t.commit s.cycle).keptL b
      ∧ b.lops = (t.commit s.cycle).lops ++ [op] ∧ op.sset = sset ∧ op.fset = 0#6
      ∧ (∀ r ∈ op.regs, r.1 = v.phys d ∨ w = 16 ∧ r.1 = v.phys d + 1) ∧ (∀ g ∈ op.tags, g.1 = v.phys d / 2)
      ∧ (∀ x, u.mem.byte x = s.mem.byte x) ∧ (∀ x, u.hmem.byte x = s.hmem.byte x)
      ∧ u.crews = s.crews ∧ u.cohorts = s.cohorts ∧ u.ctxs = s.ctxs ∧ u.parts = s.parts ∧ u.engines = s.engines

/-- R49, R218, R221, R229: a store writes its own bytes and no others. For a store through a capability to memory, they are those at the physical
address that the walk gives (`reaches`), of device or host memory; every other byte of either reads as before, and no register, scratchpad
or other thread changes. For one of the scratchpad, they are those at its offset of the crew's own scratchpad. -/
def Claims.StoreFrame : Prop :=
  ∀ (s s' s2 : State) (t v : Thread) (i : Instr) (d a o : RegField) (w va pa off : Nat) (rep host : Bool) (c : Crew),
    Solo s i t v s' → s.memWf = true →
    let kept := fun (u : State) => s.othersKept u t ∧ (∃ b, u.thread t.crew t.tid = some b ∧ (t.commit s.cycle).keptL b
        ∧ ∀ op ∈ b.lops, op ∈ (t.commit s.cycle).lops ∨ (op.regs = [] ∧ op.tags = [] ∧ op.fset = 0#6 ∧ op.sset = 0#9))
      ∧ u.cohorts = s.cohorts ∧ u.ctxs = s.ctxs ∧ u.parts = s.parts ∧ u.engines = s.engines
    (capStore i = some (d, a, o, w, rep) → storeCheck (if rep then pStore ||| pRestamp else pStore) a o w s' v = .ok (.virt va) →
      (w = 16 → v.tagAt d = true → (v.capAt d).has pGlobal = true) → s'.reaches t .store va w true pa host s2 →
      ∃ u, exec i s = .next u ∧ kept u ∧ u.crews = s.crews
        ∧ (host = false → (∀ x, x < pa ∨ pa + w ≤ x → u.mem.byte x = s.mem.byte x) ∧ ∀ x, u.hmem.byte x = s.hmem.byte x)
        ∧ (host = true → (∀ x, x < pa ∨ pa + w ≤ x → u.hmem.byte x = s.hmem.byte x) ∧ ∀ x, u.mem.byte x = s.mem.byte x))
    ∧ (scratchStore i = some (d, a, o, w) → s.crew t.crew = some c →
      off = ofSigned 64 (((v.rd a).v.toNat : Int) + toSigned 7 o.toNat * w) → off % w = 0 → off + w ≤ c.scrSize →
      ∃ u c', exec i s = .next u ∧ kept u ∧ u.crew t.crew = some c' ∧ c' = { c with scr := c'.scr }
        ∧ (∀ x, x < off ∨ off + w ≤ x → c'.scr.byte x = c.scr.byte x)
        ∧ (∀ n, n ≠ t.crew → u.crew n = s.crew n) ∧ (∀ x, u.mem.byte x = s.mem.byte x) ∧ ∀ x, u.hmem.byte x = s.hmem.byte x)

/-- R234, R235, R237: an atomic writes the bytes of its own word, or none, and no others; what it leaves in flight is its D, and the flags of
the floating-point ones. -/
def Claims.AtomicFrame : Prop :=
  ∀ (s s' s2 : State) (t v : Thread) (i : Instr) (d a : RegField) (w pa : Nat) (host : Bool) (f : Nat → AtomicOut),
    Solo s i t v s' → s.memWf = true → atomic v i = some (d, a, w, f) →
    s'.memCheck v a pAtomic (s'.addrBase v a) w w false = .ok (.virt (s'.addrBase v a)) →
    s'.reaches t .atomic (s'.addrBase v a) w true pa host s2 → (s2.store host).anyPoison pa w = false →
    ∃ u b op, exec i s = .next u ∧ s.othersKept u t ∧ u.thread t.crew t.tid = some b ∧ (t.commit s.cycle).keptL b
      ∧ b.lops = (t.commit s.cycle).lops ++ [op] ∧ (∀ r ∈ op.regs, d ≠ 127#7 ∧ r.1 = v.phys d) ∧ op.sset = 0#9
      ∧ (host = false → (∀ x, x < pa ∨ pa + w ≤ x → u.mem.byte x = s.mem.byte x) ∧ ∀ x, u.hmem.byte x = s.hmem.byte x)
      ∧ (host = true → (∀ x, x < pa ∨ pa + w ≤ x → u.hmem.byte x = s.hmem.byte x) ∧ ∀ x, u.mem.byte x = s.mem.byte x)
      ∧ ((f ((s2.store host).readNat pa w)).write = none → (∀ x, u.mem.byte x = s.mem.byte x) ∧ ∀ x, u.hmem.byte x = s.hmem.byte x)
      ∧ u.crews = s.crews ∧ u.cohorts = s.cohorts ∧ u.ctxs = s.ctxs ∧ u.parts = s.parts ∧ u.engines = s.engines

/-! ### Decoding -/

/-- R148, R149, R150, R151: decoding the words of a well-formed instruction gives it back, with every operand at every value that its encoding
admits; the instructions that share one word, told apart by a register, decode to their first row, with the same meaning. The other
way, a word that decodes is the word of the well-formed instruction it decodes to. Four bytes of a word are least significant first. -/
def Claims.DecodeEncode : Prop :=
  (∀ (i : Instr) (w : BitVec 32) (rest : List (BitVec 32)), i.wf = true → encode i = w :: rest →
    rest.length = (if isLongForm (w.extractLsb' 24 8) = true then 1 else 0)
    ∧ ∃ j, decodeWords w rest.head? = .ok j
      ∧ (∀ tail, decodeBytes ((w :: rest).flatMap (fun x => toBytes 4 x.toNat) ++ tail) = .ok (j, tail))
      ∧ (j = i ∨ ∃ a b, (i = .actrdUnbind a b ∧ j = .actrdBind a b)
          ∨ ((i = .pagedoneMap a b ∨ i = .pagedoneFail a b) ∧ j = .pagedoneResume a b)
          ∨ ((i = .haltcResume a b ∨ i = .haltcDebugHalt a b) ∧ j = .haltcHalt a b)))
  ∧ (∀ (w : BitVec 32) (n : Option (BitVec 32)) (i : Instr), decodeWords w n = .ok i → i.wf = true
      ∧ encode i = (if isLongForm (w.extractLsb' 24 8) = true then w :: n.toList else [w]))
  ∧ (∀ (a b : RegField) (s : State), exec (.actrdUnbind a b) s = exec (.actrdBind a b) s ∧ exec (.pagedoneMap a b) s = exec (.pagedoneResume a b) s
      ∧ exec (.pagedoneFail a b) s = exec (.pagedoneResume a b) s ∧ exec (.haltcResume a b) s = exec (.haltcHalt a b) s
      ∧ exec (.haltcDebugHalt a b) s = exec (.haltcHalt a b) s)

/-- R69, R70, R71: decoding the slot of a well-formed task instruction, at any sequence number, gives it back. A slot whose opcode is
none of the table's decodes to none. -/
def Claims.SlotsDecodeEncode : Prop :=
  (∀ (i : Instr) (seq : BitVec 16) (w0 b c d : Word), i.wf = true → encodeSlot seq i = some (w0, b, c, d) →
    decodeSlot w0 b c d = some i ∧ w0.toNat / 2 ^ 48 = seq.toNat)
  ∧ ∀ (w0 b c d : Word), w0.toNat / 2 ^ 40 % 2 ^ 8 = 0 ∨ 24 < w0.toNat / 2 ^ 40 % 2 ^ 8 → decodeSlot w0 b c d = none

/-- R150, R148, R171: words written out from the encoding tables decode to the instructions they stand for, one of each form, and unassigned opcodes,
nonzero MBZ fields and reserved values do not. -/
def Claims.WordsDecode : Prop :=
  decodeWords 0x104C3305#32 none = .ok (.add 2#3 48#7 102#7 5#7)
  ∧ decodeWords 0x03040013#32 none = .ok (.bnz 2#7 0x13#17)
  ∧ decodeWords 0x73024528#32 none = .ok (.ld64 0#3 9#7 10#7 40#7)
  ∧ decodeWords 0x971FC60F#32 none = .ok (.waitv 0#3 127#7 12#7 15#7)
  ∧ decodeWords 0x9F018100#32 none = .ok (.capmov 6#7 2#7)
  ∧ decodeWords 0x7B03867F#32 none = .ok (.st64 14#7 12#7 127#7)
  ∧ decodeWords 0x35014000#32 (some 0x12345678#32) = .ok (.li 5#7 0x12345678#32)
  ∧ decodeWords 0x35014000#32 none = .error .missingWord
  ∧ decodeWords 0x38000000#32 none = .error (.unassigned 0x38000000#32)
  ∧ decodeWords 0x00000001#32 none = .error .mbz

/-! ### Steps and whole-machine rules -/

/-- R27, R65, R70: a step makes the next move of the agenda, after which the host's answers that the move has used are spent (R412). An event is
its instruction's meaning. The issue of a core whose next partition has a bundle, at a slot whose word decodes to a well-formed
instruction, is that instruction's meaning for the threads of the bundle, which have taken their clause in, followed by the bookkeeping of
the issue. A sequencer whose next slot decodes runs that task instruction. A fault stops the step. -/
def Claims.StepRunsTheInstruction : Prop :=
  ∀ (s s1 : State) (rest : List Action) (i : Instr) (core part ctx : Nat) (seed : Ready) (b rs : List Ready) (c : Clause) (x : Ctx)
    (w : List Word),
    let s0 := { s with agenda := rest }
    let runs := fun (o : Host.Outcome State Fault Refusal) (after : State → State) =>
      (∀ u, o = .next u → step s = .next (after u).spendLines) ∧ ∀ f, o = .fault f → step s = .fault f
    (s.agenda = .event i :: rest → runs (exec i s0) id)
    ∧ (s.agenda = .issue core :: rest → s0.nextPart core = some part → s0.pick core part = (some (seed :: b, rs), s1) →
        seed.f = .code c → seed.rep = 0 → clauseOk c = true → seed.pc.slot ≤ hdrLen c.header → isInstrSlot c seed.pc.slot = true →
        decodeWords (c.slots.getD seed.pc.slot 0#32) (if seed.pc.slot < hdrLen c.header then c.slots[seed.pc.slot + 1]? else none) = .ok i →
        let keys := (seed :: b).map (fun r => (r.crew, r.tid))
        let opened := { s1.eachOf keys (fun s t => s.setThread { t with clause := some c }) with bundle := keys }
        runs (exec i opened) (State.afterBundle core part (seed :: b) rs))
    ∧ (s.agenda = .accept ctx :: rest → s.ctx ctx = some x → x.canAccept = true → s0.slotWords x = (some w, s1) →
        decodeSlot (w.getD 0 0#64) (w.getD 1 0#64) (w.getD 2 0#64) (w.getD 3 0#64) = some i →
        runs (exec i { s1 with seqCtx := ctx }) id)
    ∧ (s.agenda = [] → step s = step { s with agenda := s.defaultAgenda })

/-- R138, R139, R143, R319: the clause of a thread is what memory holds at its program counter: the header word, then as many slots as it says. A header
address that is no multiple of 4 is an alignment trap, bytes outside the code capability's range the capability fault *bounds*. -/
def Claims.ClauseReads : Prop :=
  ∀ (s s1 s2 : State) (ctx h pa qa : Nat) (cap : CapW),
    let header := BitVec.ofNat 32 (s1.mem.readNat pa 4)
    let n := header.toNat % 2 ^ 4 + 1
    (h % 4 ≠ 0 → s.readClause ctx cap h = (.fail (.trap { code := 5, detail := h }) none, s))
    ∧ (h % 4 = 0 → cap.covers h 4 = false → s.readClause ctx cap h = (.fail (.trap { code := 6, sub := 4, detail := h }) none, s))
    ∧ (h % 4 = 0 → cap.covers h 4 = true → s.engMap ctx .fetch h 4 = (.ok [{ pa := pa, n := 4, host := false }], s1) →
        s1.mem.anyPoison pa 4 = false →
        (cap.covers (h + 4) (4 * n) = false →
          s.readClause ctx cap h = (.fail (.trap { code := 6, sub := 4, detail := h }) (some header), s1))
        ∧ (cap.covers (h + 4) (4 * n) = true → s1.engMap ctx .fetch (h + 4) (4 * n) = (.ok [{ pa := qa, n := 4 * n, host := false }], s2) →
            s2.mem.anyPoison qa (4 * n) = false → s.readClause ctx cap h =
              (.code { header := header, slots := (List.range n).map (fun k => BitVec.ofNat 32 (s2.mem.readNat (qa + 4 * k) 4)) }, s2)))

/-- R151: an instruction word with an unassigned code, a reserved TY, a nonzero MBZ field, a bad pair field or an immediate outside its limit is the word of
no well-formed instruction, and decodes to none; at a slot of a readable clause such a word is an illegal-instruction trap for each
thread of the bundle that issues it (stated for one, without an earlier access in flight that has no place yet). The row of the unassigned codes has that trap as its meaning. -/
def Claims.IllegalWordsTrap : Prop :=
  (∀ (w : BitVec 32) (n : Option (BitVec 32)),
    let op := w.toNat / 2 ^ 24
    ((0x38 ≤ op ∧ op ≤ 0x3F) ∨ op = 0x5F ∨ (0xAA ≤ op ∧ op ≤ 0xAF) ∨ (0xB9 ≤ op ∧ op ≤ 0xBF) ∨ (0xC4 ≤ op ∧ op ≤ 0xDF) ∨ op = 0xE7
      ∨ 0xF0 ≤ op → decodeWords w n = .error (.unassigned w))
    ∧ ((∀ (i : Instr) (rest : List (BitVec 32)), i.wf = true → encode i = w :: rest → rest ≠ n.toList.take rest.length) →
        ∃ e, decodeWords w n = .error e))
  ∧ (∀ (s : State) (cr tid rep : Nat) (pc : PC) (c : Clause) (t : Thread) (e : DecodeError), s.thread cr tid = some t →
      (∀ l ∈ s.lates, ¬(l.crew = cr ∧ l.tid = tid)) → rep = 0 →
      clauseOk c = true → pc.slot ≤ hdrLen c.header → isInstrSlot c pc.slot = true →
      decodeWords (c.slots.getD pc.slot 0#32) (if pc.slot < hdrLen c.header then c.slots[pc.slot + 1]? else none) = .error e →
      ∃ u, (s.setThread { t.commit s.cycle with clause := some c }).thread cr tid = some u
        ∧ s.openBundle [(cr, tid)] pc rep (.code c) = .error ((s.setThread { t.commit s.cycle with clause := some c }).takeTrap (u.commit s.cycle)
            { code := 1, detail := (u.commit s.cycle).pc.hdr }))
  ∧ ∀ (s s' : State) (t v : Thread) (w : BitVec 32), Solo s .nop t v s' →
    exec (.unassignedOpcode w) s = .next (s'.takeTrap (t.commit s.cycle) { code := 1, detail := v.pc.hdr }).done

/-- R154, R153, R144: a lone thread outside the privileged state that issues a privileged instruction takes the privilege trap, and one that names a register at
or beyond its allocation the register-range trap with the first such register, whatever else the instruction would do. The trap changes no
memory, no other thread and no crew; after an instruction whose issue the end of the cycle evaluates, what it evaluates follows. -/
def Claims.ChecksComeFirst : Prop :=
  ∀ (s s' : State) (t v : Thread) (i : Instr) (tr : Trap), s.bundle = [(t.crew, t.tid)] → s.thread t.crew t.tid = some t →
    s.issuing = .now → s.hasLate t = false → s.view (t.commit s.cycle) = (v, s') → s'.preCheck i v = some tr → encode i ≠ [] →
    let u := s'.takeTrap (t.commit s.cycle) tr
    (exec i s = .next u.done ∨ exec i s = .next u.settle.done)
    ∧ (tr = { code := 3, detail := v.pc.hdr } ∨ ∃ n, tr = { code := 4, detail := n })
    ∧ u.mem = s.mem ∧ u.hmem = s.hmem ∧ u.crews = s.crews ∧ s.othersKept u t

/-- R7, R36, R61, R350, R378, R410, R413, R416, R427, R432, R384: the machine right after reset, where the spec gives its values: no context, crew or thread;
device time stopped with K 10; boot at stage 0; every stamp window disabled; every page in device bias; FABCTL, the partitions'
scheduler words and every link and lease register at their reset values; no lease channel held. -/
def Claims.ResetState : Prop :=
  let s := State.reset
  s.ctxs = [] ∧ s.cohorts = [] ∧ s.crews = [] ∧ s.threads = [] ∧ s.engines = [] ∧ s.cycle = 0
  ∧ s.hl.tickctl = 10#64 ∧ s.hl.timeset = 0#64 ∧ s.hl.stage = 0 ∧ s.hl.fail = 0 ∧ s.hl.go = false ∧ s.hl.lock = false
  ∧ s.hl.busy = false ∧ s.hl.bscPage = 0 ∧ s.hl.bscBias = false ∧ (∀ pa, s.hostBias pa = false) ∧ s.hl.flips = []
  ∧ s.hl.swins = List.replicate 8 { base := s.hl.biasbase, lim := s.hl.biasbase, stamp := 0#64 }
  ∧ s.hl.lksel = 0#64 ∧ s.hl.lkeys = [0#64, 0#64, 0#64, 0#64] ∧ s.hl.lkepoch = 0#64
  ∧ s.fab.fabctl.toNat = 256 * 2 ^ 32 + 8 * 2 ^ 20 + 1024 ∧ s.fab.txc = [] ∧ s.fab.rxc = [] ∧ s.fab.links = [] ∧ s.fab.rot = none
  ∧ s.parts.length = 8 ∧ (∀ p ∈ s.parts, p.cpol.toNat / 2 ^ 8 % 2 ^ 8 = 16)
  ∧ (s.islands.length = 32 ∧ (s.island 0).on = true) ∧ s.memStacks.length = 16

/-- R5, R39, R44: the memories of the reset state are in their canonical form. -/
def Claims.MemoriesCanonicalAtReset : Prop := State.reset.memWf = true

/-- R5, R39, R44: in every state whose memories are in their canonical form, whatever the next move is, the memories of the state after it are in that form
too: the pairs of each list in rising order of their keys, none with the value that an unlisted place reads as. -/
def Claims.MemoriesStayCanonical : Prop :=
  ∀ (s u : State), s.memWf = true → step s = .next u → u.memWf = true

/-! ### Stamps -/

/-- R41, R40: `combine` of two stamps, class by class: VACANT gives way to the other, DATA to nothing, WEIGHT to DATA alone; of two of one class the older
is taken; TIMELESS and VACANT results have TICK zero. A combine over a list folds it, over an empty list it is VACANT. -/
def Claims.CombineTable : Prop :=
  ∀ (a b : Stamp) (l : List Stamp),
    let cls := fun (x : Stamp) => x.toNat / 2 ^ 30
    let tick := fun (x : Stamp) => x.toNat % 2 ^ 30
    let zeroed := fun (x : Stamp) => if 2 ≤ cls x then BitVec.ofNat 32 (cls x * 2 ^ 30) else x
    let older := if 2 ^ 29 ≤ (tick a + 2 ^ 30 - tick b) % 2 ^ 30 then a else b
    combine a b = zeroed (
      if cls a = 3 then b
      else if cls b = 3 then a
      else if cls a = 0 ∧ cls b = 0 then older
      else if cls a = 0 then a
      else if cls b = 0 then b
      else if cls a = 1 ∧ cls b = 1 then older
      else if cls a = 1 then a
      else if cls b = 1 then b
      else BitVec.ofNat 32 (2 * 2 ^ 30))
    ∧ combineList [] = BitVec.ofNat 32 (3 * 2 ^ 30) ∧ combineList (a :: l) = combine a (combineList l)

/-- R42: on stamps whose DATA and WEIGHT ticks are younger than 2^29, `combine` is commutative and associative, `older` picks the stamp of greater age
whatever `now` is, and a combine over a list does not depend on the list's order. -/
def Claims.CombineOrder : Prop :=
  ∀ (now : Nat) (a b c : Stamp) (l m : List Stamp),
    let live := fun (x : Stamp) => x.toNat / 2 ^ 30 < 2 → stampAge now x < 2 ^ 29
    live a → live b → live c → (∀ x ∈ l, live x) →
    combine a b = combine b a ∧ combine (combine a b) c = combine a (combine b c)
    ∧ (a.toNat / 2 ^ 30 = b.toNat / 2 ^ 30 → a.toNat / 2 ^ 30 < 2 →
        stampAge now (combine a b) = max (stampAge now a) (stampAge now b) ∧ (combine a b = a ∨ combine a b = b))
    ∧ (l.Perm m → combineList l = combineList m)

/-! ### The statements -/

/-- Integer arithmetic, compares, selects and moves complete with the results the rules give. -/
def Obligations.IntegerResults : Prop := Claims.IntegerArithmetic ∧ Claims.ComparesSelectsAndMoves

/-- Logic, shifts, bit counts and bit fields complete with the results the rules give, bit by bit. -/
def Obligations.LogicAndBitResults : Prop := Claims.LogicShiftsAndBits ∧ Claims.BitsOneByOne

/-- Elementwise floating-point arithmetic, compares and functions complete with rounded results and their flags. -/
def Obligations.FloatResults : Prop := Claims.FloatElementwise ∧ Claims.FloatFunctions

/-- Dots, sums, conversions and block quantisation complete with rounded results and their flags. -/
def Obligations.ConversionResults : Prop := Claims.DotsSumsAndConversions ∧ Claims.BlockQuantisation

/-- Rounding chooses the value the mode gives, and a representable value rounds to itself. -/
def Obligations.RoundingIsExactThenRounded : Prop := Claims.RoundingOnce ∧ Claims.RepresentableValuesRoundToThemselves

/-- Cross-lane instructions join a rendezvous, which delivers once it is complete. -/
def Obligations.CrossLaneRendezvous : Prop := Claims.CrossLaneInstructionsJoin ∧ Claims.CompleteRendezvousDelivers ∧ Claims.CrossLaneResults

/-- Branches, jumps, calls, returns, window moves, repeats and sleeps complete; the next slot is the one after. -/
def Obligations.ControlTransfers : Prop := Claims.BranchesAndJumps ∧ Claims.CallsAndReturns ∧ Claims.WindowRepeatAndSleep ∧ Claims.NextSlot

/-- Jumps, calls and returns whose checks fail take the trap that the rules name. -/
def Obligations.ControlTransferTraps : Prop := Claims.JumpRegisterTraps ∧ Claims.CallAndReturnTraps

/-- A trap saves, enters the handler or escalates as the rules give; TRAP and BKPT take theirs. -/
def Obligations.TrapEntryAndEscalation : Prop := Claims.TrapInstructions ∧ Claims.TrapEntry ∧ Claims.TrapEscalation

/-- Words that are no instruction's trap; privilege and register range are checked before anything else. -/
def Obligations.IllegalWordsAndFirstChecks : Prop := Claims.IllegalWordsTrap ∧ Claims.PrivilegeThenRange ∧ Claims.ChecksComeFirst

/-- Exits, membership masks and convergence barriers. -/
def Obligations.ExitsAndConvergence : Prop := Claims.ExitsAndMasks ∧ Claims.ConvergenceJoin ∧ Claims.ConvergenceRelease

/-- Crew barriers and scope barriers hold their threads and release them. -/
def Obligations.CrewAndScopeBarriers : Prop :=
  Claims.CrewBarriers ∧ Claims.CrewBarrierRelease ∧ Claims.ScopeBarrier ∧ Claims.ScopeBarrierRelease

/-- An access is checked in the order of the rules, and its stamps against the bound its instruction selects. -/
def Obligations.AccessChecksInOrder : Prop := Claims.AccessChecks ∧ Claims.AccessTraps ∧ Claims.FreshnessCheck

/-- Loads of memory and scratchpad, plain and transposed, complete with bytes, stamps and tags. -/
def Obligations.LoadResults : Prop :=
  Claims.LoadsComplete ∧ Claims.TransposedLoadsComplete ∧ Claims.TransposedLoadTraps ∧ Claims.ScratchpadLoadsComplete ∧
  Claims.PoisonedLoads

/-- Stores to memory and scratchpad leave their bytes, stamps and tags. -/
def Obligations.StoreResults : Prop := Claims.StoreLeaves ∧ Claims.StoresComplete ∧ Claims.StoreGlobalTrap ∧ Claims.ScratchpadStoresComplete

/-- Atomics return the old value and write the new one; PREF and FENCE complete. -/
def Obligations.AtomicResults : Prop := Claims.PrefetchAndFence ∧ Claims.AtomicsComplete

/-- WAITV waits for its word; a load or a store may issue before its place in the order of memory (the model's choice, log 51). -/
def Obligations.WaitingOnMemory : Prop := Claims.WaitingOnAValue ∧ Claims.AccessesMayComeLater

/-- Capability instructions derive no more than they are given. -/
def Obligations.CapabilityResults : Prop :=
  Claims.CapabilityArithmetic ∧ Claims.RegionCapabilities ∧ Claims.ScratchAndCodeCapabilities ∧ Claims.ScratchAndCodeCapabilityTraps

/-- CAPNRW narrows to the least cover of the range asked for, or traps. -/
def Obligations.CapabilityNarrowingIsExact : Prop := Claims.CapabilityNarrowing ∧ Claims.CapabilityNarrowingTraps

/-- Special registers read and write as their rows give, and results become visible four cycles on. -/
def Obligations.SpecialRegisters : Prop := Claims.SpecialRegisterReads ∧ Claims.SpecialRegisterWrites ∧ Claims.ResultsBecomeVisible

/-- STAMPR, AGE, AGEJOIN and AGECHK. -/
def Obligations.StampAndAgeInstructions : Prop := Claims.StampInstructions ∧ Claims.AgeCheck

/-- The privileged state, and the return from a trap. -/
def Obligations.PrivilegedStateAndReturn : Prop := Claims.PrivilegedState ∧ Claims.ReturnFromTrap

/-- Control registers read and write as their rows give, shared ones four cycles on. -/
def Obligations.ControlRegisters : Prop := Claims.ControlRegisterReads ∧ Claims.ControlRegisterWrites ∧ Claims.SharedRegisterWrites

/-- STAMPSET, TLBINV and CMAPW. -/
def Obligations.PrivilegedOperations : Prop := Claims.StampSetting ∧ Claims.TranslationInvalidation ∧ Claims.CoreMap

/-- HALTC, DBGSTEP, and stopping at clause boundaries. -/
def Obligations.HaltingAndDebugging : Prop :=
  Claims.HaltControl ∧ Claims.ResumingAContext ∧ Claims.StoppingAtClauseBoundaries ∧ Claims.DebugSteps

/-- PAGEDONE resolves a record, and the agents that its fault parked go on. -/
def Obligations.PageDoneAndParking : Prop := Claims.PageDoneCompletes ∧ Claims.PageDoneResolves ∧ Claims.ParkedThreads

/-- Bulk instructions start an engine thread over their group, or trap on it. -/
def Obligations.BulkInstructionsStart : Prop := Claims.BulkInstructions ∧ Claims.BulkOperandChecks

/-- The packets of a bulk transfer divide its bytes. -/
def Obligations.PacketsCoverATransfer : Prop := Claims.PacketsDivideATransfer

/-- Engine packets move their bytes, and operations complete. -/
def Obligations.EnginesAndCompletion : Prop := Claims.EnginePackets ∧ Claims.OperationsComplete

/-- Arrival counters, delivery tags, SEND and LEASEQ. -/
def Obligations.CountersTagsAndSends : Prop := Claims.ArrivalCounters ∧ Claims.DeliveryTags ∧ Claims.EgressSends ∧ Claims.LeaseCounts

/-- Matrix and update commands enter their crew's queue, or trap. -/
def Obligations.MatrixCommandsStart : Prop := Claims.MatrixCommandsEnterTheQueue ∧ Claims.UpdateCommandsEnterTheQueue

/-- MLOAD and MSTREAM join a rendezvous and enter the queue together. -/
def Obligations.MatrixCollectives : Prop := Claims.MatrixCollectivesJoin ∧ Claims.MatrixCollectivesVote

/-- The matrix engine and the update unit perform the commands of their queues. -/
def Obligations.MatrixAndUpdateSteps : Prop := Claims.MatrixEngineSteps ∧ Claims.WeightLoads ∧ Claims.TileRescale ∧ Claims.UpdateUnitSteps

/-- A slot of the stream is accepted as its opcode gives, with the order its regions make. -/
def Obligations.TasksEnterTheWindow : Prop :=
  Claims.TaskAcceptance ∧ Claims.StreamControlTasks ∧ Claims.RegionsAndDependence ∧ Claims.LaunchAndCopyTasks

/-- Tasks issue when their conditions hold, with the effects of signals, marks and waits. -/
def Obligations.TasksIssue : Prop := Claims.TaskIssue ∧ Claims.SignalsMarksAndWaits

/-- Tasks that set ports, scopes, leases, rotation, pagers and contexts. -/
def Obligations.SettingAndContextTasks : Prop := Claims.SettingTasks ∧ Claims.ContextTasks

/-- Tasks retire in order, fault when oldest, and release what they staged. -/
def Obligations.RetirementInOrder : Prop := Claims.TaskRetirement ∧ Claims.TaskFaults ∧ Claims.PortsAndPool

/-- Cohorts are admitted where they fit, crews start clean, and their ends release them. -/
def Obligations.CohortsStartAndEnd : Prop := Claims.CohortAdmission ∧ Claims.CrewsAndThreadsAtStart ∧ Claims.StartReleaseAndIslands

/-- Contexts stop at boundaries and are restored; cycles end, and late rendezvous stall. -/
def Obligations.StopsRestoresAndCycles : Prop := Claims.StopAndRestore ∧ Claims.CyclesAndStalls

/-- Retirement, task faults, releases, admission, starts and restores complete under conditions on the state alone. -/
def Obligations.EventsComplete : Prop :=
  Claims.RetirementCompletes ∧ Claims.TaskFaultsComplete ∧ Claims.RecordsAndPoolComplete ∧ Claims.AdmissionAndStartsComplete ∧
  Claims.StopsAndRestoresComplete

/-- Device time ticks, the clamp bounds ages, and pager records are written. -/
def Obligations.TimeClampAndPagers : Prop := Claims.DeviceTime ∧ Claims.ClampAndScan ∧ Claims.PagerRecords

/-- Errors are counted, logged and poison; faults and resets of parts lose what the rules say. -/
def Obligations.ErrorsAndResets : Prop := Claims.ErrorsAreCountedAndPoison ∧ Claims.FaultsAndResetsOfParts

/-- Host reads and writes of device memory, stamped by the windows. -/
def Obligations.HostRequests : Prop := Claims.HostReads ∧ Claims.HostWrites ∧ Claims.StampWindows ∧ Claims.UnsupportedAndUnlisted

/-- Bias flips, snoops and host lines. -/
def Obligations.BiasAndSnoops : Prop := Claims.SnoopAnswers ∧ Claims.HostLines ∧ Claims.BiasCommands ∧ Claims.FlipsComplete

/-- Boot, attestation, features and the first context. -/
def Obligations.BootAndFirstContext : Prop := Claims.Boot ∧ Claims.AttestationAndFeatures ∧ Claims.FirstContext

/-- Management registers, time control and link keys. -/
def Obligations.ManagementRegisters : Prop := Claims.TimeControl ∧ Claims.RegisterWrites ∧ Claims.LinkKeys

/-- Stack requests, responses, mailboxes and time beats. -/
def Obligations.StackLinks : Prop :=
  Claims.MailboxCommands ∧ Claims.MailboxPerformed ∧ Claims.StackLineRequests ∧ Claims.TimeBeats ∧ Claims.StackResponses

/-- Flits, replay, link down and up, rekeying and time exchange. -/
def Obligations.FabricLinks : Prop := Claims.FlitsArrive ∧ Claims.ReplayAndLinkDown ∧ Claims.LinkUpAndRekey ∧ Claims.TimeExchange

/-- What a sender puts into a flit is what its receiver takes out. -/
def Obligations.FlitsRoundTrip : Prop := Claims.FlitsComeBack

/-- Fabric requests are performed once in the paired context, and replies finish their packets. -/
def Obligations.FabricPackets : Prop :=
  Claims.WriteRequests ∧ Claims.ReadAndAtomicRequests ∧ Claims.FabricReplies ∧ Claims.EgressRecordsArrive

/-- Lease requests, grants, offers, revocation, channel states and rotation phases. -/
def Obligations.LeasesAndRotation : Prop :=
  Claims.RequestsAndGrants ∧ Claims.OffersAndRevocation ∧ Claims.ChannelStates ∧ Claims.RotationPhases

/-- Register instructions change their results and nothing else. -/
def Obligations.FramesOfResults : Prop := Claims.RegisterResultFrame

/-- Loads change no byte; stores and atomics change their own bytes and nothing else. -/
def Obligations.FramesOfMemory : Prop := Claims.LoadFrame ∧ Claims.StoreFrame ∧ Claims.AtomicFrame

/-- Decode and encode agree for every well-formed instruction and task slot. -/
def Obligations.DecodeOfEncode : Prop := Claims.DecodeEncode ∧ Claims.SlotsDecodeEncode

/-- Words written out from the encoding tables decode to their instructions. -/
def Obligations.WordsWrittenOut : Prop := Claims.WordsDecode

/-- A step runs the instruction that the bytes at the program counter decode to. -/
def Obligations.StepRunsDecoded : Prop := Claims.StepRunsTheInstruction ∧ Claims.ClauseReads

/-- Stamps combine by class and age, in any order. -/
def Obligations.StampsCombine : Prop := Claims.CombineTable ∧ Claims.CombineOrder

/-- The machine right after reset holds the values the maps give. -/
def Obligations.ResetValues : Prop := Claims.ResetState

/-- The memories of the reset state are in canonical form. -/
def Obligations.CanonicalMemoryAtReset : Prop := Claims.MemoriesCanonicalAtReset

/-- Every step keeps every memory in its canonical form. -/
def Obligations.CanonicalMemoryKept : Prop := Claims.MemoriesStayCanonical
end

