-- ==== Sys2Proof/Laws/State.lean ====
section
/-!
SUPPORT. What each update of the state leaves alone: one lemma per field per update, and what the updates of a thread, a crew, a
context, a cohort or a task leave alone through the operations over them.
-/

namespace Sys2Proof.Machine

/-! ### `setThread` -/

@[simp] theorem State.setThread_cycle (s : State) (t : Thread) : (s.setThread t).cycle = s.cycle := rfl
@[simp] theorem State.setThread_now (s : State) (t : Thread) : (s.setThread t).now = s.now := rfl
@[simp] theorem State.setThread_devid (s : State) (t : Thread) : (s.setThread t).devid = s.devid := rfl
@[simp] theorem State.setThread_height (s : State) (t : Thread) : (s.setThread t).height = s.height := rfl
@[simp] theorem State.setThread_mem (s : State) (t : Thread) : (s.setThread t).mem = s.mem := rfl
@[simp] theorem State.setThread_hmem (s : State) (t : Thread) : (s.setThread t).hmem = s.hmem := rfl
@[simp] theorem State.setThread_ctxs (s : State) (t : Thread) : (s.setThread t).ctxs = s.ctxs := rfl
@[simp] theorem State.setThread_cohorts (s : State) (t : Thread) : (s.setThread t).cohorts = s.cohorts := rfl
@[simp] theorem State.setThread_crews (s : State) (t : Thread) : (s.setThread t).crews = s.crews := rfl
@[simp] theorem State.setThread_engines (s : State) (t : Thread) : (s.setThread t).engines = s.engines := rfl
@[simp] theorem State.setThread_cores (s : State) (t : Thread) : (s.setThread t).cores = s.cores := rfl
@[simp] theorem State.setThread_parts (s : State) (t : Thread) : (s.setThread t).parts = s.parts := rfl
@[simp] theorem State.setThread_islands (s : State) (t : Thread) : (s.setThread t).islands = s.islands := rfl
@[simp] theorem State.setThread_matNext (s : State) (t : Thread) : (s.setThread t).matNext = s.matNext := rfl
@[simp] theorem State.setThread_updNext (s : State) (t : Thread) : (s.setThread t).updNext = s.updNext := rfl
@[simp] theorem State.setThread_objUsed (s : State) (t : Thread) : (s.setThread t).objUsed = s.objUsed := rfl
@[simp] theorem State.setThread_tlb (s : State) (t : Thread) : (s.setThread t).tlb = s.tlb := rfl
@[simp] theorem State.setThread_fab (s : State) (t : Thread) : (s.setThread t).fab = s.fab := rfl
@[simp] theorem State.setThread_fabOut (s : State) (t : Thread) : (s.setThread t).fabOut = s.fabOut := rfl
@[simp] theorem State.setThread_hl (s : State) (t : Thread) : (s.setThread t).hl = s.hl := rfl
@[simp] theorem State.setThread_hostOut (s : State) (t : Thread) : (s.setThread t).hostOut = s.hostOut := rfl
@[simp] theorem State.setThread_msix (s : State) (t : Thread) : (s.setThread t).msix = s.msix := rfl
@[simp] theorem State.setThread_memStacks (s : State) (t : Thread) : (s.setThread t).memStacks = s.memStacks := rfl
@[simp] theorem State.setThread_agenda (s : State) (t : Thread) : (s.setThread t).agenda = s.agenda := rfl
@[simp] theorem State.setThread_lates (s : State) (t : Thread) : (s.setThread t).lates = s.lates := rfl
@[simp] theorem State.setThread_issuing (s : State) (t : Thread) : (s.setThread t).issuing = s.issuing := rfl
@[simp] theorem State.setThread_pasts (s : State) (t : Thread) : (s.setThread t).pasts = s.pasts := rfl
@[simp] theorem State.setThread_readPast (s : State) (t : Thread) : (s.setThread t).readPast = s.readPast := rfl
@[simp] theorem State.setThread_looks (s : State) (t : Thread) : (s.setThread t).looks = s.looks := rfl
@[simp] theorem State.setThread_owed (s : State) (t : Thread) : (s.setThread t).owed = s.owed := rfl
@[simp] theorem State.setThread_early (s : State) (t : Thread) : (s.setThread t).early = s.early := rfl
@[simp] theorem State.setThread_wrote (s : State) (t : Thread) : (s.setThread t).wrote = s.wrote := rfl
@[simp] theorem State.setThread_bundle (s : State) (t : Thread) : (s.setThread t).bundle = s.bundle := rfl
@[simp] theorem State.setThread_issuedNow (s : State) (t : Thread) : (s.setThread t).issuedNow = s.issuedNow := rfl
@[simp] theorem State.setThread_admits (s : State) (t : Thread) : (s.setThread t).admits = s.admits := rfl
@[simp] theorem State.setThread_orders (s : State) (t : Thread) : (s.setThread t).orders = s.orders := rfl
@[simp] theorem State.setThread_seqCtx (s : State) (t : Thread) : (s.setThread t).seqCtx = s.seqCtx := rfl
@[simp] theorem State.setThread_nextUid (s : State) (t : Thread) : (s.setThread t).nextUid = s.nextUid := rfl
@[simp] theorem State.setThread_freeCtr (s : State) (t : Thread) : (s.setThread t).freeCtr = s.freeCtr := rfl

/-! ### `mapThreads` -/

@[simp] theorem State.mapThreads_cycle (s : State) (f : Thread → Thread) : (s.mapThreads f).cycle = s.cycle := rfl
@[simp] theorem State.mapThreads_now (s : State) (f : Thread → Thread) : (s.mapThreads f).now = s.now := rfl
@[simp] theorem State.mapThreads_devid (s : State) (f : Thread → Thread) : (s.mapThreads f).devid = s.devid := rfl
@[simp] theorem State.mapThreads_height (s : State) (f : Thread → Thread) : (s.mapThreads f).height = s.height := rfl
@[simp] theorem State.mapThreads_mem (s : State) (f : Thread → Thread) : (s.mapThreads f).mem = s.mem := rfl
@[simp] theorem State.mapThreads_hmem (s : State) (f : Thread → Thread) : (s.mapThreads f).hmem = s.hmem := rfl
@[simp] theorem State.mapThreads_ctxs (s : State) (f : Thread → Thread) : (s.mapThreads f).ctxs = s.ctxs := rfl
@[simp] theorem State.mapThreads_cohorts (s : State) (f : Thread → Thread) : (s.mapThreads f).cohorts = s.cohorts := rfl
@[simp] theorem State.mapThreads_crews (s : State) (f : Thread → Thread) : (s.mapThreads f).crews = s.crews := rfl
@[simp] theorem State.mapThreads_engines (s : State) (f : Thread → Thread) : (s.mapThreads f).engines = s.engines := rfl
@[simp] theorem State.mapThreads_cores (s : State) (f : Thread → Thread) : (s.mapThreads f).cores = s.cores := rfl
@[simp] theorem State.mapThreads_parts (s : State) (f : Thread → Thread) : (s.mapThreads f).parts = s.parts := rfl
@[simp] theorem State.mapThreads_islands (s : State) (f : Thread → Thread) : (s.mapThreads f).islands = s.islands := rfl
@[simp] theorem State.mapThreads_matNext (s : State) (f : Thread → Thread) : (s.mapThreads f).matNext = s.matNext := rfl
@[simp] theorem State.mapThreads_updNext (s : State) (f : Thread → Thread) : (s.mapThreads f).updNext = s.updNext := rfl
@[simp] theorem State.mapThreads_objUsed (s : State) (f : Thread → Thread) : (s.mapThreads f).objUsed = s.objUsed := rfl
@[simp] theorem State.mapThreads_tlb (s : State) (f : Thread → Thread) : (s.mapThreads f).tlb = s.tlb := rfl
@[simp] theorem State.mapThreads_fab (s : State) (f : Thread → Thread) : (s.mapThreads f).fab = s.fab := rfl
@[simp] theorem State.mapThreads_fabOut (s : State) (f : Thread → Thread) : (s.mapThreads f).fabOut = s.fabOut := rfl
@[simp] theorem State.mapThreads_hl (s : State) (f : Thread → Thread) : (s.mapThreads f).hl = s.hl := rfl
@[simp] theorem State.mapThreads_hostOut (s : State) (f : Thread → Thread) : (s.mapThreads f).hostOut = s.hostOut := rfl
@[simp] theorem State.mapThreads_msix (s : State) (f : Thread → Thread) : (s.mapThreads f).msix = s.msix := rfl
@[simp] theorem State.mapThreads_memStacks (s : State) (f : Thread → Thread) : (s.mapThreads f).memStacks = s.memStacks := rfl
@[simp] theorem State.mapThreads_agenda (s : State) (f : Thread → Thread) : (s.mapThreads f).agenda = s.agenda := rfl
@[simp] theorem State.mapThreads_lates (s : State) (f : Thread → Thread) : (s.mapThreads f).lates = s.lates := rfl
@[simp] theorem State.mapThreads_issuing (s : State) (f : Thread → Thread) : (s.mapThreads f).issuing = s.issuing := rfl
@[simp] theorem State.mapThreads_pasts (s : State) (f : Thread → Thread) : (s.mapThreads f).pasts = s.pasts := rfl
@[simp] theorem State.mapThreads_readPast (s : State) (f : Thread → Thread) : (s.mapThreads f).readPast = s.readPast := rfl
@[simp] theorem State.mapThreads_looks (s : State) (f : Thread → Thread) : (s.mapThreads f).looks = s.looks := rfl
@[simp] theorem State.mapThreads_owed (s : State) (f : Thread → Thread) : (s.mapThreads f).owed = s.owed := rfl
@[simp] theorem State.mapThreads_early (s : State) (f : Thread → Thread) : (s.mapThreads f).early = s.early := rfl
@[simp] theorem State.mapThreads_wrote (s : State) (f : Thread → Thread) : (s.mapThreads f).wrote = s.wrote := rfl
@[simp] theorem State.mapThreads_bundle (s : State) (f : Thread → Thread) : (s.mapThreads f).bundle = s.bundle := rfl
@[simp] theorem State.mapThreads_issuedNow (s : State) (f : Thread → Thread) : (s.mapThreads f).issuedNow = s.issuedNow := rfl
@[simp] theorem State.mapThreads_admits (s : State) (f : Thread → Thread) : (s.mapThreads f).admits = s.admits := rfl
@[simp] theorem State.mapThreads_orders (s : State) (f : Thread → Thread) : (s.mapThreads f).orders = s.orders := rfl
@[simp] theorem State.mapThreads_seqCtx (s : State) (f : Thread → Thread) : (s.mapThreads f).seqCtx = s.seqCtx := rfl
@[simp] theorem State.mapThreads_nextUid (s : State) (f : Thread → Thread) : (s.mapThreads f).nextUid = s.nextUid := rfl
@[simp] theorem State.mapThreads_freeCtr (s : State) (f : Thread → Thread) : (s.mapThreads f).freeCtr = s.freeCtr := rfl

/-! ### `setCrew` -/

@[simp] theorem State.setCrew_cycle (s : State) (c : Crew) : (s.setCrew c).cycle = s.cycle := rfl
@[simp] theorem State.setCrew_now (s : State) (c : Crew) : (s.setCrew c).now = s.now := rfl
@[simp] theorem State.setCrew_devid (s : State) (c : Crew) : (s.setCrew c).devid = s.devid := rfl
@[simp] theorem State.setCrew_height (s : State) (c : Crew) : (s.setCrew c).height = s.height := rfl
@[simp] theorem State.setCrew_mem (s : State) (c : Crew) : (s.setCrew c).mem = s.mem := rfl
@[simp] theorem State.setCrew_hmem (s : State) (c : Crew) : (s.setCrew c).hmem = s.hmem := rfl
@[simp] theorem State.setCrew_ctxs (s : State) (c : Crew) : (s.setCrew c).ctxs = s.ctxs := rfl
@[simp] theorem State.setCrew_cohorts (s : State) (c : Crew) : (s.setCrew c).cohorts = s.cohorts := rfl
@[simp] theorem State.setCrew_threads (s : State) (c : Crew) : (s.setCrew c).threads = s.threads := rfl
@[simp] theorem State.setCrew_engines (s : State) (c : Crew) : (s.setCrew c).engines = s.engines := rfl
@[simp] theorem State.setCrew_cores (s : State) (c : Crew) : (s.setCrew c).cores = s.cores := rfl
@[simp] theorem State.setCrew_parts (s : State) (c : Crew) : (s.setCrew c).parts = s.parts := rfl
@[simp] theorem State.setCrew_islands (s : State) (c : Crew) : (s.setCrew c).islands = s.islands := rfl
@[simp] theorem State.setCrew_matNext (s : State) (c : Crew) : (s.setCrew c).matNext = s.matNext := rfl
@[simp] theorem State.setCrew_updNext (s : State) (c : Crew) : (s.setCrew c).updNext = s.updNext := rfl
@[simp] theorem State.setCrew_objUsed (s : State) (c : Crew) : (s.setCrew c).objUsed = s.objUsed := rfl
@[simp] theorem State.setCrew_tlb (s : State) (c : Crew) : (s.setCrew c).tlb = s.tlb := rfl
@[simp] theorem State.setCrew_fab (s : State) (c : Crew) : (s.setCrew c).fab = s.fab := rfl
@[simp] theorem State.setCrew_fabOut (s : State) (c : Crew) : (s.setCrew c).fabOut = s.fabOut := rfl
@[simp] theorem State.setCrew_hl (s : State) (c : Crew) : (s.setCrew c).hl = s.hl := rfl
@[simp] theorem State.setCrew_hostOut (s : State) (c : Crew) : (s.setCrew c).hostOut = s.hostOut := rfl
@[simp] theorem State.setCrew_msix (s : State) (c : Crew) : (s.setCrew c).msix = s.msix := rfl
@[simp] theorem State.setCrew_memStacks (s : State) (c : Crew) : (s.setCrew c).memStacks = s.memStacks := rfl
@[simp] theorem State.setCrew_agenda (s : State) (c : Crew) : (s.setCrew c).agenda = s.agenda := rfl
@[simp] theorem State.setCrew_lates (s : State) (c : Crew) : (s.setCrew c).lates = s.lates := rfl
@[simp] theorem State.setCrew_issuing (s : State) (c : Crew) : (s.setCrew c).issuing = s.issuing := rfl
@[simp] theorem State.setCrew_pasts (s : State) (c : Crew) : (s.setCrew c).pasts = s.pasts := rfl
@[simp] theorem State.setCrew_readPast (s : State) (c : Crew) : (s.setCrew c).readPast = s.readPast := rfl
@[simp] theorem State.setCrew_looks (s : State) (c : Crew) : (s.setCrew c).looks = s.looks := rfl
@[simp] theorem State.setCrew_owed (s : State) (c : Crew) : (s.setCrew c).owed = s.owed := rfl
@[simp] theorem State.setCrew_early (s : State) (c : Crew) : (s.setCrew c).early = s.early := rfl
@[simp] theorem State.setCrew_wrote (s : State) (c : Crew) : (s.setCrew c).wrote = s.wrote := rfl
@[simp] theorem State.setCrew_bundle (s : State) (c : Crew) : (s.setCrew c).bundle = s.bundle := rfl
@[simp] theorem State.setCrew_issuedNow (s : State) (c : Crew) : (s.setCrew c).issuedNow = s.issuedNow := rfl
@[simp] theorem State.setCrew_admits (s : State) (c : Crew) : (s.setCrew c).admits = s.admits := rfl
@[simp] theorem State.setCrew_orders (s : State) (c : Crew) : (s.setCrew c).orders = s.orders := rfl
@[simp] theorem State.setCrew_seqCtx (s : State) (c : Crew) : (s.setCrew c).seqCtx = s.seqCtx := rfl
@[simp] theorem State.setCrew_nextUid (s : State) (c : Crew) : (s.setCrew c).nextUid = s.nextUid := rfl
@[simp] theorem State.setCrew_freeCtr (s : State) (c : Crew) : (s.setCrew c).freeCtr = s.freeCtr := rfl

/-! ### `setCohort` -/

@[simp] theorem State.setCohort_cycle (s : State) (c : Cohort) : (s.setCohort c).cycle = s.cycle := rfl
@[simp] theorem State.setCohort_now (s : State) (c : Cohort) : (s.setCohort c).now = s.now := rfl
@[simp] theorem State.setCohort_devid (s : State) (c : Cohort) : (s.setCohort c).devid = s.devid := rfl
@[simp] theorem State.setCohort_height (s : State) (c : Cohort) : (s.setCohort c).height = s.height := rfl
@[simp] theorem State.setCohort_mem (s : State) (c : Cohort) : (s.setCohort c).mem = s.mem := rfl
@[simp] theorem State.setCohort_hmem (s : State) (c : Cohort) : (s.setCohort c).hmem = s.hmem := rfl
@[simp] theorem State.setCohort_ctxs (s : State) (c : Cohort) : (s.setCohort c).ctxs = s.ctxs := rfl
@[simp] theorem State.setCohort_crews (s : State) (c : Cohort) : (s.setCohort c).crews = s.crews := rfl
@[simp] theorem State.setCohort_threads (s : State) (c : Cohort) : (s.setCohort c).threads = s.threads := rfl
@[simp] theorem State.setCohort_engines (s : State) (c : Cohort) : (s.setCohort c).engines = s.engines := rfl
@[simp] theorem State.setCohort_cores (s : State) (c : Cohort) : (s.setCohort c).cores = s.cores := rfl
@[simp] theorem State.setCohort_parts (s : State) (c : Cohort) : (s.setCohort c).parts = s.parts := rfl
@[simp] theorem State.setCohort_islands (s : State) (c : Cohort) : (s.setCohort c).islands = s.islands := rfl
@[simp] theorem State.setCohort_matNext (s : State) (c : Cohort) : (s.setCohort c).matNext = s.matNext := rfl
@[simp] theorem State.setCohort_updNext (s : State) (c : Cohort) : (s.setCohort c).updNext = s.updNext := rfl
@[simp] theorem State.setCohort_objUsed (s : State) (c : Cohort) : (s.setCohort c).objUsed = s.objUsed := rfl
@[simp] theorem State.setCohort_tlb (s : State) (c : Cohort) : (s.setCohort c).tlb = s.tlb := rfl
@[simp] theorem State.setCohort_fab (s : State) (c : Cohort) : (s.setCohort c).fab = s.fab := rfl
@[simp] theorem State.setCohort_fabOut (s : State) (c : Cohort) : (s.setCohort c).fabOut = s.fabOut := rfl
@[simp] theorem State.setCohort_hl (s : State) (c : Cohort) : (s.setCohort c).hl = s.hl := rfl
@[simp] theorem State.setCohort_hostOut (s : State) (c : Cohort) : (s.setCohort c).hostOut = s.hostOut := rfl
@[simp] theorem State.setCohort_msix (s : State) (c : Cohort) : (s.setCohort c).msix = s.msix := rfl
@[simp] theorem State.setCohort_memStacks (s : State) (c : Cohort) : (s.setCohort c).memStacks = s.memStacks := rfl
@[simp] theorem State.setCohort_agenda (s : State) (c : Cohort) : (s.setCohort c).agenda = s.agenda := rfl
@[simp] theorem State.setCohort_lates (s : State) (c : Cohort) : (s.setCohort c).lates = s.lates := rfl
@[simp] theorem State.setCohort_issuing (s : State) (c : Cohort) : (s.setCohort c).issuing = s.issuing := rfl
@[simp] theorem State.setCohort_pasts (s : State) (c : Cohort) : (s.setCohort c).pasts = s.pasts := rfl
@[simp] theorem State.setCohort_readPast (s : State) (c : Cohort) : (s.setCohort c).readPast = s.readPast := rfl
@[simp] theorem State.setCohort_looks (s : State) (c : Cohort) : (s.setCohort c).looks = s.looks := rfl
@[simp] theorem State.setCohort_owed (s : State) (c : Cohort) : (s.setCohort c).owed = s.owed := rfl
@[simp] theorem State.setCohort_early (s : State) (c : Cohort) : (s.setCohort c).early = s.early := rfl
@[simp] theorem State.setCohort_wrote (s : State) (c : Cohort) : (s.setCohort c).wrote = s.wrote := rfl
@[simp] theorem State.setCohort_bundle (s : State) (c : Cohort) : (s.setCohort c).bundle = s.bundle := rfl
@[simp] theorem State.setCohort_issuedNow (s : State) (c : Cohort) : (s.setCohort c).issuedNow = s.issuedNow := rfl
@[simp] theorem State.setCohort_admits (s : State) (c : Cohort) : (s.setCohort c).admits = s.admits := rfl
@[simp] theorem State.setCohort_orders (s : State) (c : Cohort) : (s.setCohort c).orders = s.orders := rfl
@[simp] theorem State.setCohort_seqCtx (s : State) (c : Cohort) : (s.setCohort c).seqCtx = s.seqCtx := rfl
@[simp] theorem State.setCohort_nextUid (s : State) (c : Cohort) : (s.setCohort c).nextUid = s.nextUid := rfl
@[simp] theorem State.setCohort_freeCtr (s : State) (c : Cohort) : (s.setCohort c).freeCtr = s.freeCtr := rfl

/-! ### `setCtx` -/

@[simp] theorem State.setCtx_cycle (s : State) (x : Ctx) : (s.setCtx x).cycle = s.cycle := rfl
@[simp] theorem State.setCtx_now (s : State) (x : Ctx) : (s.setCtx x).now = s.now := rfl
@[simp] theorem State.setCtx_devid (s : State) (x : Ctx) : (s.setCtx x).devid = s.devid := rfl
@[simp] theorem State.setCtx_height (s : State) (x : Ctx) : (s.setCtx x).height = s.height := rfl
@[simp] theorem State.setCtx_mem (s : State) (x : Ctx) : (s.setCtx x).mem = s.mem := rfl
@[simp] theorem State.setCtx_hmem (s : State) (x : Ctx) : (s.setCtx x).hmem = s.hmem := rfl
@[simp] theorem State.setCtx_cohorts (s : State) (x : Ctx) : (s.setCtx x).cohorts = s.cohorts := rfl
@[simp] theorem State.setCtx_crews (s : State) (x : Ctx) : (s.setCtx x).crews = s.crews := rfl
@[simp] theorem State.setCtx_threads (s : State) (x : Ctx) : (s.setCtx x).threads = s.threads := rfl
@[simp] theorem State.setCtx_engines (s : State) (x : Ctx) : (s.setCtx x).engines = s.engines := rfl
@[simp] theorem State.setCtx_cores (s : State) (x : Ctx) : (s.setCtx x).cores = s.cores := rfl
@[simp] theorem State.setCtx_parts (s : State) (x : Ctx) : (s.setCtx x).parts = s.parts := rfl
@[simp] theorem State.setCtx_islands (s : State) (x : Ctx) : (s.setCtx x).islands = s.islands := rfl
@[simp] theorem State.setCtx_matNext (s : State) (x : Ctx) : (s.setCtx x).matNext = s.matNext := rfl
@[simp] theorem State.setCtx_updNext (s : State) (x : Ctx) : (s.setCtx x).updNext = s.updNext := rfl
@[simp] theorem State.setCtx_objUsed (s : State) (x : Ctx) : (s.setCtx x).objUsed = s.objUsed := rfl
@[simp] theorem State.setCtx_tlb (s : State) (x : Ctx) : (s.setCtx x).tlb = s.tlb := rfl
@[simp] theorem State.setCtx_fab (s : State) (x : Ctx) : (s.setCtx x).fab = s.fab := rfl
@[simp] theorem State.setCtx_fabOut (s : State) (x : Ctx) : (s.setCtx x).fabOut = s.fabOut := rfl
@[simp] theorem State.setCtx_hl (s : State) (x : Ctx) : (s.setCtx x).hl = s.hl := rfl
@[simp] theorem State.setCtx_hostOut (s : State) (x : Ctx) : (s.setCtx x).hostOut = s.hostOut := rfl
@[simp] theorem State.setCtx_msix (s : State) (x : Ctx) : (s.setCtx x).msix = s.msix := rfl
@[simp] theorem State.setCtx_memStacks (s : State) (x : Ctx) : (s.setCtx x).memStacks = s.memStacks := rfl
@[simp] theorem State.setCtx_agenda (s : State) (x : Ctx) : (s.setCtx x).agenda = s.agenda := rfl
@[simp] theorem State.setCtx_lates (s : State) (x : Ctx) : (s.setCtx x).lates = s.lates := rfl
@[simp] theorem State.setCtx_issuing (s : State) (x : Ctx) : (s.setCtx x).issuing = s.issuing := rfl
@[simp] theorem State.setCtx_pasts (s : State) (x : Ctx) : (s.setCtx x).pasts = s.pasts := rfl
@[simp] theorem State.setCtx_readPast (s : State) (x : Ctx) : (s.setCtx x).readPast = s.readPast := rfl
@[simp] theorem State.setCtx_looks (s : State) (x : Ctx) : (s.setCtx x).looks = s.looks := rfl
@[simp] theorem State.setCtx_owed (s : State) (x : Ctx) : (s.setCtx x).owed = s.owed := rfl
@[simp] theorem State.setCtx_early (s : State) (x : Ctx) : (s.setCtx x).early = s.early := rfl
@[simp] theorem State.setCtx_wrote (s : State) (x : Ctx) : (s.setCtx x).wrote = s.wrote := rfl
@[simp] theorem State.setCtx_bundle (s : State) (x : Ctx) : (s.setCtx x).bundle = s.bundle := rfl
@[simp] theorem State.setCtx_issuedNow (s : State) (x : Ctx) : (s.setCtx x).issuedNow = s.issuedNow := rfl
@[simp] theorem State.setCtx_admits (s : State) (x : Ctx) : (s.setCtx x).admits = s.admits := rfl
@[simp] theorem State.setCtx_orders (s : State) (x : Ctx) : (s.setCtx x).orders = s.orders := rfl
@[simp] theorem State.setCtx_seqCtx (s : State) (x : Ctx) : (s.setCtx x).seqCtx = s.seqCtx := rfl
@[simp] theorem State.setCtx_nextUid (s : State) (x : Ctx) : (s.setCtx x).nextUid = s.nextUid := rfl
@[simp] theorem State.setCtx_freeCtr (s : State) (x : Ctx) : (s.setCtx x).freeCtr = s.freeCtr := rfl

/-! ### `setEngine` -/

@[simp] theorem State.setEngine_cycle (s : State) (e : Engine) : (s.setEngine e).cycle = s.cycle := rfl
@[simp] theorem State.setEngine_now (s : State) (e : Engine) : (s.setEngine e).now = s.now := rfl
@[simp] theorem State.setEngine_devid (s : State) (e : Engine) : (s.setEngine e).devid = s.devid := rfl
@[simp] theorem State.setEngine_height (s : State) (e : Engine) : (s.setEngine e).height = s.height := rfl
@[simp] theorem State.setEngine_mem (s : State) (e : Engine) : (s.setEngine e).mem = s.mem := rfl
@[simp] theorem State.setEngine_hmem (s : State) (e : Engine) : (s.setEngine e).hmem = s.hmem := rfl
@[simp] theorem State.setEngine_ctxs (s : State) (e : Engine) : (s.setEngine e).ctxs = s.ctxs := rfl
@[simp] theorem State.setEngine_cohorts (s : State) (e : Engine) : (s.setEngine e).cohorts = s.cohorts := rfl
@[simp] theorem State.setEngine_crews (s : State) (e : Engine) : (s.setEngine e).crews = s.crews := rfl
@[simp] theorem State.setEngine_threads (s : State) (e : Engine) : (s.setEngine e).threads = s.threads := rfl
@[simp] theorem State.setEngine_cores (s : State) (e : Engine) : (s.setEngine e).cores = s.cores := rfl
@[simp] theorem State.setEngine_parts (s : State) (e : Engine) : (s.setEngine e).parts = s.parts := rfl
@[simp] theorem State.setEngine_islands (s : State) (e : Engine) : (s.setEngine e).islands = s.islands := rfl
@[simp] theorem State.setEngine_matNext (s : State) (e : Engine) : (s.setEngine e).matNext = s.matNext := rfl
@[simp] theorem State.setEngine_updNext (s : State) (e : Engine) : (s.setEngine e).updNext = s.updNext := rfl
@[simp] theorem State.setEngine_objUsed (s : State) (e : Engine) : (s.setEngine e).objUsed = s.objUsed := rfl
@[simp] theorem State.setEngine_tlb (s : State) (e : Engine) : (s.setEngine e).tlb = s.tlb := rfl
@[simp] theorem State.setEngine_fab (s : State) (e : Engine) : (s.setEngine e).fab = s.fab := rfl
@[simp] theorem State.setEngine_fabOut (s : State) (e : Engine) : (s.setEngine e).fabOut = s.fabOut := rfl
@[simp] theorem State.setEngine_hl (s : State) (e : Engine) : (s.setEngine e).hl = s.hl := rfl
@[simp] theorem State.setEngine_hostOut (s : State) (e : Engine) : (s.setEngine e).hostOut = s.hostOut := rfl
@[simp] theorem State.setEngine_msix (s : State) (e : Engine) : (s.setEngine e).msix = s.msix := rfl
@[simp] theorem State.setEngine_memStacks (s : State) (e : Engine) : (s.setEngine e).memStacks = s.memStacks := rfl
@[simp] theorem State.setEngine_agenda (s : State) (e : Engine) : (s.setEngine e).agenda = s.agenda := rfl
@[simp] theorem State.setEngine_lates (s : State) (e : Engine) : (s.setEngine e).lates = s.lates := rfl
@[simp] theorem State.setEngine_issuing (s : State) (e : Engine) : (s.setEngine e).issuing = s.issuing := rfl
@[simp] theorem State.setEngine_pasts (s : State) (e : Engine) : (s.setEngine e).pasts = s.pasts := rfl
@[simp] theorem State.setEngine_readPast (s : State) (e : Engine) : (s.setEngine e).readPast = s.readPast := rfl
@[simp] theorem State.setEngine_looks (s : State) (e : Engine) : (s.setEngine e).looks = s.looks := rfl
@[simp] theorem State.setEngine_owed (s : State) (e : Engine) : (s.setEngine e).owed = s.owed := rfl
@[simp] theorem State.setEngine_early (s : State) (e : Engine) : (s.setEngine e).early = s.early := rfl
@[simp] theorem State.setEngine_wrote (s : State) (e : Engine) : (s.setEngine e).wrote = s.wrote := rfl
@[simp] theorem State.setEngine_bundle (s : State) (e : Engine) : (s.setEngine e).bundle = s.bundle := rfl
@[simp] theorem State.setEngine_issuedNow (s : State) (e : Engine) : (s.setEngine e).issuedNow = s.issuedNow := rfl
@[simp] theorem State.setEngine_admits (s : State) (e : Engine) : (s.setEngine e).admits = s.admits := rfl
@[simp] theorem State.setEngine_orders (s : State) (e : Engine) : (s.setEngine e).orders = s.orders := rfl
@[simp] theorem State.setEngine_seqCtx (s : State) (e : Engine) : (s.setEngine e).seqCtx = s.seqCtx := rfl
@[simp] theorem State.setEngine_nextUid (s : State) (e : Engine) : (s.setEngine e).nextUid = s.nextUid := rfl
@[simp] theorem State.setEngine_freeCtr (s : State) (e : Engine) : (s.setEngine e).freeCtr = s.freeCtr := rfl

/-! ### `modPart` -/

@[simp] theorem State.modPart_cycle (s : State) (p : Nat) (f : Part → Part) : (s.modPart p f).cycle = s.cycle := rfl
@[simp] theorem State.modPart_now (s : State) (p : Nat) (f : Part → Part) : (s.modPart p f).now = s.now := rfl
@[simp] theorem State.modPart_devid (s : State) (p : Nat) (f : Part → Part) : (s.modPart p f).devid = s.devid := rfl
@[simp] theorem State.modPart_height (s : State) (p : Nat) (f : Part → Part) : (s.modPart p f).height = s.height := rfl
@[simp] theorem State.modPart_mem (s : State) (p : Nat) (f : Part → Part) : (s.modPart p f).mem = s.mem := rfl
@[simp] theorem State.modPart_hmem (s : State) (p : Nat) (f : Part → Part) : (s.modPart p f).hmem = s.hmem := rfl
@[simp] theorem State.modPart_ctxs (s : State) (p : Nat) (f : Part → Part) : (s.modPart p f).ctxs = s.ctxs := rfl
@[simp] theorem State.modPart_cohorts (s : State) (p : Nat) (f : Part → Part) : (s.modPart p f).cohorts = s.cohorts := rfl
@[simp] theorem State.modPart_crews (s : State) (p : Nat) (f : Part → Part) : (s.modPart p f).crews = s.crews := rfl
@[simp] theorem State.modPart_threads (s : State) (p : Nat) (f : Part → Part) : (s.modPart p f).threads = s.threads := rfl
@[simp] theorem State.modPart_engines (s : State) (p : Nat) (f : Part → Part) : (s.modPart p f).engines = s.engines := rfl
@[simp] theorem State.modPart_cores (s : State) (p : Nat) (f : Part → Part) : (s.modPart p f).cores = s.cores := rfl
@[simp] theorem State.modPart_islands (s : State) (p : Nat) (f : Part → Part) : (s.modPart p f).islands = s.islands := rfl
@[simp] theorem State.modPart_matNext (s : State) (p : Nat) (f : Part → Part) : (s.modPart p f).matNext = s.matNext := rfl
@[simp] theorem State.modPart_updNext (s : State) (p : Nat) (f : Part → Part) : (s.modPart p f).updNext = s.updNext := rfl
@[simp] theorem State.modPart_objUsed (s : State) (p : Nat) (f : Part → Part) : (s.modPart p f).objUsed = s.objUsed := rfl
@[simp] theorem State.modPart_tlb (s : State) (p : Nat) (f : Part → Part) : (s.modPart p f).tlb = s.tlb := rfl
@[simp] theorem State.modPart_fab (s : State) (p : Nat) (f : Part → Part) : (s.modPart p f).fab = s.fab := rfl
@[simp] theorem State.modPart_fabOut (s : State) (p : Nat) (f : Part → Part) : (s.modPart p f).fabOut = s.fabOut := rfl
@[simp] theorem State.modPart_hl (s : State) (p : Nat) (f : Part → Part) : (s.modPart p f).hl = s.hl := rfl
@[simp] theorem State.modPart_hostOut (s : State) (p : Nat) (f : Part → Part) : (s.modPart p f).hostOut = s.hostOut := rfl
@[simp] theorem State.modPart_msix (s : State) (p : Nat) (f : Part → Part) : (s.modPart p f).msix = s.msix := rfl
@[simp] theorem State.modPart_memStacks (s : State) (p : Nat) (f : Part → Part) : (s.modPart p f).memStacks = s.memStacks := rfl
@[simp] theorem State.modPart_agenda (s : State) (p : Nat) (f : Part → Part) : (s.modPart p f).agenda = s.agenda := rfl
@[simp] theorem State.modPart_lates (s : State) (p : Nat) (f : Part → Part) : (s.modPart p f).lates = s.lates := rfl
@[simp] theorem State.modPart_issuing (s : State) (p : Nat) (f : Part → Part) : (s.modPart p f).issuing = s.issuing := rfl
@[simp] theorem State.modPart_pasts (s : State) (p : Nat) (f : Part → Part) : (s.modPart p f).pasts = s.pasts := rfl
@[simp] theorem State.modPart_readPast (s : State) (p : Nat) (f : Part → Part) : (s.modPart p f).readPast = s.readPast := rfl
@[simp] theorem State.modPart_looks (s : State) (p : Nat) (f : Part → Part) : (s.modPart p f).looks = s.looks := rfl
@[simp] theorem State.modPart_owed (s : State) (p : Nat) (f : Part → Part) : (s.modPart p f).owed = s.owed := rfl
@[simp] theorem State.modPart_early (s : State) (p : Nat) (f : Part → Part) : (s.modPart p f).early = s.early := rfl
@[simp] theorem State.modPart_wrote (s : State) (p : Nat) (f : Part → Part) : (s.modPart p f).wrote = s.wrote := rfl
@[simp] theorem State.modPart_bundle (s : State) (p : Nat) (f : Part → Part) : (s.modPart p f).bundle = s.bundle := rfl
@[simp] theorem State.modPart_issuedNow (s : State) (p : Nat) (f : Part → Part) : (s.modPart p f).issuedNow = s.issuedNow := rfl
@[simp] theorem State.modPart_admits (s : State) (p : Nat) (f : Part → Part) : (s.modPart p f).admits = s.admits := rfl
@[simp] theorem State.modPart_orders (s : State) (p : Nat) (f : Part → Part) : (s.modPart p f).orders = s.orders := rfl
@[simp] theorem State.modPart_seqCtx (s : State) (p : Nat) (f : Part → Part) : (s.modPart p f).seqCtx = s.seqCtx := rfl
@[simp] theorem State.modPart_nextUid (s : State) (p : Nat) (f : Part → Part) : (s.modPart p f).nextUid = s.nextUid := rfl
@[simp] theorem State.modPart_freeCtr (s : State) (p : Nat) (f : Part → Part) : (s.modPart p f).freeCtr = s.freeCtr := rfl

/-! ### `sendMsix` -/

@[simp] theorem State.sendMsix_cycle (s : State) (v : Nat) : (s.sendMsix v).cycle = s.cycle := rfl
@[simp] theorem State.sendMsix_now (s : State) (v : Nat) : (s.sendMsix v).now = s.now := rfl
@[simp] theorem State.sendMsix_devid (s : State) (v : Nat) : (s.sendMsix v).devid = s.devid := rfl
@[simp] theorem State.sendMsix_height (s : State) (v : Nat) : (s.sendMsix v).height = s.height := rfl
@[simp] theorem State.sendMsix_mem (s : State) (v : Nat) : (s.sendMsix v).mem = s.mem := rfl
@[simp] theorem State.sendMsix_hmem (s : State) (v : Nat) : (s.sendMsix v).hmem = s.hmem := rfl
@[simp] theorem State.sendMsix_ctxs (s : State) (v : Nat) : (s.sendMsix v).ctxs = s.ctxs := rfl
@[simp] theorem State.sendMsix_cohorts (s : State) (v : Nat) : (s.sendMsix v).cohorts = s.cohorts := rfl
@[simp] theorem State.sendMsix_crews (s : State) (v : Nat) : (s.sendMsix v).crews = s.crews := rfl
@[simp] theorem State.sendMsix_threads (s : State) (v : Nat) : (s.sendMsix v).threads = s.threads := rfl
@[simp] theorem State.sendMsix_engines (s : State) (v : Nat) : (s.sendMsix v).engines = s.engines := rfl
@[simp] theorem State.sendMsix_cores (s : State) (v : Nat) : (s.sendMsix v).cores = s.cores := rfl
@[simp] theorem State.sendMsix_parts (s : State) (v : Nat) : (s.sendMsix v).parts = s.parts := rfl
@[simp] theorem State.sendMsix_islands (s : State) (v : Nat) : (s.sendMsix v).islands = s.islands := rfl
@[simp] theorem State.sendMsix_matNext (s : State) (v : Nat) : (s.sendMsix v).matNext = s.matNext := rfl
@[simp] theorem State.sendMsix_updNext (s : State) (v : Nat) : (s.sendMsix v).updNext = s.updNext := rfl
@[simp] theorem State.sendMsix_objUsed (s : State) (v : Nat) : (s.sendMsix v).objUsed = s.objUsed := rfl
@[simp] theorem State.sendMsix_tlb (s : State) (v : Nat) : (s.sendMsix v).tlb = s.tlb := rfl
@[simp] theorem State.sendMsix_fab (s : State) (v : Nat) : (s.sendMsix v).fab = s.fab := rfl
@[simp] theorem State.sendMsix_fabOut (s : State) (v : Nat) : (s.sendMsix v).fabOut = s.fabOut := rfl
@[simp] theorem State.sendMsix_hl (s : State) (v : Nat) : (s.sendMsix v).hl = s.hl := rfl
@[simp] theorem State.sendMsix_hostOut (s : State) (v : Nat) : (s.sendMsix v).hostOut = s.hostOut := rfl
@[simp] theorem State.sendMsix_memStacks (s : State) (v : Nat) : (s.sendMsix v).memStacks = s.memStacks := rfl
@[simp] theorem State.sendMsix_agenda (s : State) (v : Nat) : (s.sendMsix v).agenda = s.agenda := rfl
@[simp] theorem State.sendMsix_lates (s : State) (v : Nat) : (s.sendMsix v).lates = s.lates := rfl
@[simp] theorem State.sendMsix_issuing (s : State) (v : Nat) : (s.sendMsix v).issuing = s.issuing := rfl
@[simp] theorem State.sendMsix_pasts (s : State) (v : Nat) : (s.sendMsix v).pasts = s.pasts := rfl
@[simp] theorem State.sendMsix_readPast (s : State) (v : Nat) : (s.sendMsix v).readPast = s.readPast := rfl
@[simp] theorem State.sendMsix_looks (s : State) (v : Nat) : (s.sendMsix v).looks = s.looks := rfl
@[simp] theorem State.sendMsix_owed (s : State) (v : Nat) : (s.sendMsix v).owed = s.owed := rfl
@[simp] theorem State.sendMsix_early (s : State) (v : Nat) : (s.sendMsix v).early = s.early := rfl
@[simp] theorem State.sendMsix_wrote (s : State) (v : Nat) : (s.sendMsix v).wrote = s.wrote := rfl
@[simp] theorem State.sendMsix_bundle (s : State) (v : Nat) : (s.sendMsix v).bundle = s.bundle := rfl
@[simp] theorem State.sendMsix_issuedNow (s : State) (v : Nat) : (s.sendMsix v).issuedNow = s.issuedNow := rfl
@[simp] theorem State.sendMsix_admits (s : State) (v : Nat) : (s.sendMsix v).admits = s.admits := rfl
@[simp] theorem State.sendMsix_orders (s : State) (v : Nat) : (s.sendMsix v).orders = s.orders := rfl
@[simp] theorem State.sendMsix_seqCtx (s : State) (v : Nat) : (s.sendMsix v).seqCtx = s.seqCtx := rfl
@[simp] theorem State.sendMsix_nextUid (s : State) (v : Nat) : (s.sendMsix v).nextUid = s.nextUid := rfl
@[simp] theorem State.sendMsix_freeCtr (s : State) (v : Nat) : (s.sendMsix v).freeCtr = s.freeCtr := rfl

/-! ### `toHost` -/

@[simp] theorem State.toHost_cycle (s : State) (m : HostMsg) : (s.toHost m).cycle = s.cycle := rfl
@[simp] theorem State.toHost_now (s : State) (m : HostMsg) : (s.toHost m).now = s.now := rfl
@[simp] theorem State.toHost_devid (s : State) (m : HostMsg) : (s.toHost m).devid = s.devid := rfl
@[simp] theorem State.toHost_height (s : State) (m : HostMsg) : (s.toHost m).height = s.height := rfl
@[simp] theorem State.toHost_mem (s : State) (m : HostMsg) : (s.toHost m).mem = s.mem := rfl
@[simp] theorem State.toHost_hmem (s : State) (m : HostMsg) : (s.toHost m).hmem = s.hmem := rfl
@[simp] theorem State.toHost_ctxs (s : State) (m : HostMsg) : (s.toHost m).ctxs = s.ctxs := rfl
@[simp] theorem State.toHost_cohorts (s : State) (m : HostMsg) : (s.toHost m).cohorts = s.cohorts := rfl
@[simp] theorem State.toHost_crews (s : State) (m : HostMsg) : (s.toHost m).crews = s.crews := rfl
@[simp] theorem State.toHost_threads (s : State) (m : HostMsg) : (s.toHost m).threads = s.threads := rfl
@[simp] theorem State.toHost_engines (s : State) (m : HostMsg) : (s.toHost m).engines = s.engines := rfl
@[simp] theorem State.toHost_cores (s : State) (m : HostMsg) : (s.toHost m).cores = s.cores := rfl
@[simp] theorem State.toHost_parts (s : State) (m : HostMsg) : (s.toHost m).parts = s.parts := rfl
@[simp] theorem State.toHost_islands (s : State) (m : HostMsg) : (s.toHost m).islands = s.islands := rfl
@[simp] theorem State.toHost_matNext (s : State) (m : HostMsg) : (s.toHost m).matNext = s.matNext := rfl
@[simp] theorem State.toHost_updNext (s : State) (m : HostMsg) : (s.toHost m).updNext = s.updNext := rfl
@[simp] theorem State.toHost_objUsed (s : State) (m : HostMsg) : (s.toHost m).objUsed = s.objUsed := rfl
@[simp] theorem State.toHost_tlb (s : State) (m : HostMsg) : (s.toHost m).tlb = s.tlb := rfl
@[simp] theorem State.toHost_fab (s : State) (m : HostMsg) : (s.toHost m).fab = s.fab := rfl
@[simp] theorem State.toHost_fabOut (s : State) (m : HostMsg) : (s.toHost m).fabOut = s.fabOut := rfl
@[simp] theorem State.toHost_hl (s : State) (m : HostMsg) : (s.toHost m).hl = s.hl := rfl
@[simp] theorem State.toHost_msix (s : State) (m : HostMsg) : (s.toHost m).msix = s.msix := rfl
@[simp] theorem State.toHost_memStacks (s : State) (m : HostMsg) : (s.toHost m).memStacks = s.memStacks := rfl
@[simp] theorem State.toHost_agenda (s : State) (m : HostMsg) : (s.toHost m).agenda = s.agenda := rfl
@[simp] theorem State.toHost_lates (s : State) (m : HostMsg) : (s.toHost m).lates = s.lates := rfl
@[simp] theorem State.toHost_issuing (s : State) (m : HostMsg) : (s.toHost m).issuing = s.issuing := rfl
@[simp] theorem State.toHost_pasts (s : State) (m : HostMsg) : (s.toHost m).pasts = s.pasts := rfl
@[simp] theorem State.toHost_readPast (s : State) (m : HostMsg) : (s.toHost m).readPast = s.readPast := rfl
@[simp] theorem State.toHost_looks (s : State) (m : HostMsg) : (s.toHost m).looks = s.looks := rfl
@[simp] theorem State.toHost_owed (s : State) (m : HostMsg) : (s.toHost m).owed = s.owed := rfl
@[simp] theorem State.toHost_early (s : State) (m : HostMsg) : (s.toHost m).early = s.early := rfl
@[simp] theorem State.toHost_wrote (s : State) (m : HostMsg) : (s.toHost m).wrote = s.wrote := rfl
@[simp] theorem State.toHost_bundle (s : State) (m : HostMsg) : (s.toHost m).bundle = s.bundle := rfl
@[simp] theorem State.toHost_issuedNow (s : State) (m : HostMsg) : (s.toHost m).issuedNow = s.issuedNow := rfl
@[simp] theorem State.toHost_admits (s : State) (m : HostMsg) : (s.toHost m).admits = s.admits := rfl
@[simp] theorem State.toHost_orders (s : State) (m : HostMsg) : (s.toHost m).orders = s.orders := rfl
@[simp] theorem State.toHost_seqCtx (s : State) (m : HostMsg) : (s.toHost m).seqCtx = s.seqCtx := rfl
@[simp] theorem State.toHost_nextUid (s : State) (m : HostMsg) : (s.toHost m).nextUid = s.nextUid := rfl
@[simp] theorem State.toHost_freeCtr (s : State) (m : HostMsg) : (s.toHost m).freeCtr = s.freeCtr := rfl

/-! ### `toFabric` -/

@[simp] theorem State.toFabric_cycle (s : State) (m : FabOut) : (s.toFabric m).cycle = s.cycle := rfl
@[simp] theorem State.toFabric_now (s : State) (m : FabOut) : (s.toFabric m).now = s.now := rfl
@[simp] theorem State.toFabric_devid (s : State) (m : FabOut) : (s.toFabric m).devid = s.devid := rfl
@[simp] theorem State.toFabric_height (s : State) (m : FabOut) : (s.toFabric m).height = s.height := rfl
@[simp] theorem State.toFabric_mem (s : State) (m : FabOut) : (s.toFabric m).mem = s.mem := rfl
@[simp] theorem State.toFabric_hmem (s : State) (m : FabOut) : (s.toFabric m).hmem = s.hmem := rfl
@[simp] theorem State.toFabric_ctxs (s : State) (m : FabOut) : (s.toFabric m).ctxs = s.ctxs := rfl
@[simp] theorem State.toFabric_cohorts (s : State) (m : FabOut) : (s.toFabric m).cohorts = s.cohorts := rfl
@[simp] theorem State.toFabric_crews (s : State) (m : FabOut) : (s.toFabric m).crews = s.crews := rfl
@[simp] theorem State.toFabric_threads (s : State) (m : FabOut) : (s.toFabric m).threads = s.threads := rfl
@[simp] theorem State.toFabric_engines (s : State) (m : FabOut) : (s.toFabric m).engines = s.engines := rfl
@[simp] theorem State.toFabric_cores (s : State) (m : FabOut) : (s.toFabric m).cores = s.cores := rfl
@[simp] theorem State.toFabric_parts (s : State) (m : FabOut) : (s.toFabric m).parts = s.parts := rfl
@[simp] theorem State.toFabric_islands (s : State) (m : FabOut) : (s.toFabric m).islands = s.islands := rfl
@[simp] theorem State.toFabric_matNext (s : State) (m : FabOut) : (s.toFabric m).matNext = s.matNext := rfl
@[simp] theorem State.toFabric_updNext (s : State) (m : FabOut) : (s.toFabric m).updNext = s.updNext := rfl
@[simp] theorem State.toFabric_objUsed (s : State) (m : FabOut) : (s.toFabric m).objUsed = s.objUsed := rfl
@[simp] theorem State.toFabric_tlb (s : State) (m : FabOut) : (s.toFabric m).tlb = s.tlb := rfl
@[simp] theorem State.toFabric_fab (s : State) (m : FabOut) : (s.toFabric m).fab = s.fab := rfl
@[simp] theorem State.toFabric_hl (s : State) (m : FabOut) : (s.toFabric m).hl = s.hl := rfl
@[simp] theorem State.toFabric_hostOut (s : State) (m : FabOut) : (s.toFabric m).hostOut = s.hostOut := rfl
@[simp] theorem State.toFabric_msix (s : State) (m : FabOut) : (s.toFabric m).msix = s.msix := rfl
@[simp] theorem State.toFabric_memStacks (s : State) (m : FabOut) : (s.toFabric m).memStacks = s.memStacks := rfl
@[simp] theorem State.toFabric_agenda (s : State) (m : FabOut) : (s.toFabric m).agenda = s.agenda := rfl
@[simp] theorem State.toFabric_lates (s : State) (m : FabOut) : (s.toFabric m).lates = s.lates := rfl
@[simp] theorem State.toFabric_issuing (s : State) (m : FabOut) : (s.toFabric m).issuing = s.issuing := rfl
@[simp] theorem State.toFabric_pasts (s : State) (m : FabOut) : (s.toFabric m).pasts = s.pasts := rfl
@[simp] theorem State.toFabric_readPast (s : State) (m : FabOut) : (s.toFabric m).readPast = s.readPast := rfl
@[simp] theorem State.toFabric_looks (s : State) (m : FabOut) : (s.toFabric m).looks = s.looks := rfl
@[simp] theorem State.toFabric_owed (s : State) (m : FabOut) : (s.toFabric m).owed = s.owed := rfl
@[simp] theorem State.toFabric_early (s : State) (m : FabOut) : (s.toFabric m).early = s.early := rfl
@[simp] theorem State.toFabric_wrote (s : State) (m : FabOut) : (s.toFabric m).wrote = s.wrote := rfl
@[simp] theorem State.toFabric_bundle (s : State) (m : FabOut) : (s.toFabric m).bundle = s.bundle := rfl
@[simp] theorem State.toFabric_issuedNow (s : State) (m : FabOut) : (s.toFabric m).issuedNow = s.issuedNow := rfl
@[simp] theorem State.toFabric_admits (s : State) (m : FabOut) : (s.toFabric m).admits = s.admits := rfl
@[simp] theorem State.toFabric_orders (s : State) (m : FabOut) : (s.toFabric m).orders = s.orders := rfl
@[simp] theorem State.toFabric_seqCtx (s : State) (m : FabOut) : (s.toFabric m).seqCtx = s.seqCtx := rfl
@[simp] theorem State.toFabric_nextUid (s : State) (m : FabOut) : (s.toFabric m).nextUid = s.nextUid := rfl
@[simp] theorem State.toFabric_freeCtr (s : State) (m : FabOut) : (s.toFabric m).freeCtr = s.freeCtr := rfl

/-! ### `done` -/

@[simp] theorem State.done_cycle (s : State) : (s.done).cycle = s.cycle := rfl
@[simp] theorem State.done_now (s : State) : (s.done).now = s.now := rfl
@[simp] theorem State.done_devid (s : State) : (s.done).devid = s.devid := rfl
@[simp] theorem State.done_height (s : State) : (s.done).height = s.height := rfl
@[simp] theorem State.done_mem (s : State) : (s.done).mem = s.mem := rfl
@[simp] theorem State.done_hmem (s : State) : (s.done).hmem = s.hmem := rfl
@[simp] theorem State.done_ctxs (s : State) : (s.done).ctxs = s.ctxs := rfl
@[simp] theorem State.done_cohorts (s : State) : (s.done).cohorts = s.cohorts := rfl
@[simp] theorem State.done_crews (s : State) : (s.done).crews = s.crews := rfl
@[simp] theorem State.done_threads (s : State) : (s.done).threads = s.threads := rfl
@[simp] theorem State.done_engines (s : State) : (s.done).engines = s.engines := rfl
@[simp] theorem State.done_cores (s : State) : (s.done).cores = s.cores := rfl
@[simp] theorem State.done_parts (s : State) : (s.done).parts = s.parts := rfl
@[simp] theorem State.done_islands (s : State) : (s.done).islands = s.islands := rfl
@[simp] theorem State.done_matNext (s : State) : (s.done).matNext = s.matNext := rfl
@[simp] theorem State.done_updNext (s : State) : (s.done).updNext = s.updNext := rfl
@[simp] theorem State.done_objUsed (s : State) : (s.done).objUsed = s.objUsed := rfl
@[simp] theorem State.done_tlb (s : State) : (s.done).tlb = s.tlb := rfl
@[simp] theorem State.done_fab (s : State) : (s.done).fab = s.fab := rfl
@[simp] theorem State.done_fabOut (s : State) : (s.done).fabOut = s.fabOut := rfl
@[simp] theorem State.done_hl (s : State) : (s.done).hl = s.hl := rfl
@[simp] theorem State.done_hostOut (s : State) : (s.done).hostOut = s.hostOut := rfl
@[simp] theorem State.done_msix (s : State) : (s.done).msix = s.msix := rfl
@[simp] theorem State.done_memStacks (s : State) : (s.done).memStacks = s.memStacks := rfl
@[simp] theorem State.done_agenda (s : State) : (s.done).agenda = s.agenda := rfl
@[simp] theorem State.done_lates (s : State) : (s.done).lates = s.lates := rfl
@[simp] theorem State.done_issuing (s : State) : (s.done).issuing = s.issuing := rfl
@[simp] theorem State.done_pasts (s : State) : (s.done).pasts = s.pasts := rfl
@[simp] theorem State.done_readPast (s : State) : (s.done).readPast = s.readPast := rfl
@[simp] theorem State.done_owed (s : State) : (s.done).owed = s.owed := rfl
@[simp] theorem State.done_early (s : State) : (s.done).early = s.early := rfl
@[simp] theorem State.done_wrote (s : State) : (s.done).wrote = s.wrote := rfl
@[simp] theorem State.done_issuedNow (s : State) : (s.done).issuedNow = s.issuedNow := rfl
@[simp] theorem State.done_admits (s : State) : (s.done).admits = s.admits := rfl
@[simp] theorem State.done_orders (s : State) : (s.done).orders = s.orders := rfl
@[simp] theorem State.done_seqCtx (s : State) : (s.done).seqCtx = s.seqCtx := rfl
@[simp] theorem State.done_nextUid (s : State) : (s.done).nextUid = s.nextUid := rfl
@[simp] theorem State.done_freeCtr (s : State) : (s.done).freeCtr = s.freeCtr := rfl

/-! ### `issueF` -/

@[simp] theorem State.issueF_cycle (s : State) (t : Thread) (n : Nat) (p : Pend) : (s.issueF t n p).cycle = s.cycle := rfl
@[simp] theorem State.issueF_now (s : State) (t : Thread) (n : Nat) (p : Pend) : (s.issueF t n p).now = s.now := rfl
@[simp] theorem State.issueF_devid (s : State) (t : Thread) (n : Nat) (p : Pend) : (s.issueF t n p).devid = s.devid := rfl
@[simp] theorem State.issueF_height (s : State) (t : Thread) (n : Nat) (p : Pend) : (s.issueF t n p).height = s.height := rfl
@[simp] theorem State.issueF_mem (s : State) (t : Thread) (n : Nat) (p : Pend) : (s.issueF t n p).mem = s.mem := rfl
@[simp] theorem State.issueF_hmem (s : State) (t : Thread) (n : Nat) (p : Pend) : (s.issueF t n p).hmem = s.hmem := rfl
@[simp] theorem State.issueF_ctxs (s : State) (t : Thread) (n : Nat) (p : Pend) : (s.issueF t n p).ctxs = s.ctxs := rfl
@[simp] theorem State.issueF_cohorts (s : State) (t : Thread) (n : Nat) (p : Pend) : (s.issueF t n p).cohorts = s.cohorts := rfl
@[simp] theorem State.issueF_crews (s : State) (t : Thread) (n : Nat) (p : Pend) : (s.issueF t n p).crews = s.crews := rfl
@[simp] theorem State.issueF_engines (s : State) (t : Thread) (n : Nat) (p : Pend) : (s.issueF t n p).engines = s.engines := rfl
@[simp] theorem State.issueF_cores (s : State) (t : Thread) (n : Nat) (p : Pend) : (s.issueF t n p).cores = s.cores := rfl
@[simp] theorem State.issueF_parts (s : State) (t : Thread) (n : Nat) (p : Pend) : (s.issueF t n p).parts = s.parts := rfl
@[simp] theorem State.issueF_islands (s : State) (t : Thread) (n : Nat) (p : Pend) : (s.issueF t n p).islands = s.islands := rfl
@[simp] theorem State.issueF_matNext (s : State) (t : Thread) (n : Nat) (p : Pend) : (s.issueF t n p).matNext = s.matNext := rfl
@[simp] theorem State.issueF_updNext (s : State) (t : Thread) (n : Nat) (p : Pend) : (s.issueF t n p).updNext = s.updNext := rfl
@[simp] theorem State.issueF_objUsed (s : State) (t : Thread) (n : Nat) (p : Pend) : (s.issueF t n p).objUsed = s.objUsed := rfl
@[simp] theorem State.issueF_tlb (s : State) (t : Thread) (n : Nat) (p : Pend) : (s.issueF t n p).tlb = s.tlb := rfl
@[simp] theorem State.issueF_fab (s : State) (t : Thread) (n : Nat) (p : Pend) : (s.issueF t n p).fab = s.fab := rfl
@[simp] theorem State.issueF_fabOut (s : State) (t : Thread) (n : Nat) (p : Pend) : (s.issueF t n p).fabOut = s.fabOut := rfl
@[simp] theorem State.issueF_hl (s : State) (t : Thread) (n : Nat) (p : Pend) : (s.issueF t n p).hl = s.hl := rfl
@[simp] theorem State.issueF_hostOut (s : State) (t : Thread) (n : Nat) (p : Pend) : (s.issueF t n p).hostOut = s.hostOut := rfl
@[simp] theorem State.issueF_msix (s : State) (t : Thread) (n : Nat) (p : Pend) : (s.issueF t n p).msix = s.msix := rfl
@[simp] theorem State.issueF_memStacks (s : State) (t : Thread) (n : Nat) (p : Pend) : (s.issueF t n p).memStacks = s.memStacks := rfl
@[simp] theorem State.issueF_agenda (s : State) (t : Thread) (n : Nat) (p : Pend) : (s.issueF t n p).agenda = s.agenda := rfl
@[simp] theorem State.issueF_lates (s : State) (t : Thread) (n : Nat) (p : Pend) : (s.issueF t n p).lates = s.lates := rfl
@[simp] theorem State.issueF_issuing (s : State) (t : Thread) (n : Nat) (p : Pend) : (s.issueF t n p).issuing = s.issuing := rfl
@[simp] theorem State.issueF_pasts (s : State) (t : Thread) (n : Nat) (p : Pend) : (s.issueF t n p).pasts = s.pasts := rfl
@[simp] theorem State.issueF_readPast (s : State) (t : Thread) (n : Nat) (p : Pend) : (s.issueF t n p).readPast = s.readPast := rfl
@[simp] theorem State.issueF_looks (s : State) (t : Thread) (n : Nat) (p : Pend) : (s.issueF t n p).looks = s.looks := rfl
@[simp] theorem State.issueF_owed (s : State) (t : Thread) (n : Nat) (p : Pend) : (s.issueF t n p).owed = s.owed := rfl
@[simp] theorem State.issueF_early (s : State) (t : Thread) (n : Nat) (p : Pend) : (s.issueF t n p).early = s.early := rfl
@[simp] theorem State.issueF_wrote (s : State) (t : Thread) (n : Nat) (p : Pend) : (s.issueF t n p).wrote = s.wrote := rfl
@[simp] theorem State.issueF_bundle (s : State) (t : Thread) (n : Nat) (p : Pend) : (s.issueF t n p).bundle = s.bundle := rfl
@[simp] theorem State.issueF_issuedNow (s : State) (t : Thread) (n : Nat) (p : Pend) : (s.issueF t n p).issuedNow = s.issuedNow := rfl
@[simp] theorem State.issueF_admits (s : State) (t : Thread) (n : Nat) (p : Pend) : (s.issueF t n p).admits = s.admits := rfl
@[simp] theorem State.issueF_orders (s : State) (t : Thread) (n : Nat) (p : Pend) : (s.issueF t n p).orders = s.orders := rfl
@[simp] theorem State.issueF_seqCtx (s : State) (t : Thread) (n : Nat) (p : Pend) : (s.issueF t n p).seqCtx = s.seqCtx := rfl
@[simp] theorem State.issueF_nextUid (s : State) (t : Thread) (n : Nat) (p : Pend) : (s.issueF t n p).nextUid = s.nextUid := rfl
@[simp] theorem State.issueF_freeCtr (s : State) (t : Thread) (n : Nat) (p : Pend) : (s.issueF t n p).freeCtr = s.freeCtr := rfl

/-! ### `issueL` -/

@[simp] theorem State.issueL_cycle (s : State) (t : Thread) (o : LOp) : (s.issueL t o).cycle = s.cycle := rfl
@[simp] theorem State.issueL_now (s : State) (t : Thread) (o : LOp) : (s.issueL t o).now = s.now := rfl
@[simp] theorem State.issueL_devid (s : State) (t : Thread) (o : LOp) : (s.issueL t o).devid = s.devid := rfl
@[simp] theorem State.issueL_height (s : State) (t : Thread) (o : LOp) : (s.issueL t o).height = s.height := rfl
@[simp] theorem State.issueL_mem (s : State) (t : Thread) (o : LOp) : (s.issueL t o).mem = s.mem := rfl
@[simp] theorem State.issueL_hmem (s : State) (t : Thread) (o : LOp) : (s.issueL t o).hmem = s.hmem := rfl
@[simp] theorem State.issueL_ctxs (s : State) (t : Thread) (o : LOp) : (s.issueL t o).ctxs = s.ctxs := rfl
@[simp] theorem State.issueL_cohorts (s : State) (t : Thread) (o : LOp) : (s.issueL t o).cohorts = s.cohorts := rfl
@[simp] theorem State.issueL_crews (s : State) (t : Thread) (o : LOp) : (s.issueL t o).crews = s.crews := rfl
@[simp] theorem State.issueL_engines (s : State) (t : Thread) (o : LOp) : (s.issueL t o).engines = s.engines := rfl
@[simp] theorem State.issueL_cores (s : State) (t : Thread) (o : LOp) : (s.issueL t o).cores = s.cores := rfl
@[simp] theorem State.issueL_parts (s : State) (t : Thread) (o : LOp) : (s.issueL t o).parts = s.parts := rfl
@[simp] theorem State.issueL_islands (s : State) (t : Thread) (o : LOp) : (s.issueL t o).islands = s.islands := rfl
@[simp] theorem State.issueL_matNext (s : State) (t : Thread) (o : LOp) : (s.issueL t o).matNext = s.matNext := rfl
@[simp] theorem State.issueL_updNext (s : State) (t : Thread) (o : LOp) : (s.issueL t o).updNext = s.updNext := rfl
@[simp] theorem State.issueL_objUsed (s : State) (t : Thread) (o : LOp) : (s.issueL t o).objUsed = s.objUsed := rfl
@[simp] theorem State.issueL_tlb (s : State) (t : Thread) (o : LOp) : (s.issueL t o).tlb = s.tlb := rfl
@[simp] theorem State.issueL_fab (s : State) (t : Thread) (o : LOp) : (s.issueL t o).fab = s.fab := rfl
@[simp] theorem State.issueL_fabOut (s : State) (t : Thread) (o : LOp) : (s.issueL t o).fabOut = s.fabOut := rfl
@[simp] theorem State.issueL_hl (s : State) (t : Thread) (o : LOp) : (s.issueL t o).hl = s.hl := rfl
@[simp] theorem State.issueL_hostOut (s : State) (t : Thread) (o : LOp) : (s.issueL t o).hostOut = s.hostOut := rfl
@[simp] theorem State.issueL_msix (s : State) (t : Thread) (o : LOp) : (s.issueL t o).msix = s.msix := rfl
@[simp] theorem State.issueL_memStacks (s : State) (t : Thread) (o : LOp) : (s.issueL t o).memStacks = s.memStacks := rfl
@[simp] theorem State.issueL_agenda (s : State) (t : Thread) (o : LOp) : (s.issueL t o).agenda = s.agenda := rfl
@[simp] theorem State.issueL_lates (s : State) (t : Thread) (o : LOp) : (s.issueL t o).lates = s.lates := rfl
@[simp] theorem State.issueL_issuing (s : State) (t : Thread) (o : LOp) : (s.issueL t o).issuing = s.issuing := rfl
@[simp] theorem State.issueL_pasts (s : State) (t : Thread) (o : LOp) : (s.issueL t o).pasts = s.pasts := rfl
@[simp] theorem State.issueL_readPast (s : State) (t : Thread) (o : LOp) : (s.issueL t o).readPast = s.readPast := rfl
@[simp] theorem State.issueL_looks (s : State) (t : Thread) (o : LOp) : (s.issueL t o).looks = s.looks := rfl
@[simp] theorem State.issueL_owed (s : State) (t : Thread) (o : LOp) : (s.issueL t o).owed = s.owed := rfl
@[simp] theorem State.issueL_early (s : State) (t : Thread) (o : LOp) : (s.issueL t o).early = s.early := rfl
@[simp] theorem State.issueL_wrote (s : State) (t : Thread) (o : LOp) : (s.issueL t o).wrote = s.wrote := rfl
@[simp] theorem State.issueL_bundle (s : State) (t : Thread) (o : LOp) : (s.issueL t o).bundle = s.bundle := rfl
@[simp] theorem State.issueL_issuedNow (s : State) (t : Thread) (o : LOp) : (s.issueL t o).issuedNow = s.issuedNow := rfl
@[simp] theorem State.issueL_admits (s : State) (t : Thread) (o : LOp) : (s.issueL t o).admits = s.admits := rfl
@[simp] theorem State.issueL_orders (s : State) (t : Thread) (o : LOp) : (s.issueL t o).orders = s.orders := rfl
@[simp] theorem State.issueL_seqCtx (s : State) (t : Thread) (o : LOp) : (s.issueL t o).seqCtx = s.seqCtx := rfl
@[simp] theorem State.issueL_nextUid (s : State) (t : Thread) (o : LOp) : (s.issueL t o).nextUid = s.nextUid := rfl
@[simp] theorem State.issueL_freeCtr (s : State) (t : Thread) (o : LOp) : (s.issueL t o).freeCtr = s.freeCtr := rfl

/-! ### `issueH` -/

@[simp] theorem State.issueH_cycle (s : State) (t : Thread) (h : Hold) : (s.issueH t h).cycle = s.cycle := rfl
@[simp] theorem State.issueH_now (s : State) (t : Thread) (h : Hold) : (s.issueH t h).now = s.now := rfl
@[simp] theorem State.issueH_devid (s : State) (t : Thread) (h : Hold) : (s.issueH t h).devid = s.devid := rfl
@[simp] theorem State.issueH_height (s : State) (t : Thread) (h : Hold) : (s.issueH t h).height = s.height := rfl
@[simp] theorem State.issueH_mem (s : State) (t : Thread) (h : Hold) : (s.issueH t h).mem = s.mem := rfl
@[simp] theorem State.issueH_hmem (s : State) (t : Thread) (h : Hold) : (s.issueH t h).hmem = s.hmem := rfl
@[simp] theorem State.issueH_ctxs (s : State) (t : Thread) (h : Hold) : (s.issueH t h).ctxs = s.ctxs := rfl
@[simp] theorem State.issueH_cohorts (s : State) (t : Thread) (h : Hold) : (s.issueH t h).cohorts = s.cohorts := rfl
@[simp] theorem State.issueH_crews (s : State) (t : Thread) (h : Hold) : (s.issueH t h).crews = s.crews := rfl
@[simp] theorem State.issueH_engines (s : State) (t : Thread) (h : Hold) : (s.issueH t h).engines = s.engines := rfl
@[simp] theorem State.issueH_cores (s : State) (t : Thread) (h : Hold) : (s.issueH t h).cores = s.cores := rfl
@[simp] theorem State.issueH_parts (s : State) (t : Thread) (h : Hold) : (s.issueH t h).parts = s.parts := rfl
@[simp] theorem State.issueH_islands (s : State) (t : Thread) (h : Hold) : (s.issueH t h).islands = s.islands := rfl
@[simp] theorem State.issueH_matNext (s : State) (t : Thread) (h : Hold) : (s.issueH t h).matNext = s.matNext := rfl
@[simp] theorem State.issueH_updNext (s : State) (t : Thread) (h : Hold) : (s.issueH t h).updNext = s.updNext := rfl
@[simp] theorem State.issueH_objUsed (s : State) (t : Thread) (h : Hold) : (s.issueH t h).objUsed = s.objUsed := rfl
@[simp] theorem State.issueH_tlb (s : State) (t : Thread) (h : Hold) : (s.issueH t h).tlb = s.tlb := rfl
@[simp] theorem State.issueH_fab (s : State) (t : Thread) (h : Hold) : (s.issueH t h).fab = s.fab := rfl
@[simp] theorem State.issueH_fabOut (s : State) (t : Thread) (h : Hold) : (s.issueH t h).fabOut = s.fabOut := rfl
@[simp] theorem State.issueH_hl (s : State) (t : Thread) (h : Hold) : (s.issueH t h).hl = s.hl := rfl
@[simp] theorem State.issueH_hostOut (s : State) (t : Thread) (h : Hold) : (s.issueH t h).hostOut = s.hostOut := rfl
@[simp] theorem State.issueH_msix (s : State) (t : Thread) (h : Hold) : (s.issueH t h).msix = s.msix := rfl
@[simp] theorem State.issueH_memStacks (s : State) (t : Thread) (h : Hold) : (s.issueH t h).memStacks = s.memStacks := rfl
@[simp] theorem State.issueH_agenda (s : State) (t : Thread) (h : Hold) : (s.issueH t h).agenda = s.agenda := rfl
@[simp] theorem State.issueH_lates (s : State) (t : Thread) (h : Hold) : (s.issueH t h).lates = s.lates := rfl
@[simp] theorem State.issueH_issuing (s : State) (t : Thread) (h : Hold) : (s.issueH t h).issuing = s.issuing := rfl
@[simp] theorem State.issueH_pasts (s : State) (t : Thread) (h : Hold) : (s.issueH t h).pasts = s.pasts := rfl
@[simp] theorem State.issueH_readPast (s : State) (t : Thread) (h : Hold) : (s.issueH t h).readPast = s.readPast := rfl
@[simp] theorem State.issueH_looks (s : State) (t : Thread) (h : Hold) : (s.issueH t h).looks = s.looks := rfl
@[simp] theorem State.issueH_owed (s : State) (t : Thread) (h : Hold) : (s.issueH t h).owed = s.owed := rfl
@[simp] theorem State.issueH_early (s : State) (t : Thread) (h : Hold) : (s.issueH t h).early = s.early := rfl
@[simp] theorem State.issueH_wrote (s : State) (t : Thread) (h : Hold) : (s.issueH t h).wrote = s.wrote := rfl
@[simp] theorem State.issueH_bundle (s : State) (t : Thread) (h : Hold) : (s.issueH t h).bundle = s.bundle := rfl
@[simp] theorem State.issueH_issuedNow (s : State) (t : Thread) (h : Hold) : (s.issueH t h).issuedNow = s.issuedNow := rfl
@[simp] theorem State.issueH_admits (s : State) (t : Thread) (h : Hold) : (s.issueH t h).admits = s.admits := rfl
@[simp] theorem State.issueH_orders (s : State) (t : Thread) (h : Hold) : (s.issueH t h).orders = s.orders := rfl
@[simp] theorem State.issueH_seqCtx (s : State) (t : Thread) (h : Hold) : (s.issueH t h).seqCtx = s.seqCtx := rfl
@[simp] theorem State.issueH_nextUid (s : State) (t : Thread) (h : Hold) : (s.issueH t h).nextUid = s.nextUid := rfl
@[simp] theorem State.issueH_freeCtr (s : State) (t : Thread) (h : Hold) : (s.issueH t h).freeCtr = s.freeCtr := rfl

/-! ### `modCrew` -/

@[simp] theorem State.modCrew_cycle (s : State) (k : Nat) (f : Crew → Crew) : (s.modCrew k f).cycle = s.cycle := by
  unfold State.modCrew; split <;> rfl
@[simp] theorem State.modCrew_now (s : State) (k : Nat) (f : Crew → Crew) : (s.modCrew k f).now = s.now := by
  unfold State.modCrew; split <;> rfl
@[simp] theorem State.modCrew_devid (s : State) (k : Nat) (f : Crew → Crew) : (s.modCrew k f).devid = s.devid := by
  unfold State.modCrew; split <;> rfl
@[simp] theorem State.modCrew_height (s : State) (k : Nat) (f : Crew → Crew) : (s.modCrew k f).height = s.height := by
  unfold State.modCrew; split <;> rfl
@[simp] theorem State.modCrew_mem (s : State) (k : Nat) (f : Crew → Crew) : (s.modCrew k f).mem = s.mem := by
  unfold State.modCrew; split <;> rfl
@[simp] theorem State.modCrew_hmem (s : State) (k : Nat) (f : Crew → Crew) : (s.modCrew k f).hmem = s.hmem := by
  unfold State.modCrew; split <;> rfl
@[simp] theorem State.modCrew_ctxs (s : State) (k : Nat) (f : Crew → Crew) : (s.modCrew k f).ctxs = s.ctxs := by
  unfold State.modCrew; split <;> rfl
@[simp] theorem State.modCrew_cohorts (s : State) (k : Nat) (f : Crew → Crew) : (s.modCrew k f).cohorts = s.cohorts := by
  unfold State.modCrew; split <;> rfl
@[simp] theorem State.modCrew_threads (s : State) (k : Nat) (f : Crew → Crew) : (s.modCrew k f).threads = s.threads := by
  unfold State.modCrew; split <;> rfl
@[simp] theorem State.modCrew_engines (s : State) (k : Nat) (f : Crew → Crew) : (s.modCrew k f).engines = s.engines := by
  unfold State.modCrew; split <;> rfl
@[simp] theorem State.modCrew_cores (s : State) (k : Nat) (f : Crew → Crew) : (s.modCrew k f).cores = s.cores := by
  unfold State.modCrew; split <;> rfl
@[simp] theorem State.modCrew_parts (s : State) (k : Nat) (f : Crew → Crew) : (s.modCrew k f).parts = s.parts := by
  unfold State.modCrew; split <;> rfl
@[simp] theorem State.modCrew_islands (s : State) (k : Nat) (f : Crew → Crew) : (s.modCrew k f).islands = s.islands := by
  unfold State.modCrew; split <;> rfl
@[simp] theorem State.modCrew_matNext (s : State) (k : Nat) (f : Crew → Crew) : (s.modCrew k f).matNext = s.matNext := by
  unfold State.modCrew; split <;> rfl
@[simp] theorem State.modCrew_updNext (s : State) (k : Nat) (f : Crew → Crew) : (s.modCrew k f).updNext = s.updNext := by
  unfold State.modCrew; split <;> rfl
@[simp] theorem State.modCrew_objUsed (s : State) (k : Nat) (f : Crew → Crew) : (s.modCrew k f).objUsed = s.objUsed := by
  unfold State.modCrew; split <;> rfl
@[simp] theorem State.modCrew_tlb (s : State) (k : Nat) (f : Crew → Crew) : (s.modCrew k f).tlb = s.tlb := by
  unfold State.modCrew; split <;> rfl
@[simp] theorem State.modCrew_fab (s : State) (k : Nat) (f : Crew → Crew) : (s.modCrew k f).fab = s.fab := by
  unfold State.modCrew; split <;> rfl
@[simp] theorem State.modCrew_fabOut (s : State) (k : Nat) (f : Crew → Crew) : (s.modCrew k f).fabOut = s.fabOut := by
  unfold State.modCrew; split <;> rfl
@[simp] theorem State.modCrew_hl (s : State) (k : Nat) (f : Crew → Crew) : (s.modCrew k f).hl = s.hl := by
  unfold State.modCrew; split <;> rfl
@[simp] theorem State.modCrew_hostOut (s : State) (k : Nat) (f : Crew → Crew) : (s.modCrew k f).hostOut = s.hostOut := by
  unfold State.modCrew; split <;> rfl
@[simp] theorem State.modCrew_msix (s : State) (k : Nat) (f : Crew → Crew) : (s.modCrew k f).msix = s.msix := by
  unfold State.modCrew; split <;> rfl
@[simp] theorem State.modCrew_memStacks (s : State) (k : Nat) (f : Crew → Crew) : (s.modCrew k f).memStacks = s.memStacks := by
  unfold State.modCrew; split <;> rfl
@[simp] theorem State.modCrew_agenda (s : State) (k : Nat) (f : Crew → Crew) : (s.modCrew k f).agenda = s.agenda := by
  unfold State.modCrew; split <;> rfl
@[simp] theorem State.modCrew_lates (s : State) (k : Nat) (f : Crew → Crew) : (s.modCrew k f).lates = s.lates := by
  unfold State.modCrew; split <;> rfl
@[simp] theorem State.modCrew_issuing (s : State) (k : Nat) (f : Crew → Crew) : (s.modCrew k f).issuing = s.issuing := by
  unfold State.modCrew; split <;> rfl
@[simp] theorem State.modCrew_pasts (s : State) (k : Nat) (f : Crew → Crew) : (s.modCrew k f).pasts = s.pasts := by
  unfold State.modCrew; split <;> rfl
@[simp] theorem State.modCrew_readPast (s : State) (k : Nat) (f : Crew → Crew) : (s.modCrew k f).readPast = s.readPast := by
  unfold State.modCrew; split <;> rfl
@[simp] theorem State.modCrew_looks (s : State) (k : Nat) (f : Crew → Crew) : (s.modCrew k f).looks = s.looks := by
  unfold State.modCrew; split <;> rfl
@[simp] theorem State.modCrew_owed (s : State) (k : Nat) (f : Crew → Crew) : (s.modCrew k f).owed = s.owed := by
  unfold State.modCrew; split <;> rfl
@[simp] theorem State.modCrew_early (s : State) (k : Nat) (f : Crew → Crew) : (s.modCrew k f).early = s.early := by
  unfold State.modCrew; split <;> rfl
@[simp] theorem State.modCrew_wrote (s : State) (k : Nat) (f : Crew → Crew) : (s.modCrew k f).wrote = s.wrote := by
  unfold State.modCrew; split <;> rfl
@[simp] theorem State.modCrew_bundle (s : State) (k : Nat) (f : Crew → Crew) : (s.modCrew k f).bundle = s.bundle := by
  unfold State.modCrew; split <;> rfl
@[simp] theorem State.modCrew_issuedNow (s : State) (k : Nat) (f : Crew → Crew) : (s.modCrew k f).issuedNow = s.issuedNow := by
  unfold State.modCrew; split <;> rfl
@[simp] theorem State.modCrew_admits (s : State) (k : Nat) (f : Crew → Crew) : (s.modCrew k f).admits = s.admits := by
  unfold State.modCrew; split <;> rfl
@[simp] theorem State.modCrew_orders (s : State) (k : Nat) (f : Crew → Crew) : (s.modCrew k f).orders = s.orders := by
  unfold State.modCrew; split <;> rfl
@[simp] theorem State.modCrew_seqCtx (s : State) (k : Nat) (f : Crew → Crew) : (s.modCrew k f).seqCtx = s.seqCtx := by
  unfold State.modCrew; split <;> rfl
@[simp] theorem State.modCrew_nextUid (s : State) (k : Nat) (f : Crew → Crew) : (s.modCrew k f).nextUid = s.nextUid := by
  unfold State.modCrew; split <;> rfl
@[simp] theorem State.modCrew_freeCtr (s : State) (k : Nat) (f : Crew → Crew) : (s.modCrew k f).freeCtr = s.freeCtr := by
  unfold State.modCrew; split <;> rfl

/-! ### `modCtx` -/

@[simp] theorem State.modCtx_cycle (s : State) (k : Nat) (f : Ctx → Ctx) : (s.modCtx k f).cycle = s.cycle := by
  unfold State.modCtx; split <;> rfl
@[simp] theorem State.modCtx_now (s : State) (k : Nat) (f : Ctx → Ctx) : (s.modCtx k f).now = s.now := by
  unfold State.modCtx; split <;> rfl
@[simp] theorem State.modCtx_devid (s : State) (k : Nat) (f : Ctx → Ctx) : (s.modCtx k f).devid = s.devid := by
  unfold State.modCtx; split <;> rfl
@[simp] theorem State.modCtx_height (s : State) (k : Nat) (f : Ctx → Ctx) : (s.modCtx k f).height = s.height := by
  unfold State.modCtx; split <;> rfl
@[simp] theorem State.modCtx_mem (s : State) (k : Nat) (f : Ctx → Ctx) : (s.modCtx k f).mem = s.mem := by
  unfold State.modCtx; split <;> rfl
@[simp] theorem State.modCtx_hmem (s : State) (k : Nat) (f : Ctx → Ctx) : (s.modCtx k f).hmem = s.hmem := by
  unfold State.modCtx; split <;> rfl
@[simp] theorem State.modCtx_cohorts (s : State) (k : Nat) (f : Ctx → Ctx) : (s.modCtx k f).cohorts = s.cohorts := by
  unfold State.modCtx; split <;> rfl
@[simp] theorem State.modCtx_crews (s : State) (k : Nat) (f : Ctx → Ctx) : (s.modCtx k f).crews = s.crews := by
  unfold State.modCtx; split <;> rfl
@[simp] theorem State.modCtx_threads (s : State) (k : Nat) (f : Ctx → Ctx) : (s.modCtx k f).threads = s.threads := by
  unfold State.modCtx; split <;> rfl
@[simp] theorem State.modCtx_engines (s : State) (k : Nat) (f : Ctx → Ctx) : (s.modCtx k f).engines = s.engines := by
  unfold State.modCtx; split <;> rfl
@[simp] theorem State.modCtx_cores (s : State) (k : Nat) (f : Ctx → Ctx) : (s.modCtx k f).cores = s.cores := by
  unfold State.modCtx; split <;> rfl
@[simp] theorem State.modCtx_parts (s : State) (k : Nat) (f : Ctx → Ctx) : (s.modCtx k f).parts = s.parts := by
  unfold State.modCtx; split <;> rfl
@[simp] theorem State.modCtx_islands (s : State) (k : Nat) (f : Ctx → Ctx) : (s.modCtx k f).islands = s.islands := by
  unfold State.modCtx; split <;> rfl
@[simp] theorem State.modCtx_matNext (s : State) (k : Nat) (f : Ctx → Ctx) : (s.modCtx k f).matNext = s.matNext := by
  unfold State.modCtx; split <;> rfl
@[simp] theorem State.modCtx_updNext (s : State) (k : Nat) (f : Ctx → Ctx) : (s.modCtx k f).updNext = s.updNext := by
  unfold State.modCtx; split <;> rfl
@[simp] theorem State.modCtx_objUsed (s : State) (k : Nat) (f : Ctx → Ctx) : (s.modCtx k f).objUsed = s.objUsed := by
  unfold State.modCtx; split <;> rfl
@[simp] theorem State.modCtx_tlb (s : State) (k : Nat) (f : Ctx → Ctx) : (s.modCtx k f).tlb = s.tlb := by
  unfold State.modCtx; split <;> rfl
@[simp] theorem State.modCtx_fab (s : State) (k : Nat) (f : Ctx → Ctx) : (s.modCtx k f).fab = s.fab := by
  unfold State.modCtx; split <;> rfl
@[simp] theorem State.modCtx_fabOut (s : State) (k : Nat) (f : Ctx → Ctx) : (s.modCtx k f).fabOut = s.fabOut := by
  unfold State.modCtx; split <;> rfl
@[simp] theorem State.modCtx_hl (s : State) (k : Nat) (f : Ctx → Ctx) : (s.modCtx k f).hl = s.hl := by
  unfold State.modCtx; split <;> rfl
@[simp] theorem State.modCtx_hostOut (s : State) (k : Nat) (f : Ctx → Ctx) : (s.modCtx k f).hostOut = s.hostOut := by
  unfold State.modCtx; split <;> rfl
@[simp] theorem State.modCtx_msix (s : State) (k : Nat) (f : Ctx → Ctx) : (s.modCtx k f).msix = s.msix := by
  unfold State.modCtx; split <;> rfl
@[simp] theorem State.modCtx_memStacks (s : State) (k : Nat) (f : Ctx → Ctx) : (s.modCtx k f).memStacks = s.memStacks := by
  unfold State.modCtx; split <;> rfl
@[simp] theorem State.modCtx_agenda (s : State) (k : Nat) (f : Ctx → Ctx) : (s.modCtx k f).agenda = s.agenda := by
  unfold State.modCtx; split <;> rfl
@[simp] theorem State.modCtx_lates (s : State) (k : Nat) (f : Ctx → Ctx) : (s.modCtx k f).lates = s.lates := by
  unfold State.modCtx; split <;> rfl
@[simp] theorem State.modCtx_issuing (s : State) (k : Nat) (f : Ctx → Ctx) : (s.modCtx k f).issuing = s.issuing := by
  unfold State.modCtx; split <;> rfl
@[simp] theorem State.modCtx_pasts (s : State) (k : Nat) (f : Ctx → Ctx) : (s.modCtx k f).pasts = s.pasts := by
  unfold State.modCtx; split <;> rfl
@[simp] theorem State.modCtx_readPast (s : State) (k : Nat) (f : Ctx → Ctx) : (s.modCtx k f).readPast = s.readPast := by
  unfold State.modCtx; split <;> rfl
@[simp] theorem State.modCtx_looks (s : State) (k : Nat) (f : Ctx → Ctx) : (s.modCtx k f).looks = s.looks := by
  unfold State.modCtx; split <;> rfl
@[simp] theorem State.modCtx_owed (s : State) (k : Nat) (f : Ctx → Ctx) : (s.modCtx k f).owed = s.owed := by
  unfold State.modCtx; split <;> rfl
@[simp] theorem State.modCtx_early (s : State) (k : Nat) (f : Ctx → Ctx) : (s.modCtx k f).early = s.early := by
  unfold State.modCtx; split <;> rfl
@[simp] theorem State.modCtx_wrote (s : State) (k : Nat) (f : Ctx → Ctx) : (s.modCtx k f).wrote = s.wrote := by
  unfold State.modCtx; split <;> rfl
@[simp] theorem State.modCtx_bundle (s : State) (k : Nat) (f : Ctx → Ctx) : (s.modCtx k f).bundle = s.bundle := by
  unfold State.modCtx; split <;> rfl
@[simp] theorem State.modCtx_issuedNow (s : State) (k : Nat) (f : Ctx → Ctx) : (s.modCtx k f).issuedNow = s.issuedNow := by
  unfold State.modCtx; split <;> rfl
@[simp] theorem State.modCtx_admits (s : State) (k : Nat) (f : Ctx → Ctx) : (s.modCtx k f).admits = s.admits := by
  unfold State.modCtx; split <;> rfl
@[simp] theorem State.modCtx_orders (s : State) (k : Nat) (f : Ctx → Ctx) : (s.modCtx k f).orders = s.orders := by
  unfold State.modCtx; split <;> rfl
@[simp] theorem State.modCtx_seqCtx (s : State) (k : Nat) (f : Ctx → Ctx) : (s.modCtx k f).seqCtx = s.seqCtx := by
  unfold State.modCtx; split <;> rfl
@[simp] theorem State.modCtx_nextUid (s : State) (k : Nat) (f : Ctx → Ctx) : (s.modCtx k f).nextUid = s.nextUid := by
  unfold State.modCtx; split <;> rfl
@[simp] theorem State.modCtx_freeCtr (s : State) (k : Nat) (f : Ctx → Ctx) : (s.modCtx k f).freeCtr = s.freeCtr := by
  unfold State.modCtx; split <;> rfl

/-! ### `modScratch` -/

@[simp] theorem State.modScratch_cycle (s : State) (t : Thread) (f : Memory → Memory) : (s.modScratch t f).cycle = s.cycle := State.modCrew_cycle ..
@[simp] theorem State.modScratch_now (s : State) (t : Thread) (f : Memory → Memory) : (s.modScratch t f).now = s.now := State.modCrew_now ..
@[simp] theorem State.modScratch_devid (s : State) (t : Thread) (f : Memory → Memory) : (s.modScratch t f).devid = s.devid := State.modCrew_devid ..
@[simp] theorem State.modScratch_height (s : State) (t : Thread) (f : Memory → Memory) : (s.modScratch t f).height = s.height := State.modCrew_height ..
@[simp] theorem State.modScratch_mem (s : State) (t : Thread) (f : Memory → Memory) : (s.modScratch t f).mem = s.mem := State.modCrew_mem ..
@[simp] theorem State.modScratch_hmem (s : State) (t : Thread) (f : Memory → Memory) : (s.modScratch t f).hmem = s.hmem := State.modCrew_hmem ..
@[simp] theorem State.modScratch_ctxs (s : State) (t : Thread) (f : Memory → Memory) : (s.modScratch t f).ctxs = s.ctxs := State.modCrew_ctxs ..
@[simp] theorem State.modScratch_cohorts (s : State) (t : Thread) (f : Memory → Memory) : (s.modScratch t f).cohorts = s.cohorts := State.modCrew_cohorts ..
@[simp] theorem State.modScratch_threads (s : State) (t : Thread) (f : Memory → Memory) : (s.modScratch t f).threads = s.threads := State.modCrew_threads ..
@[simp] theorem State.modScratch_engines (s : State) (t : Thread) (f : Memory → Memory) : (s.modScratch t f).engines = s.engines := State.modCrew_engines ..
@[simp] theorem State.modScratch_cores (s : State) (t : Thread) (f : Memory → Memory) : (s.modScratch t f).cores = s.cores := State.modCrew_cores ..
@[simp] theorem State.modScratch_parts (s : State) (t : Thread) (f : Memory → Memory) : (s.modScratch t f).parts = s.parts := State.modCrew_parts ..
@[simp] theorem State.modScratch_islands (s : State) (t : Thread) (f : Memory → Memory) : (s.modScratch t f).islands = s.islands := State.modCrew_islands ..
@[simp] theorem State.modScratch_matNext (s : State) (t : Thread) (f : Memory → Memory) : (s.modScratch t f).matNext = s.matNext := State.modCrew_matNext ..
@[simp] theorem State.modScratch_updNext (s : State) (t : Thread) (f : Memory → Memory) : (s.modScratch t f).updNext = s.updNext := State.modCrew_updNext ..
@[simp] theorem State.modScratch_objUsed (s : State) (t : Thread) (f : Memory → Memory) : (s.modScratch t f).objUsed = s.objUsed := State.modCrew_objUsed ..
@[simp] theorem State.modScratch_tlb (s : State) (t : Thread) (f : Memory → Memory) : (s.modScratch t f).tlb = s.tlb := State.modCrew_tlb ..
@[simp] theorem State.modScratch_fab (s : State) (t : Thread) (f : Memory → Memory) : (s.modScratch t f).fab = s.fab := State.modCrew_fab ..
@[simp] theorem State.modScratch_fabOut (s : State) (t : Thread) (f : Memory → Memory) : (s.modScratch t f).fabOut = s.fabOut := State.modCrew_fabOut ..
@[simp] theorem State.modScratch_hl (s : State) (t : Thread) (f : Memory → Memory) : (s.modScratch t f).hl = s.hl := State.modCrew_hl ..
@[simp] theorem State.modScratch_hostOut (s : State) (t : Thread) (f : Memory → Memory) : (s.modScratch t f).hostOut = s.hostOut := State.modCrew_hostOut ..
@[simp] theorem State.modScratch_msix (s : State) (t : Thread) (f : Memory → Memory) : (s.modScratch t f).msix = s.msix := State.modCrew_msix ..
@[simp] theorem State.modScratch_memStacks (s : State) (t : Thread) (f : Memory → Memory) : (s.modScratch t f).memStacks = s.memStacks := State.modCrew_memStacks ..
@[simp] theorem State.modScratch_agenda (s : State) (t : Thread) (f : Memory → Memory) : (s.modScratch t f).agenda = s.agenda := State.modCrew_agenda ..
@[simp] theorem State.modScratch_lates (s : State) (t : Thread) (f : Memory → Memory) : (s.modScratch t f).lates = s.lates := State.modCrew_lates ..
@[simp] theorem State.modScratch_issuing (s : State) (t : Thread) (f : Memory → Memory) : (s.modScratch t f).issuing = s.issuing := State.modCrew_issuing ..
@[simp] theorem State.modScratch_pasts (s : State) (t : Thread) (f : Memory → Memory) : (s.modScratch t f).pasts = s.pasts := State.modCrew_pasts ..
@[simp] theorem State.modScratch_readPast (s : State) (t : Thread) (f : Memory → Memory) : (s.modScratch t f).readPast = s.readPast := State.modCrew_readPast ..
@[simp] theorem State.modScratch_looks (s : State) (t : Thread) (f : Memory → Memory) : (s.modScratch t f).looks = s.looks := State.modCrew_looks ..
@[simp] theorem State.modScratch_owed (s : State) (t : Thread) (f : Memory → Memory) : (s.modScratch t f).owed = s.owed := State.modCrew_owed ..
@[simp] theorem State.modScratch_early (s : State) (t : Thread) (f : Memory → Memory) : (s.modScratch t f).early = s.early := State.modCrew_early ..
@[simp] theorem State.modScratch_wrote (s : State) (t : Thread) (f : Memory → Memory) : (s.modScratch t f).wrote = s.wrote := State.modCrew_wrote ..
@[simp] theorem State.modScratch_bundle (s : State) (t : Thread) (f : Memory → Memory) : (s.modScratch t f).bundle = s.bundle := State.modCrew_bundle ..
@[simp] theorem State.modScratch_issuedNow (s : State) (t : Thread) (f : Memory → Memory) : (s.modScratch t f).issuedNow = s.issuedNow := State.modCrew_issuedNow ..
@[simp] theorem State.modScratch_admits (s : State) (t : Thread) (f : Memory → Memory) : (s.modScratch t f).admits = s.admits := State.modCrew_admits ..
@[simp] theorem State.modScratch_orders (s : State) (t : Thread) (f : Memory → Memory) : (s.modScratch t f).orders = s.orders := State.modCrew_orders ..
@[simp] theorem State.modScratch_seqCtx (s : State) (t : Thread) (f : Memory → Memory) : (s.modScratch t f).seqCtx = s.seqCtx := State.modCrew_seqCtx ..
@[simp] theorem State.modScratch_nextUid (s : State) (t : Thread) (f : Memory → Memory) : (s.modScratch t f).nextUid = s.nextUid := State.modCrew_nextUid ..
@[simp] theorem State.modScratch_freeCtr (s : State) (t : Thread) (f : Memory → Memory) : (s.modScratch t f).freeCtr = s.freeCtr := State.modCrew_freeCtr ..

/-! ### `modTask` -/

@[simp] theorem State.modTask_cycle (s : State) (c k : Nat) (f : Task → Task) : (s.modTask c k f).cycle = s.cycle := State.modCtx_cycle ..
@[simp] theorem State.modTask_now (s : State) (c k : Nat) (f : Task → Task) : (s.modTask c k f).now = s.now := State.modCtx_now ..
@[simp] theorem State.modTask_devid (s : State) (c k : Nat) (f : Task → Task) : (s.modTask c k f).devid = s.devid := State.modCtx_devid ..
@[simp] theorem State.modTask_height (s : State) (c k : Nat) (f : Task → Task) : (s.modTask c k f).height = s.height := State.modCtx_height ..
@[simp] theorem State.modTask_mem (s : State) (c k : Nat) (f : Task → Task) : (s.modTask c k f).mem = s.mem := State.modCtx_mem ..
@[simp] theorem State.modTask_hmem (s : State) (c k : Nat) (f : Task → Task) : (s.modTask c k f).hmem = s.hmem := State.modCtx_hmem ..
@[simp] theorem State.modTask_cohorts (s : State) (c k : Nat) (f : Task → Task) : (s.modTask c k f).cohorts = s.cohorts := State.modCtx_cohorts ..
@[simp] theorem State.modTask_crews (s : State) (c k : Nat) (f : Task → Task) : (s.modTask c k f).crews = s.crews := State.modCtx_crews ..
@[simp] theorem State.modTask_threads (s : State) (c k : Nat) (f : Task → Task) : (s.modTask c k f).threads = s.threads := State.modCtx_threads ..
@[simp] theorem State.modTask_engines (s : State) (c k : Nat) (f : Task → Task) : (s.modTask c k f).engines = s.engines := State.modCtx_engines ..
@[simp] theorem State.modTask_cores (s : State) (c k : Nat) (f : Task → Task) : (s.modTask c k f).cores = s.cores := State.modCtx_cores ..
@[simp] theorem State.modTask_parts (s : State) (c k : Nat) (f : Task → Task) : (s.modTask c k f).parts = s.parts := State.modCtx_parts ..
@[simp] theorem State.modTask_islands (s : State) (c k : Nat) (f : Task → Task) : (s.modTask c k f).islands = s.islands := State.modCtx_islands ..
@[simp] theorem State.modTask_matNext (s : State) (c k : Nat) (f : Task → Task) : (s.modTask c k f).matNext = s.matNext := State.modCtx_matNext ..
@[simp] theorem State.modTask_updNext (s : State) (c k : Nat) (f : Task → Task) : (s.modTask c k f).updNext = s.updNext := State.modCtx_updNext ..
@[simp] theorem State.modTask_objUsed (s : State) (c k : Nat) (f : Task → Task) : (s.modTask c k f).objUsed = s.objUsed := State.modCtx_objUsed ..
@[simp] theorem State.modTask_tlb (s : State) (c k : Nat) (f : Task → Task) : (s.modTask c k f).tlb = s.tlb := State.modCtx_tlb ..
@[simp] theorem State.modTask_fab (s : State) (c k : Nat) (f : Task → Task) : (s.modTask c k f).fab = s.fab := State.modCtx_fab ..
@[simp] theorem State.modTask_fabOut (s : State) (c k : Nat) (f : Task → Task) : (s.modTask c k f).fabOut = s.fabOut := State.modCtx_fabOut ..
@[simp] theorem State.modTask_hl (s : State) (c k : Nat) (f : Task → Task) : (s.modTask c k f).hl = s.hl := State.modCtx_hl ..
@[simp] theorem State.modTask_hostOut (s : State) (c k : Nat) (f : Task → Task) : (s.modTask c k f).hostOut = s.hostOut := State.modCtx_hostOut ..
@[simp] theorem State.modTask_msix (s : State) (c k : Nat) (f : Task → Task) : (s.modTask c k f).msix = s.msix := State.modCtx_msix ..
@[simp] theorem State.modTask_memStacks (s : State) (c k : Nat) (f : Task → Task) : (s.modTask c k f).memStacks = s.memStacks := State.modCtx_memStacks ..
@[simp] theorem State.modTask_agenda (s : State) (c k : Nat) (f : Task → Task) : (s.modTask c k f).agenda = s.agenda := State.modCtx_agenda ..
@[simp] theorem State.modTask_lates (s : State) (c k : Nat) (f : Task → Task) : (s.modTask c k f).lates = s.lates := State.modCtx_lates ..
@[simp] theorem State.modTask_issuing (s : State) (c k : Nat) (f : Task → Task) : (s.modTask c k f).issuing = s.issuing := State.modCtx_issuing ..
@[simp] theorem State.modTask_pasts (s : State) (c k : Nat) (f : Task → Task) : (s.modTask c k f).pasts = s.pasts := State.modCtx_pasts ..
@[simp] theorem State.modTask_readPast (s : State) (c k : Nat) (f : Task → Task) : (s.modTask c k f).readPast = s.readPast := State.modCtx_readPast ..
@[simp] theorem State.modTask_looks (s : State) (c k : Nat) (f : Task → Task) : (s.modTask c k f).looks = s.looks := State.modCtx_looks ..
@[simp] theorem State.modTask_owed (s : State) (c k : Nat) (f : Task → Task) : (s.modTask c k f).owed = s.owed := State.modCtx_owed ..
@[simp] theorem State.modTask_early (s : State) (c k : Nat) (f : Task → Task) : (s.modTask c k f).early = s.early := State.modCtx_early ..
@[simp] theorem State.modTask_wrote (s : State) (c k : Nat) (f : Task → Task) : (s.modTask c k f).wrote = s.wrote := State.modCtx_wrote ..
@[simp] theorem State.modTask_bundle (s : State) (c k : Nat) (f : Task → Task) : (s.modTask c k f).bundle = s.bundle := State.modCtx_bundle ..
@[simp] theorem State.modTask_issuedNow (s : State) (c k : Nat) (f : Task → Task) : (s.modTask c k f).issuedNow = s.issuedNow := State.modCtx_issuedNow ..
@[simp] theorem State.modTask_admits (s : State) (c k : Nat) (f : Task → Task) : (s.modTask c k f).admits = s.admits := State.modCtx_admits ..
@[simp] theorem State.modTask_orders (s : State) (c k : Nat) (f : Task → Task) : (s.modTask c k f).orders = s.orders := State.modCtx_orders ..
@[simp] theorem State.modTask_seqCtx (s : State) (c k : Nat) (f : Task → Task) : (s.modTask c k f).seqCtx = s.seqCtx := State.modCtx_seqCtx ..
@[simp] theorem State.modTask_nextUid (s : State) (c k : Nat) (f : Task → Task) : (s.modTask c k f).nextUid = s.nextUid := State.modCtx_nextUid ..
@[simp] theorem State.modTask_freeCtr (s : State) (c k : Nat) (f : Task → Task) : (s.modTask c k f).freeCtr = s.freeCtr := State.modCtx_freeCtr ..

/-! ### `holdFault` -/

@[simp] theorem State.holdFault_cycle (s : State) (c k : Nat) (f : TFault) : (s.holdFault c k f).cycle = s.cycle := State.modTask_cycle ..
@[simp] theorem State.holdFault_now (s : State) (c k : Nat) (f : TFault) : (s.holdFault c k f).now = s.now := State.modTask_now ..
@[simp] theorem State.holdFault_devid (s : State) (c k : Nat) (f : TFault) : (s.holdFault c k f).devid = s.devid := State.modTask_devid ..
@[simp] theorem State.holdFault_height (s : State) (c k : Nat) (f : TFault) : (s.holdFault c k f).height = s.height := State.modTask_height ..
@[simp] theorem State.holdFault_mem (s : State) (c k : Nat) (f : TFault) : (s.holdFault c k f).mem = s.mem := State.modTask_mem ..
@[simp] theorem State.holdFault_hmem (s : State) (c k : Nat) (f : TFault) : (s.holdFault c k f).hmem = s.hmem := State.modTask_hmem ..
@[simp] theorem State.holdFault_cohorts (s : State) (c k : Nat) (f : TFault) : (s.holdFault c k f).cohorts = s.cohorts := State.modTask_cohorts ..
@[simp] theorem State.holdFault_crews (s : State) (c k : Nat) (f : TFault) : (s.holdFault c k f).crews = s.crews := State.modTask_crews ..
@[simp] theorem State.holdFault_threads (s : State) (c k : Nat) (f : TFault) : (s.holdFault c k f).threads = s.threads := State.modTask_threads ..
@[simp] theorem State.holdFault_engines (s : State) (c k : Nat) (f : TFault) : (s.holdFault c k f).engines = s.engines := State.modTask_engines ..
@[simp] theorem State.holdFault_cores (s : State) (c k : Nat) (f : TFault) : (s.holdFault c k f).cores = s.cores := State.modTask_cores ..
@[simp] theorem State.holdFault_parts (s : State) (c k : Nat) (f : TFault) : (s.holdFault c k f).parts = s.parts := State.modTask_parts ..
@[simp] theorem State.holdFault_islands (s : State) (c k : Nat) (f : TFault) : (s.holdFault c k f).islands = s.islands := State.modTask_islands ..
@[simp] theorem State.holdFault_matNext (s : State) (c k : Nat) (f : TFault) : (s.holdFault c k f).matNext = s.matNext := State.modTask_matNext ..
@[simp] theorem State.holdFault_updNext (s : State) (c k : Nat) (f : TFault) : (s.holdFault c k f).updNext = s.updNext := State.modTask_updNext ..
@[simp] theorem State.holdFault_objUsed (s : State) (c k : Nat) (f : TFault) : (s.holdFault c k f).objUsed = s.objUsed := State.modTask_objUsed ..
@[simp] theorem State.holdFault_tlb (s : State) (c k : Nat) (f : TFault) : (s.holdFault c k f).tlb = s.tlb := State.modTask_tlb ..
@[simp] theorem State.holdFault_fab (s : State) (c k : Nat) (f : TFault) : (s.holdFault c k f).fab = s.fab := State.modTask_fab ..
@[simp] theorem State.holdFault_fabOut (s : State) (c k : Nat) (f : TFault) : (s.holdFault c k f).fabOut = s.fabOut := State.modTask_fabOut ..
@[simp] theorem State.holdFault_hl (s : State) (c k : Nat) (f : TFault) : (s.holdFault c k f).hl = s.hl := State.modTask_hl ..
@[simp] theorem State.holdFault_hostOut (s : State) (c k : Nat) (f : TFault) : (s.holdFault c k f).hostOut = s.hostOut := State.modTask_hostOut ..
@[simp] theorem State.holdFault_msix (s : State) (c k : Nat) (f : TFault) : (s.holdFault c k f).msix = s.msix := State.modTask_msix ..
@[simp] theorem State.holdFault_memStacks (s : State) (c k : Nat) (f : TFault) : (s.holdFault c k f).memStacks = s.memStacks := State.modTask_memStacks ..
@[simp] theorem State.holdFault_agenda (s : State) (c k : Nat) (f : TFault) : (s.holdFault c k f).agenda = s.agenda := State.modTask_agenda ..
@[simp] theorem State.holdFault_lates (s : State) (c k : Nat) (f : TFault) : (s.holdFault c k f).lates = s.lates := State.modTask_lates ..
@[simp] theorem State.holdFault_issuing (s : State) (c k : Nat) (f : TFault) : (s.holdFault c k f).issuing = s.issuing := State.modTask_issuing ..
@[simp] theorem State.holdFault_pasts (s : State) (c k : Nat) (f : TFault) : (s.holdFault c k f).pasts = s.pasts := State.modTask_pasts ..
@[simp] theorem State.holdFault_readPast (s : State) (c k : Nat) (f : TFault) : (s.holdFault c k f).readPast = s.readPast := State.modTask_readPast ..
@[simp] theorem State.holdFault_looks (s : State) (c k : Nat) (f : TFault) : (s.holdFault c k f).looks = s.looks := State.modTask_looks ..
@[simp] theorem State.holdFault_owed (s : State) (c k : Nat) (f : TFault) : (s.holdFault c k f).owed = s.owed := State.modTask_owed ..
@[simp] theorem State.holdFault_early (s : State) (c k : Nat) (f : TFault) : (s.holdFault c k f).early = s.early := State.modTask_early ..
@[simp] theorem State.holdFault_wrote (s : State) (c k : Nat) (f : TFault) : (s.holdFault c k f).wrote = s.wrote := State.modTask_wrote ..
@[simp] theorem State.holdFault_bundle (s : State) (c k : Nat) (f : TFault) : (s.holdFault c k f).bundle = s.bundle := State.modTask_bundle ..
@[simp] theorem State.holdFault_issuedNow (s : State) (c k : Nat) (f : TFault) : (s.holdFault c k f).issuedNow = s.issuedNow := State.modTask_issuedNow ..
@[simp] theorem State.holdFault_admits (s : State) (c k : Nat) (f : TFault) : (s.holdFault c k f).admits = s.admits := State.modTask_admits ..
@[simp] theorem State.holdFault_orders (s : State) (c k : Nat) (f : TFault) : (s.holdFault c k f).orders = s.orders := State.modTask_orders ..
@[simp] theorem State.holdFault_seqCtx (s : State) (c k : Nat) (f : TFault) : (s.holdFault c k f).seqCtx = s.seqCtx := State.modTask_seqCtx ..
@[simp] theorem State.holdFault_nextUid (s : State) (c k : Nat) (f : TFault) : (s.holdFault c k f).nextUid = s.nextUid := State.modTask_nextUid ..
@[simp] theorem State.holdFault_freeCtr (s : State) (c k : Nat) (f : TFault) : (s.holdFault c k f).freeCtr = s.freeCtr := State.modTask_freeCtr ..

/-! ### `escalate` -/

@[simp] theorem State.escalate_cycle (s : State) (t : Thread) (a b c d : Nat) : (s.escalate t a b c d).cycle = s.cycle := by
  simp [State.escalate]
@[simp] theorem State.escalate_now (s : State) (t : Thread) (a b c d : Nat) : (s.escalate t a b c d).now = s.now := by
  simp [State.escalate]
@[simp] theorem State.escalate_devid (s : State) (t : Thread) (a b c d : Nat) : (s.escalate t a b c d).devid = s.devid := by
  simp [State.escalate]
@[simp] theorem State.escalate_height (s : State) (t : Thread) (a b c d : Nat) : (s.escalate t a b c d).height = s.height := by
  simp [State.escalate]
@[simp] theorem State.escalate_mem (s : State) (t : Thread) (a b c d : Nat) : (s.escalate t a b c d).mem = s.mem := by
  simp [State.escalate]
@[simp] theorem State.escalate_hmem (s : State) (t : Thread) (a b c d : Nat) : (s.escalate t a b c d).hmem = s.hmem := by
  simp [State.escalate]
@[simp] theorem State.escalate_cohorts (s : State) (t : Thread) (a b c d : Nat) : (s.escalate t a b c d).cohorts = s.cohorts := by
  simp [State.escalate]
@[simp] theorem State.escalate_crews (s : State) (t : Thread) (a b c d : Nat) : (s.escalate t a b c d).crews = s.crews := by
  simp [State.escalate]
@[simp] theorem State.escalate_engines (s : State) (t : Thread) (a b c d : Nat) : (s.escalate t a b c d).engines = s.engines := by
  simp [State.escalate]
@[simp] theorem State.escalate_cores (s : State) (t : Thread) (a b c d : Nat) : (s.escalate t a b c d).cores = s.cores := by
  simp [State.escalate]
@[simp] theorem State.escalate_parts (s : State) (t : Thread) (a b c d : Nat) : (s.escalate t a b c d).parts = s.parts := by
  simp [State.escalate]
@[simp] theorem State.escalate_islands (s : State) (t : Thread) (a b c d : Nat) : (s.escalate t a b c d).islands = s.islands := by
  simp [State.escalate]
@[simp] theorem State.escalate_matNext (s : State) (t : Thread) (a b c d : Nat) : (s.escalate t a b c d).matNext = s.matNext := by
  simp [State.escalate]
@[simp] theorem State.escalate_updNext (s : State) (t : Thread) (a b c d : Nat) : (s.escalate t a b c d).updNext = s.updNext := by
  simp [State.escalate]
@[simp] theorem State.escalate_objUsed (s : State) (t : Thread) (a b c d : Nat) : (s.escalate t a b c d).objUsed = s.objUsed := by
  simp [State.escalate]
@[simp] theorem State.escalate_tlb (s : State) (t : Thread) (a b c d : Nat) : (s.escalate t a b c d).tlb = s.tlb := by
  simp [State.escalate]
@[simp] theorem State.escalate_fab (s : State) (t : Thread) (a b c d : Nat) : (s.escalate t a b c d).fab = s.fab := by
  simp [State.escalate]
@[simp] theorem State.escalate_fabOut (s : State) (t : Thread) (a b c d : Nat) : (s.escalate t a b c d).fabOut = s.fabOut := by
  simp [State.escalate]
@[simp] theorem State.escalate_hl (s : State) (t : Thread) (a b c d : Nat) : (s.escalate t a b c d).hl = s.hl := by
  simp [State.escalate]
@[simp] theorem State.escalate_hostOut (s : State) (t : Thread) (a b c d : Nat) : (s.escalate t a b c d).hostOut = s.hostOut := by
  simp [State.escalate]
@[simp] theorem State.escalate_msix (s : State) (t : Thread) (a b c d : Nat) : (s.escalate t a b c d).msix = s.msix := by
  simp [State.escalate]
@[simp] theorem State.escalate_memStacks (s : State) (t : Thread) (a b c d : Nat) : (s.escalate t a b c d).memStacks = s.memStacks := by
  simp [State.escalate]
@[simp] theorem State.escalate_agenda (s : State) (t : Thread) (a b c d : Nat) : (s.escalate t a b c d).agenda = s.agenda := by
  simp [State.escalate]
@[simp] theorem State.escalate_lates (s : State) (t : Thread) (a b c d : Nat) : (s.escalate t a b c d).lates = s.lates := by
  simp [State.escalate]
@[simp] theorem State.escalate_issuing (s : State) (t : Thread) (a b c d : Nat) : (s.escalate t a b c d).issuing = s.issuing := by
  simp [State.escalate]
@[simp] theorem State.escalate_pasts (s : State) (t : Thread) (a b c d : Nat) : (s.escalate t a b c d).pasts = s.pasts := by
  simp [State.escalate]
@[simp] theorem State.escalate_readPast (s : State) (t : Thread) (a b c d : Nat) : (s.escalate t a b c d).readPast = s.readPast := by
  simp [State.escalate]
@[simp] theorem State.escalate_looks (s : State) (t : Thread) (a b c d : Nat) : (s.escalate t a b c d).looks = s.looks := by
  simp [State.escalate]
@[simp] theorem State.escalate_owed (s : State) (t : Thread) (a b c d : Nat) : (s.escalate t a b c d).owed = s.owed := by
  simp [State.escalate]
@[simp] theorem State.escalate_early (s : State) (t : Thread) (a b c d : Nat) : (s.escalate t a b c d).early = s.early := by
  simp [State.escalate]
@[simp] theorem State.escalate_wrote (s : State) (t : Thread) (a b c d : Nat) : (s.escalate t a b c d).wrote = s.wrote := by
  simp [State.escalate]
@[simp] theorem State.escalate_bundle (s : State) (t : Thread) (a b c d : Nat) : (s.escalate t a b c d).bundle = s.bundle := by
  simp [State.escalate]
@[simp] theorem State.escalate_issuedNow (s : State) (t : Thread) (a b c d : Nat) : (s.escalate t a b c d).issuedNow = s.issuedNow := by
  simp [State.escalate]
@[simp] theorem State.escalate_admits (s : State) (t : Thread) (a b c d : Nat) : (s.escalate t a b c d).admits = s.admits := by
  simp [State.escalate]
@[simp] theorem State.escalate_orders (s : State) (t : Thread) (a b c d : Nat) : (s.escalate t a b c d).orders = s.orders := by
  simp [State.escalate]
@[simp] theorem State.escalate_seqCtx (s : State) (t : Thread) (a b c d : Nat) : (s.escalate t a b c d).seqCtx = s.seqCtx := by
  simp [State.escalate]
@[simp] theorem State.escalate_nextUid (s : State) (t : Thread) (a b c d : Nat) : (s.escalate t a b c d).nextUid = s.nextUid := by
  simp [State.escalate]
@[simp] theorem State.escalate_freeCtr (s : State) (t : Thread) (a b c d : Nat) : (s.escalate t a b c d).freeCtr = s.freeCtr := by
  simp [State.escalate]

end Sys2Proof.Machine
end

