-- ==== Sys2Proof/Laws/Issue.lean ====
section
/-!
SUPPORT. One thread's issue: what `view` and the results that fall due leave alone, and what `issueWith`, `runF` and `runD` answer for
a bundle of one thread (`Solo`).
-/

namespace Sys2Proof.Machine

/-- The name of a thread: its crew and its `tid`. -/
def Thread.key (t : Thread) : Nat × Nat := (t.crew, t.tid)

theorem Thread.key_putSreg (t : Thread) (n : Nat) (w : Word) : (t.putSreg n w).key = t.key := by
  unfold Thread.putSreg; split <;> (try rfl); split <;> rfl

/-- Results that come in one after another leave a thread its name when each of them does. -/
theorem Thread.key_afterAll {α : Type} {write : Thread → α → Thread} (hw : ∀ t x, (write t x).key = t.key) :
    ∀ (results : List α) (t : Thread), (results.foldl write t).key = t.key
  | [], _ => rfl
  | x :: rest, t => (Thread.key_afterAll hw rest (write t x)).trans (hw t x)

theorem Thread.key_apply (t : Thread) (p : Pend) : (t.apply p).key = t.key := by
  refine (Thread.key_afterAll (fun t (x : Nat × Word) => Thread.key_putSreg t x.1 x.2) _ _).trans ?_
  refine (Thread.key_afterAll (write := fun t (x : Nat × Bool) => t.putTag x.1 x.2) (fun _ _ => rfl) _ _).trans ?_
  exact Thread.key_afterAll (write := fun t (x : Nat × Reg) => t.putReg x.1 x.2) (fun _ _ => rfl) _ _
theorem Thread.key_commit (c : Nat) (t : Thread) : (t.commit c).key = t.key := Thread.key_afterAll Thread.key_apply _ _

/-- What an instruction reads belongs to the same thread. -/
theorem viewPending_key (ps : List Pend) (t : Thread) (s : State) : (viewPending ps t s).1.key = t.key := by
  induction ps generalizing t s with
  | nil => rfl
  | cons p ps ih => simp only [viewPending]; refine (ih _ _).trans ?_; split <;> simp [Thread.key_apply]

/-- Reading draws one free choice for each result that is not due, and changes nothing else (R24). -/
theorem viewPending_state (ps : List Pend) (t : Thread) (s : State) :
    (viewPending ps t s).2 = { s with freeCtr := s.freeCtr + ps.length } := by
  induction ps generalizing t s with
  | nil => rfl
  | cons p ps ih => 
    simp only [viewPending, ih, State.choose, List.length_cons]
    rw [Nat.add_comm ps.length 1, ← Nat.add_assoc]

/-- The state that a lone thread's issue starts from. -/
theorem Solo.state {s i t v s'} (h : Solo s i t v s') : s' = { s with freeCtr := s.freeCtr + (t.commit s.cycle).pend.length } := by
  have := viewPending_state (t.commit s.cycle).pend (t.commit s.cycle) s
  have h2 := h.view
  unfold State.view at h2
  rw [h2] at this; exact this

theorem Solo.cycle {s i t v s'} (h : Solo s i t v s') : s'.cycle = s.cycle := by rw [h.state]

/-- The thread that reads is the thread that issues. -/
theorem Solo.key {s i t v s'} (h : Solo s i t v s') : v.key = t.key := by
  have := viewPending_key (t.commit s.cycle).pend (t.commit s.cycle) s
  have h2 := h.view
  unfold State.view at h2
  rw [h2] at this
  simpa [Thread.key_commit] using this
theorem Solo.keys {s i t v s'} (h : Solo s i t v s') : v.crew = t.crew ∧ v.tid = t.tid := by
  have := h.key; simpa [Thread.key] using this

/-- The choice of `Solo` leaves crews, contexts, cohorts, stores and time alone. -/
theorem Solo.crew {s i t v s'} (h : Solo s i t v s') (n : Nat) : s'.crew n = s.crew n := by rw [h.state]; rfl
theorem Solo.ctx {s i t v s'} (h : Solo s i t v s') (n : Nat) : s'.ctx n = s.ctx n := by rw [h.state]; rfl
theorem Solo.cohort {s i t v s'} (h : Solo s i t v s') (n : Nat) : s'.cohort n = s.cohort n := by rw [h.state]; rfl
theorem Solo.now {s i t v s'} (h : Solo s i t v s') : s'.now = s.now := by rw [h.state]
theorem Solo.mem {s i t v s'} (h : Solo s i t v s') : s'.mem = s.mem := by rw [h.state]
/-- The context of a thread, and of what it reads, is as before the choice. -/
theorem Solo.ctxOf {s i t v s'} (h : Solo s i t v s') (u : Thread) : s'.ctxOf u = s.ctxOf u := by rw [h.state]; rfl

/-- The choice leaves the thread without accesses that wait for their place, and the bundle making its accesses now. -/
theorem Solo.issuing {s i t v s'} (h : Solo s i t v s') : s'.issuing = .now := by rw [h.state]; exact h.timely.1
theorem Solo.readPast {s i t v s'} (h : Solo s i t v s') : s'.readPast = none := by rw [h.state]; exact h.timely.2.2
theorem Solo.noLate {s i t v s'} (h : Solo s i t v s') : s'.hasLate (t.commit s.cycle) = false := by
  have hk := Thread.key_commit s.cycle t
  simp only [Thread.key, Prod.mk.injEq] at hk
  have := h.timely.2.1
  rw [h.state]
  simpa [State.hasLate, hk.1, hk.2] using this

/-- An access made by a thread that has no earlier one without a place stands as it was made, unless it has to wait for a line. -/
theorem State.settleAccess_now {s u : State} {i t v vs} (hm : s.issuing = .now) (hl : s.hasLate t = false) (hu : u.issuing ≠ .stalled) :
    s.settleAccess u i t v vs = u := by
  simp [State.settleAccess, hm, hl, hu]

/-- A lone thread's issue runs the body once; of an access, when it does not have to wait for a line. -/
theorem Solo.issueWith {s i t v s'} (h : Solo s i t v s') (body fin)
    (hp : Instr.placeable i = true → (body [v] s' (t.commit s.cycle) v).issuing ≠ .stalled) :
    s.issueWith i body fin = .next (fin (body [v] s' (t.commit s.cycle) v)).done := by
  have hk := h.keys
  have hs := h.state
  have hm : s.missing = none := by simp [State.missing, h.bundle, h.here]
  have ht : s'.thread v.crew v.tid = some t := by rw [hk.1, hk.2, hs]; exact h.here
  have hc : s'.cycle = s.cycle := by rw [hs]
  have hv : State.viewAll s.bundle s = ([v], s') := by simp [h.bundle, State.viewAll, h.here, h.view]
  have hone : State.issueThread i [v] (body [v]) s' v = body [v] s' (t.commit s.cycle) v := by
    simp only [State.issueThread, ht, hc, h.checks, h.noLate, Bool.false_and, Bool.false_eq_true, if_false]
    split
    · exact State.settleAccess_now h.issuing h.noLate (hp ‹_›)
    · rfl
  unfold State.issueWith
  simp only [hm, h.timely.1, hv, h.checks, List.filter_cons, Option.isNone_none, List.filter_nil, if_true, List.foldl_cons, List.foldl_nil,
    hone, State.done]

/-- A class-F instruction that does not trap. -/
theorem Solo.runF {s i t v s' f p} (h : Solo s i t v s') (hf : f s' v = .ok p) :
    s.runF i f = .next (s'.afterF i t p) := by
  unfold State.runF State.issueAll State.issueThen
  rw [h.issueWith _ _ fun _ => by simp [hf, State.issueF, State.setThread, h.issuing]]
  simp only [hf, id, State.afterF, h.cycle]
/-- A class-F instruction that writes one register. -/
theorem Solo.runD {s i t v s'} (h : Solo s i t v s') (d f) :
    s.runD i d f = .next (s'.afterReg i t v d (f s' v).1 (f s' v).2) := by
  unfold State.runD; exact h.runF rfl
end Sys2Proof.Machine
end

