-- ==== Sys2Proof/Laws/Memory.lean ====
section
/-!
SUPPORT. One store: what a sorted list reads after a write, that every operation over a store keeps the canonical form, and what a store
of bytes leaves at each address.
-/

namespace Sys2Proof

namespace AList
variable {β : Type} [DecidableEq β] (d : β)

theorem wfFrom_mono {l : List (Nat × β)} {a b : Nat} (h : a ≤ b) (hw : wfFrom d b l = true) : wfFrom d a l = true := by
  cases l with
  | nil => rfl
  | cons x xs =>
    simp only [wfFrom, Bool.and_eq_true, decide_eq_true_eq] at hw ⊢
    exact ⟨⟨Nat.le_trans h hw.1.1, hw.1.2⟩, hw.2⟩

theorem wfFrom_put {l : List (Nat × β)} {a k : Nat} (v : β) (hk : a ≤ k) (hw : wfFrom d a l = true) :
    wfFrom d a (put d k v l) = true := by
  induction l generalizing a with
  | nil =>
    unfold put; split
    · rfl
    · rename_i hv; simp [wfFrom, hk, hv]
  | cons x xs ih =>
    obtain ⟨k', v'⟩ := x
    simp only [wfFrom, Bool.and_eq_true, decide_eq_true_eq] at hw
    unfold put
    split
    · rename_i h
      simp only [wfFrom, Bool.and_eq_true, decide_eq_true_eq]
      exact ⟨hw.1, ih (Nat.succ_le_of_lt h) hw.2⟩
    · split
      · rename_i h1 h2; subst h2; split
        · exact wfFrom_mono d (Nat.le_trans hw.1.1 (Nat.le_succ _)) hw.2
        · rename_i hv; simp only [wfFrom, Bool.and_eq_true, decide_eq_true_eq]; exact ⟨⟨hk, hv⟩, hw.2⟩
      · rename_i h1 h2; split
        · simp only [wfFrom, Bool.and_eq_true, decide_eq_true_eq]; exact hw
        · rename_i hv; simp only [wfFrom, Bool.and_eq_true, decide_eq_true_eq]
          exact ⟨⟨hk, hv⟩, ⟨by omega, hw.1.2⟩, hw.2⟩

/-- A write keeps the canonical form. -/
theorem wf_put {l : List (Nat × β)} (k : Nat) (v : β) (h : wf d l = true) : wf d (put d k v l) = true :=
  wfFrom_put d v (Nat.zero_le k) h

theorem get_below {l : List (Nat × β)} {a k : Nat} (hw : wfFrom d a l = true) (h : k < a) : get d k l = d := by
  cases l with
  | nil => rfl
  | cons x xs =>
    simp only [wfFrom, Bool.and_eq_true, decide_eq_true_eq] at hw
    unfold get; rw [if_neg (by omega), if_neg (by omega)]

theorem get_put_from {l : List (Nat × β)} {a : Nat} (k k2 : Nat) (v : β) (hw : wfFrom d a l = true) :
    get d k2 (put d k v l) = if k2 = k then v else get d k2 l := by
  induction l generalizing a with
  | nil =>
    unfold put
    by_cases hv : v = d
    · rw [if_pos hv]; by_cases hk : k2 = k <;> simp [hk, hv, get]
    · rw [if_neg hv]; unfold get
      by_cases hk : k2 = k
      · subst hk; simp
      · rw [if_neg hk]; split
        · rfl
        · rw [if_neg (by omega)]
  | cons x xs ih =>
    obtain ⟨k', v'⟩ := x
    simp only [wfFrom, Bool.and_eq_true, decide_eq_true_eq] at hw
    unfold put
    split
    · rename_i h
      unfold get
      split
      · exact ih hw.2
      · rename_i h2; rw [if_neg (by omega : ¬ k2 = k)]
    · rename_i h
      split
      · rename_i h2; subst h2
        by_cases hv : v = d
        · rw [if_pos hv]
          by_cases hk : k2 = k'
          · rw [if_pos hk, hv]; exact get_below d hw.2 (by omega)
          · rw [if_neg hk]
            conv => rhs; unfold get
            split
            · rfl
            · rw [if_neg (by omega)]; exact get_below d hw.2 (by omega)
        · rw [if_neg hv]
          by_cases hk : k2 = k'
          · subst hk; simp [get]
          · rw [if_neg hk]; unfold get
            split
            · rfl
            · rw [if_neg (by omega), if_neg (by omega)]
      · rename_i h2
        by_cases hv : v = d
        · rw [if_pos hv]
          by_cases hk : k2 = k
          · rw [if_pos hk, hv]; unfold get; rw [if_neg (by omega), if_neg (by omega)]
          · rw [if_neg hk]
        · rw [if_neg hv]
          by_cases hk : k2 = k
          · subst hk; simp [get]
          · rw [if_neg hk]
            conv => lhs; unfold get
            split
            · rfl
            · rename_i h3; rw [if_neg (by omega)]; unfold get; rw [if_neg (by omega), if_neg (by omega)]

/-- A read after a write: the value written at its key, what was there before elsewhere. -/
theorem get_put {l : List (Nat × β)} (k k2 : Nat) (v : β) (h : wf d l = true) :
    get d k2 (put d k v l) = if k2 = k then v else get d k2 l := get_put_from d k k2 v h

theorem wfFrom_filter {l : List (Nat × β)} {a : Nat} (p : Nat × β → Bool) (hw : wfFrom d a l = true) :
    wfFrom d a (l.filter p) = true := by
  induction l generalizing a with
  | nil => rfl
  | cons x xs ih =>
    obtain ⟨k', v'⟩ := x
    simp only [wfFrom, Bool.and_eq_true, decide_eq_true_eq] at hw
    rw [List.filter_cons]; split
    · simp only [wfFrom, Bool.and_eq_true, decide_eq_true_eq]; exact ⟨hw.1, ih hw.2⟩
    · exact ih (wfFrom_mono d (Nat.le_trans hw.1.1 (Nat.le_succ _)) hw.2)

/-- New values under the same keys, the entries that read as unlisted left out, keep the canonical form. -/
theorem wfFrom_remap (f : Nat → β → β) : ∀ (l : List (Nat × β)) {a : Nat}, wfFrom d a l = true →
    wfFrom d a ((l.map (fun p => (p.1, f p.1 p.2))).filter (fun p => p.2 != d)) = true
  | [], _, _ => rfl
  | (k, v) :: rest, a, hw => by
    simp only [wfFrom, Bool.and_eq_true, decide_eq_true_eq] at hw
    have hr := wfFrom_remap f rest hw.2
    rw [List.map_cons, List.filter_cons]
    by_cases hv : f k v = d
    · simpa [hv] using wfFrom_mono d (Nat.le_trans hw.1.1 (Nat.le_succ k)) hr
    · simpa [hv, wfFrom, hw.1.1] using hr
theorem wf_remap {l : List (Nat × β)} (f : Nat → β → β) (h : wf d l = true) :
    wf d ((l.map (fun p => (p.1, f p.1 p.2))).filter (fun p => p.2 != d)) = true := wfFrom_remap d f l h

/-- Entries taken out leave the canonical form. -/
theorem wf_filter {l : List (Nat × β)} (p : Nat × β → Bool) (h : wf d l = true) : wf d (l.filter p) = true := wfFrom_filter d p h

end AList

namespace Machine

/-! ### Every operation keeps the canonical form -/

/-- The five lists of a canonical store are canonical. -/
theorem Memory.wf_iff {m : Memory} : m.wf = true ↔ AList.wf Memory.unlisted m.bytes = true ∧ AList.wf Memory.unlistedStamp m.stamps = true
    ∧ AList.wf false m.poison = true ∧ AList.wf false m.tags = true ∧ AList.wf 0 m.writes = true := by
  simp only [Memory.wf, Bool.and_eq_true, and_assoc]

theorem Memory.wf_empty : Memory.empty.wf = true := rfl

theorem Memory.wf_putByte {m : Memory} (a : Nat) (b : Byte) (h : m.wf = true) : (m.putByte a b).wf = true := by
  rw [Memory.wf_iff] at h ⊢; exact ⟨AList.wf_put _ _ _ h.1, h.2⟩
theorem Memory.wf_putStamp {m : Memory} (g : Nat) (s : Stamp) (h : m.wf = true) : (m.putStamp g s).wf = true := by
  rw [Memory.wf_iff] at h ⊢; exact ⟨h.1, AList.wf_put _ _ _ h.2.1, h.2.2⟩
theorem Memory.wf_putPoison {m : Memory} (g : Nat) (p : Bool) (h : m.wf = true) : (m.putPoison g p).wf = true := by
  rw [Memory.wf_iff] at h ⊢; exact ⟨h.1, h.2.1, AList.wf_put _ _ _ h.2.2.1, h.2.2.2⟩
theorem Memory.wf_putTag {m : Memory} (w : Nat) (t : Bool) (h : m.wf = true) : (m.putTag w t).wf = true := by
  rw [Memory.wf_iff] at h ⊢; exact ⟨h.1, h.2.1, h.2.2.1, AList.wf_put _ _ _ h.2.2.2.1, h.2.2.2.2⟩
theorem Memory.wf_noteWrite {m : Memory} (g : Nat) (h : m.wf = true) : (m.noteWrite g).wf = true := by
  rw [Memory.wf_iff] at h ⊢; exact ⟨h.1, h.2.1, h.2.2.1, h.2.2.2.1, AList.wf_put _ _ _ h.2.2.2.2⟩

/-- A store that is written at one place after another is canonical at the end when each write keeps it so. -/
theorem Memory.wf_afterAll {α : Type} {write : Memory → α → Memory} (hw : ∀ m x, m.wf = true → (write m x).wf = true) :
    ∀ (places : List α) {m : Memory}, m.wf = true → (places.foldl write m).wf = true
  | [], _, h => h
  | x :: rest, m, h => Memory.wf_afterAll hw rest (hw m x h)

theorem Memory.wf_noteWrites {m : Memory} (a n : Nat) (h : m.wf = true) : (m.noteWrites a n).wf = true :=
  Memory.wf_afterAll (fun _ _ => Memory.wf_noteWrite _) _ h
theorem Memory.wf_putBytes {m : Memory} (a : Nat) (bs : List Byte) (h : m.wf = true) : (m.putBytes a bs).wf = true := by
  induction bs generalizing m a with
  | nil => exact h
  | cons b bs ih => exact ih _ (Memory.wf_putByte _ _ h)
theorem Memory.wf_clearTags {m : Memory} (a n : Nat) (h : m.wf = true) : (m.clearTags a n).wf = true := by
  unfold Memory.clearTags; split
  · exact h
  · exact Memory.wf_afterAll (fun _ _ => Memory.wf_putTag _ _) _ h
theorem Memory.wf_combineStamps {m : Memory} (now a n : Nat) (s : Stamp) (h : m.wf = true) : (m.combineStamps now a n s).wf = true :=
  Memory.wf_afterAll (fun _ _ => Memory.wf_putStamp _ _) _ h
theorem Memory.wf_store {m : Memory} (now a : Nat) (bs : List Byte) (s : Stamp) (h : m.wf = true) : (m.store now a bs s).wf = true :=
  Memory.wf_noteWrites _ _ (Memory.wf_clearTags _ _ (Memory.wf_combineStamps _ _ _ _ (Memory.wf_putBytes _ _ h)))
theorem Memory.wf_storeReplace {m : Memory} (now a : Nat) (bs : List Byte) (s : Stamp) (h : m.wf = true) :
    (m.storeReplace now a bs s).wf = true :=
  Memory.wf_afterAll (fun _ _ => Memory.wf_putStamp _ _) _ (Memory.wf_noteWrites _ _ (Memory.wf_clearTags _ _ (Memory.wf_putBytes _ _ h)))
theorem Memory.wf_engineStamp {m : Memory} (now g : Nat) (whole : Bool) (s : Stamp) (h : m.wf = true) :
    (m.engineStamp now g whole s).wf = true := by
  unfold Memory.engineStamp; dsimp only; split
  · exact Memory.wf_putPoison _ _ (Memory.wf_putStamp _ _ (Memory.wf_noteWrite _ h))
  · exact Memory.wf_putStamp _ _ (Memory.wf_noteWrite _ h)
theorem Memory.wf_engineWrite1 {m : Memory} (now a : Nat) (bs : List Byte) (s : Stamp) (h : m.wf = true) :
    (m.engineWrite1 now a bs s).wf = true :=
  Memory.wf_clearTags _ _ (Memory.wf_engineStamp _ _ _ _ (Memory.wf_putBytes _ _ h))
theorem Memory.wf_engineWrite {m : Memory} (now a : Nat) (bs : List Byte) (f : Nat → Stamp) (h : m.wf = true) :
    (m.engineWrite now a bs f).wf = true :=
  Memory.wf_afterAll (fun _ _ => Memory.wf_engineWrite1 _ _ _ _) _ h
theorem Memory.wf_clampGranule {m : Memory} (now g : Nat) (h : m.wf = true) : (m.clampGranule now g).wf = true :=
  Memory.wf_putStamp _ _ h
theorem Memory.wf_vacate {m : Memory} (pa n : Nat) (h : m.wf = true) : (m.vacate pa n).wf = true := by
  rw [Memory.wf_iff] at h ⊢; exact ⟨h.1, AList.wf_filter _ _ h.2.1, h.2.2⟩
theorem Memory.wf_clear {m : Memory} (pa n : Nat) (h : m.wf = true) : (m.clear pa n).wf = true := by
  rw [Memory.wf_iff] at h ⊢; exact ⟨AList.wf_filter _ _ h.1, h.2.1, h.2.2.1, AList.wf_filter _ _ h.2.2.2.1, h.2.2.2.2⟩
theorem Memory.wf_scan {m : Memory} (f : Nat → Stamp → Stamp) (h : m.wf = true) : (m.scan f).wf = true := by
  rw [Memory.wf_iff] at h ⊢; exact ⟨h.1, AList.wf_remap _ f h.2.1, h.2.2⟩
theorem Memory.wf_stackGranule {m : Memory} (g : Nat) (bs : List Byte) (st : Stamp) (h : m.wf = true) :
    (m.stackGranule g bs st).wf = true :=
  Memory.wf_noteWrite _ (Memory.wf_putPoison _ _ (Memory.wf_putStamp _ _ (Memory.wf_putBytes _ _ h)))
theorem Memory.wf_stackWrite {m : Memory} (now a : Nat) (r : StackReq) (h : m.wf = true) : (m.stackWrite now a r).wf = true := by
  unfold Memory.stackWrite
  by_cases h0 : bit r.gmask 0 = true <;> by_cases h1 : bit r.gmask 1 = true <;> simp [h0, h1, h, Memory.wf_stackGranule]
theorem Memory.wf_markPoison {m : Memory} (a gpois : Nat) (h : m.wf = true) : (m.markPoison a gpois).wf = true := by
  have h1 : (if bit gpois 0 then m.putPoison (a / 32) true else m).wf = true := by
    split
    · exact Memory.wf_putPoison _ _ h
    · exact h
  unfold Memory.markPoison; dsimp only
  split
  · exact Memory.wf_putPoison _ _ h1
  · exact h1

/-! ### What a store leaves -/

/-- A byte written reads back; every other byte is as before. -/
theorem Memory.byte_putByte {m : Memory} (a x : Nat) (b : Byte) (h : m.wf = true) : (m.putByte a b).byte x = if x = a then b else m.byte x :=
  AList.get_put _ _ _ _ (Memory.wf_iff.mp h).1

/-- The bytes of a run read back from its address up; every other byte is as before. -/
theorem Memory.byte_putBytes {m : Memory} (a x : Nat) (bs : List Byte) (h : m.wf = true) :
    (m.putBytes a bs).byte x = if a ≤ x ∧ x < a + bs.length then bs.getD (x - a) 0#8 else m.byte x := by
  induction bs generalizing m a with
  | nil => rw [if_neg (by simp)]; rfl
  | cons b bs ih =>
    show (Memory.putBytes (m.putByte a b) (a + 1) bs).byte x = _
    rw [ih (a + 1) (Memory.wf_putByte _ _ h), Memory.byte_putByte _ _ _ h]
    simp only [List.length_cons]
    by_cases hx : x = a
    · subst hx; rw [if_neg (by omega), if_pos rfl, if_pos (by omega), Nat.sub_self]; rfl
    · by_cases h1 : a + 1 ≤ x ∧ x < a + 1 + bs.length
      · rw [if_pos h1, if_pos (by omega), show x - a = (x - (a + 1)) + 1 by omega]; rfl
      · rw [if_neg h1, if_neg hx, if_neg (by omega)]

/-- Writes of stamps, tags or counts, one after another, leave the bytes. -/
theorem Memory.bytes_afterAll {α : Type} {note : Memory → α → Memory} (hn : ∀ m x, (note m x).bytes = m.bytes) :
    ∀ (places : List α) (m : Memory), (places.foldl note m).bytes = m.bytes
  | [], _ => rfl
  | x :: rest, m => (Memory.bytes_afterAll hn rest (note m x)).trans (hn m x)

theorem Memory.bytes_noteWrites (m : Memory) (a n : Nat) : (m.noteWrites a n).bytes = m.bytes :=
  Memory.bytes_afterAll (note := Memory.noteWrite) (fun _ _ => rfl) _ _
theorem Memory.bytes_clearTags (m : Memory) (a n : Nat) : (m.clearTags a n).bytes = m.bytes := by
  unfold Memory.clearTags; split
  · rfl
  · exact Memory.bytes_afterAll (note := (fun m w => m.putTag w false)) (fun _ _ => rfl) _ _
theorem Memory.bytes_combineStamps (m : Memory) (now a n : Nat) (s : Stamp) : (m.combineStamps now a n s).bytes = m.bytes :=
  Memory.bytes_afterAll (note := (fun m g => m.putStamp g (clampStamp now (combine (m.stamp g) s)))) (fun _ _ => rfl) _ _

/-- The bytes an ordinary store leaves (R49). -/
theorem Memory.byte_store {m : Memory} (now a x : Nat) (bs : List Byte) (s : Stamp) (h : m.wf = true) :
    (m.store now a bs s).byte x = if a ≤ x ∧ x < a + bs.length then bs.getD (x - a) 0#8 else m.byte x := by
  rw [← Memory.byte_putBytes a x bs h]
  unfold Memory.byte Memory.store
  rw [Memory.bytes_noteWrites, Memory.bytes_clearTags, Memory.bytes_combineStamps]

/-- The bytes a granule-replace store leaves (R50). -/
theorem Memory.byte_storeReplace {m : Memory} (now a x : Nat) (bs : List Byte) (s : Stamp) (h : m.wf = true) :
    (m.storeReplace now a bs s).byte x = if a ≤ x ∧ x < a + bs.length then bs.getD (x - a) 0#8 else m.byte x := by
  rw [← Memory.byte_putBytes a x bs h]
  unfold Memory.byte Memory.storeReplace
  rw [Memory.bytes_afterAll (note := (fun m g => m.putStamp g (clampStamp now s))) (fun _ _ => rfl), Memory.bytes_noteWrites, Memory.bytes_clearTags]

end Machine

end Sys2Proof
end

