-- ==== Sys2Proof/Laws/Records.lean ====
section
/-!
SUPPORT. Reading a thread, a crew, a cohort, a context or an engine thread by name after one of them was written back.
-/

namespace Sys2Proof.Machine

/-- The record that was replaced is found as its replacement. -/
theorem find?_replaceFirst_same {α : Type} (p : α → Bool) (y : α) (l : List α) (hy : p y = true) :
    (replaceFirst p y l).find? p = (l.find? p).map (fun _ => y) := by
  induction l with
  | nil => rfl
  | cons x xs ih =>
    by_cases hp : p x = true
    · simp [replaceFirst, hp, hy]
    · simp [replaceFirst, hp, ih]

/-- A search that no replaced record satisfies finds what it found. -/
theorem find?_replaceFirst_other {α : Type} (p q : α → Bool) (y : α) (l : List α) (hy : q y = false)
    (h : ∀ x, p x = true → q x = false) : (replaceFirst p y l).find? q = l.find? q := by
  induction l with
  | nil => rfl
  | cons x xs ih =>
    by_cases hp : p x = true
    · simp [replaceFirst, hp, hy, h x hp]
    · simp [replaceFirst, hp, List.find?_cons, ih]

theorem State.thread_setThread_same (s : State) (t : Thread) :
    (s.setThread t).thread t.crew t.tid = (s.thread t.crew t.tid).map (fun _ => t) := by
  unfold State.thread State.setThread
  exact find?_replaceFirst_same _ _ _ (by simp)

theorem State.thread_setThread_other (s : State) (t : Thread) (cr tid : Nat) (h : ¬(cr = t.crew ∧ tid = t.tid)) :
    (s.setThread t).thread cr tid = s.thread cr tid := by
  unfold State.thread State.setThread
  refine find?_replaceFirst_other _ _ _ _ ?_ fun x hx => ?_
  · cases hb : (t.crew == cr && t.tid == tid) with
    | false => rfl
    | true => simp only [Bool.and_eq_true, beq_iff_eq] at hb; exact absurd ⟨hb.1.symm, hb.2.symm⟩ h
  · cases hb : (x.crew == cr && x.tid == tid) with
    | false => rfl
    | true =>
      simp only [Bool.and_eq_true, beq_iff_eq] at hb hx
      exact absurd ⟨hb.1.symm.trans hx.1, hb.2.symm.trans hx.2⟩ h

/-- A thread that a search finds has the name that was searched for. -/
theorem State.thread_key {s : State} {cr tid : Nat} {t : Thread} (h : s.thread cr tid = some t) : t.crew = cr ∧ t.tid = tid := by
  have := List.find?_some h
  simpa using this

/-- A thread written back under its own name is found again. -/
theorem State.thread_set {s : State} {cr tid : Nat} {t u : Thread} (h : s.thread cr tid = some t) (hc : u.crew = cr) (ht : u.tid = tid) :
    (s.setThread u).thread cr tid = some u := by
  subst hc ht; rw [State.thread_setThread_same, h]; rfl

theorem State.crew_key {s : State} {cr : Nat} {c : Crew} (h : s.crew cr = some c) : c.uid = cr := by
  have := List.find?_some h
  simpa using this

theorem State.crew_set {s : State} {cr : Nat} {c d : Crew} (h : s.crew cr = some c) (hd : d.uid = cr) : (s.setCrew d).crew cr = some d := by
  subst hd
  unfold State.crew State.setCrew at *
  rw [find?_replaceFirst_same _ _ _ (by simp), h]; rfl

theorem State.crew_setCrew_other (s : State) (d : Crew) (cr : Nat) (h : d.uid ≠ cr) : (s.setCrew d).crew cr = s.crew cr := by
  unfold State.crew State.setCrew
  refine find?_replaceFirst_other _ _ _ _ (by simpa using h) fun x hx => ?_
  simp only [beq_iff_eq] at hx; simpa [hx] using h

theorem State.ctx_key {s : State} {c : Nat} {x : Ctx} (h : s.ctx c = some x) : x.num = c := by
  have := List.find?_some h
  simpa using this

theorem State.ctx_set {s : State} {c : Nat} {x y : Ctx} (h : s.ctx c = some x) (hy : y.num = c) : (s.setCtx y).ctx c = some y := by
  subst hy
  unfold State.ctx State.setCtx at *
  rw [find?_replaceFirst_same _ _ _ (by simp), h]; rfl

theorem State.ctx_setCtx_other (s : State) (y : Ctx) (c : Nat) (h : y.num ≠ c) : (s.setCtx y).ctx c = s.ctx c := by
  unfold State.ctx State.setCtx
  refine find?_replaceFirst_other _ _ _ _ (by simpa using h) fun x hx => ?_
  simp only [beq_iff_eq] at hx; simpa [hx] using h

theorem State.modCrew_some {s : State} {cr : Nat} {c : Crew} (f : Crew → Crew) (h : s.crew cr = some c) :
    s.modCrew cr f = s.setCrew (f c) := by unfold State.modCrew; rw [h]

theorem State.modCtx_some {s : State} {c : Nat} {x : Ctx} (f : Ctx → Ctx) (h : s.ctx c = some x) : s.modCtx c f = s.setCtx (f x) := by
  unfold State.modCtx; rw [h]

/-! Updates of other records leave these searches alone. -/

@[simp] theorem State.thread_setCrew (s : State) (c : Crew) (cr tid : Nat) : (s.setCrew c).thread cr tid = s.thread cr tid := rfl
@[simp] theorem State.thread_setCtx (s : State) (x : Ctx) (cr tid : Nat) : (s.setCtx x).thread cr tid = s.thread cr tid := rfl
@[simp] theorem State.crew_setThread (s : State) (t : Thread) (cr : Nat) : (s.setThread t).crew cr = s.crew cr := rfl
@[simp] theorem State.ctx_setThread (s : State) (t : Thread) (c : Nat) : (s.setThread t).ctx c = s.ctx c := rfl
@[simp] theorem State.ctx_setCrew (s : State) (d : Crew) (c : Nat) : (s.setCrew d).ctx c = s.ctx c := rfl
@[simp] theorem State.crew_setCtx (s : State) (x : Ctx) (cr : Nat) : (s.setCtx x).crew cr = s.crew cr := rfl
@[simp] theorem State.thread_modCrew (s : State) (k : Nat) (f : Crew → Crew) (cr tid : Nat) :
    (s.modCrew k f).thread cr tid = s.thread cr tid := by unfold State.modCrew; split <;> rfl
@[simp] theorem State.thread_modCtx (s : State) (k : Nat) (f : Ctx → Ctx) (cr tid : Nat) :
    (s.modCtx k f).thread cr tid = s.thread cr tid := by unfold State.modCtx; split <;> rfl

end Sys2Proof.Machine
end

