-- ==== Sys2Proof/Laws/Access.lean ====
section
/-!
SUPPORT. What the shared operations of an access can do: the choice of a free value, the walk, reaching a page.
-/

namespace Sys2Proof.Machine

/-- State u is s with, at most, other cached translations and notes of the entries looked up, another count of free values, other notes and
stamps of host lines, further messages to the host, and units of fresh versions made VACANT, noted so in their contexts: what finding
the place of an access may change. -/
structure Found (s u : State) : Prop where
  same : u = { s with tlb := u.tlb, looks := u.looks, freeCtr := u.freeCtr, hl := u.hl, hmem := u.hmem, hostOut := u.hostOut,
                      ctxs := u.ctxs, mem := { s.mem with stamps := u.mem.stamps } }
  contexts : ∀ n, ∃ q : Ctx → List (Nat × Nat), u.ctx n = (s.ctx n).map (fun y => { y with unvacated := q y })
  canonical : s.mem.wf = true → u.mem.wf = true

theorem Found.refl (s : State) : Found s s :=
  { same := rfl, contexts := fun _ => ⟨Ctx.unvacated, by simp⟩, canonical := id }
theorem Found.trans {s u w : State} (h : Found s u) (k : Found u w) : Found s w where
  same := k.same.trans (by rw [h.same])
  canonical := k.canonical ∘ h.canonical
  contexts n := by
    obtain ⟨p, hp⟩ := h.contexts n
    obtain ⟨q, hq⟩ := k.contexts n
    exact ⟨fun y => q { y with unvacated := p y }, by rw [hq, hp]; simp [Function.comp_def]⟩

/-- What such a state shows of threads, crews, memory, time and how accesses are made. -/
theorem Found.cycle {s u : State} (h : Found s u) : u.cycle = s.cycle := by rw [h.same]
theorem Found.now {s u : State} (h : Found s u) : u.now = s.now := by rw [h.same]
theorem Found.byte {s u : State} (h : Found s u) (a : Nat) : u.mem.byte a = s.mem.byte a := by rw [h.same]; rfl
theorem Found.issuing {s u : State} (h : Found s u) : u.issuing = s.issuing := by rw [h.same]
theorem Found.crew {s u : State} (h : Found s u) (n : Nat) : u.crew n = s.crew n := by rw [h.same]; rfl
theorem Found.thread {s u : State} (h : Found s u) (a b : Nat) : u.thread a b = s.thread a b := by rw [h.same]; rfl

/-- A state that differs in the notes alone. -/
theorem Found.notes {s : State} (t l f h m o) :
    Found s { s with tlb := t, looks := l, freeCtr := f, hl := h, hmem := m, hostOut := o } :=
  { same := rfl, contexts := fun _ => ⟨Ctx.unvacated, by simp [State.ctx]⟩, canonical := id }
theorem Found.withHl (s : State) (h : HostLink) : Found s { s with hl := h } := Found.notes s.tlb s.looks s.freeCtr h s.hmem s.hostOut
theorem Found.withCtr (s : State) (n : Nat) : Found s { s with freeCtr := n } := Found.notes s.tlb s.looks n s.hl s.hmem s.hostOut
theorem Found.toHost (s : State) (m : HostMsg) : Found s (s.toHost m) := Found.notes s.tlb s.looks s.freeCtr s.hl s.hmem (s.hostOut ++ [m])
theorem Found.asking (s u : State) : Found s (s.asking u) :=
  Found.notes s.tlb s.looks s.freeCtr { s.hl with snoops := u.hl.snoops } s.hmem u.hostOut

theorem Found.ite {α : Type} {s : State} {c : Prop} [Decidable c] {a b : α × State} (ha : Found s a.2) (hb : Found s b.2) :
    Found s (if c then a else b).2 := by
  split
  · exact ha
  · exact hb

theorem State.choose_found (s : State) (n : Nat) : Found s (s.choose n).2 := Found.withCtr s _

theorem State.noteEntry_found (s : State) (c level vpn e : Nat) : Found s (s.noteEntry c level vpn e) := by
  unfold State.noteEntry
  dsimp only
  split <;> split
  · exact Found.notes _ s.looks s.freeCtr s.hl s.hmem s.hostOut
  · exact Found.notes _ _ s.freeCtr s.hl s.hmem s.hostOut
  · exact Found.refl s
  · exact Found.notes s.tlb _ s.freeCtr s.hl s.hmem s.hostOut

theorem State.fillHost_found (s : State) (pa : Nat) : Found s (s.fillHost pa) := by
  unfold State.fillHost; dsimp only; split
  · exact Found.refl s
  · exact Found.notes s.tlb s.looks s.freeCtr _ _ s.hostOut

theorem State.fillHostRange_found (s : State) (pa n : Nat) : Found s (s.fillHostRange pa n) := by
  unfold State.fillHostRange
  generalize listOf _ _ = l
  induction l generalizing s with
  | nil => exact Found.refl s
  | cons x xs ih => exact (State.fillHost_found s x).trans (ih _)

theorem State.askLine_found (s : State) (pa : Nat) (read : Bool) : Found s (s.askLine pa read) := by
  unfold State.askLine; split
  · exact Found.refl s
  · exact (Found.withHl s _).trans (Found.toHost _ _)

theorem State.readEntry_found (s : State) (a : Nat) (host : Bool) : Found s (s.readEntry a host).2 := by
  unfold State.readEntry; split
  · exact State.fillHost_found s a
  · split
    · exact State.askLine_found s a true
    · exact Found.withHl s _

theorem State.tableEntry_found (s : State) (c level va node : Nat) (host : Bool) : Found s (s.tableEntry c level va node host).2 := by
  unfold State.tableEntry
  dsimp only
  have hr := State.readEntry_found s (node + 8 * walkIndex level va) host
  have hn := fun (u : State) e => State.noteEntry_found u c level (va / 2 ^ levelShift level) e
  generalize s.readEntry (node + 8 * walkIndex level va) host = r at hr
  generalize List.filter _ s.tlb = l
  split
  · exact Found.refl s
  · split
    · exact hr
    · exact hn s _
    · exact hr
    · exact Found.ite (hr.trans (Found.withCtr _ _)) ((State.choose_found s 2).trans (hn _ _))
    · split
      · exact hr.trans (hn _ _)
      · exact Found.ite ((hr.trans (Found.withCtr _ _)).trans (hn _ _)) ((State.choose_found s 2).trans (hn _ _))

theorem State.walkEntry_found (s : State) (c part : Nat) (k : AccKind) (va level node : Nat) (host : Bool) :
    Found s (s.walkEntry c part k va level node host).2 := by
  unfold State.walkEntry
  have h := State.tableEntry_found s c level va node host
  dsimp only
  refine Found.ite (Found.refl s) ?_
  split <;> rename_i he <;> rw [he] at h
  · exact h
  · refine Found.ite h ?_
    split
    · exact h
    · exact h
    · exact Found.ite h (Found.ite h h)
    · exact Found.ite h h

theorem State.walkFrom_found (c part : Nat) (k : AccKind) (va level node : Nat) (host : Bool) (s : State) :
    Found s (State.walkFrom c part k va level node host s).2 := by
  induction level generalizing node host s with
  | zero =>
    unfold State.walkFrom
    have h := State.walkEntry_found s c part k va 0 node host
    split <;> rename_i he <;> rw [he] at h <;> exact h
  | succ level ih =>
    unfold State.walkFrom
    have h := State.walkEntry_found s c part k va (level + 1) node host
    split <;> rename_i he <;> rw [he] at h
    · exact h
    · exact h.trans (ih _ _ _)

theorem State.ctx_setUnvacated {s : State} {c : Nat} {x : Ctx} {l : List (Nat × Nat)} (hx : s.ctx c = some x) (n : Nat) :
    ∃ q : Ctx → List (Nat × Nat), (s.setCtx { x with unvacated := l }).ctx n = (s.ctx n).map (fun y => { y with unvacated := q y }) := by
  obtain rfl := State.ctx_key hx
  generalize hy : ({ x with unvacated := l } : Ctx) = y
  have hn : y.num = x.num := by rw [← hy]
  by_cases h : x.num = n
  · subst h; exact ⟨fun _ => l, by rw [State.ctx_set hx hn, hx, ← hy]; rfl⟩
  · exact ⟨fun y => y.unvacated, by rw [State.ctx_setCtx_other _ _ _ (hn ▸ h)]; simp⟩

theorem State.reachFresh_found (s : State) (c va pa : Nat) (host : Bool) : Found s (s.reachFresh c va pa host) := by
  have keeps : ∀ (us : List (Nat × Nat)) (m : Memory),
      (us.foldl (fun m u => m.vacate (pa - va % 65536 + u.1 % 65536) u.2) m)
        = { m with stamps := (us.foldl (fun m u => m.vacate (pa - va % 65536 + u.1 % 65536) u.2) m).stamps } := fun us => by
    induction us with
    | nil => exact fun m => rfl
    | cons x rest ih => exact fun m => by rw [List.foldl_cons, ih]; rfl
  unfold State.reachFresh
  split
  · exact Found.refl s
  · rename_i x hx
    split
    · exact Found.refl s
    · rename_i us _
      dsimp only
      have hc := State.ctx_setUnvacated (l := x.unvacated.filter (fun u => u.1 / 65536 != va / 65536)) hx
      split
      · exact { same := rfl, contexts := hc, canonical := id }
      · have any : ∀ m : Memory, m = { s.mem with stamps := m.stamps } → (s.mem.wf = true → m.wf = true) →
            Found s { s.setCtx { x with unvacated := x.unvacated.filter (fun u => u.1 / 65536 != va / 65536) } with mem := m } :=
          fun m hm hw => { same := by rw [← hm]; rfl, contexts := hc, canonical := hw }
        exact any _ (keeps _ s.mem) (Memory.wf_afterAll (fun _ _ => Memory.wf_vacate _ _) _)

/-- Translation changes no more than that. -/
theorem State.translate_found (s : State) (c : Nat) (k : AccKind) (va n : Nat) : Found s (s.translate c k va n).2 := by
  unfold State.translate
  split
  · exact Found.refl s
  · split
    · exact Found.refl s
    · rename_i x _ _
      have h := State.walkFrom_found c x.part k va 3 x.root false s
      split
      · rename_i pa host u he; rw [he] at h
        exact Found.ite (h.trans (State.reachFresh_found ..)) h
      · exact Found.asking s _
      · exact h

/-- An access that reaches a page has changed no more than that. -/
theorem State.reach_found {s u : State} {t : Thread} {k : AccKind} {va n pa : Nat} {ok host : Bool}
    (h : s.reach t k va n ok = .ok (pa, host, u)) : Found s u := by
  unfold State.reach at h
  have hf := State.translate_found s (s.ctxOf t) k va n
  generalize s.translate (s.ctxOf t) k va n = r at h hf
  obtain ⟨w, s1⟩ := r
  split at h
  · rename_i he; cases he
    split at h
    · cases h; exact hf.trans (State.fillHostRange_found ..)
    · cases h
  · rename_i he; cases he
    split at h
    · cases h; exact hf.trans (Found.withHl s1 _)
    · cases h
  · cases h
  · cases h

end Sys2Proof.Machine
end

