-- ==== Sys2Proof/Laws/Bytes.lean ====
section
/-!
SUPPORT. Numbers as little-endian bytes: lengths and the way back.
-/

namespace Sys2Proof

@[simp] theorem toBytes_length (n x : Nat) : (toBytes n x).length = n := by
  induction n generalizing x with
  | zero => rfl
  | succ n ih => simp [toBytes, ih]

theorem ofBytes_toBytes (n x : Nat) : ofBytes (toBytes n x) = x % 256 ^ n := by
  induction n generalizing x with
  | zero => simp [toBytes, ofBytes, Nat.mod_one]
  | succ n ih =>
    simp only [toBytes, ofBytes, ih, BitVec.toNat_ofNat]
    rw [show 256 ^ (n + 1) = 256 * 256 ^ n from Nat.pow_succ', Nat.mod_mul]

theorem ofBytes_lt (l : List Byte) : ofBytes l < 256 ^ l.length := by
  induction l with
  | nil => simp [ofBytes]
  | cons b l ih =>
    have := b.isLt
    simp only [ofBytes, List.length_cons, Nat.pow_succ]
    omega

theorem ofBytes_append (l m : List Byte) : ofBytes (l ++ m) = ofBytes l + 256 ^ l.length * ofBytes m := by
  induction l with
  | nil => simp [ofBytes]
  | cons b l ih =>
    simp only [List.cons_append, ofBytes, ih, List.length_cons, Nat.pow_succ, Nat.mul_add, Nat.add_assoc, Nat.mul_comm (256 ^ l.length) 256,
      Nat.mul_assoc]

/-- Reading 32 bits back from four bytes. -/
theorem ofNat_ofBytes_toBytes (n : Nat) (x : BitVec (8 * n)) : BitVec.ofNat (8 * n) (ofBytes (toBytes n x.toNat)) = x := by
  apply BitVec.eq_of_toNat_eq
  have h : 256 ^ n = 2 ^ (8 * n) := by rw [Nat.pow_mul]
  have := x.isLt
  rw [BitVec.toNat_ofNat, ofBytes_toBytes, h, Nat.mod_mod, Nat.mod_eq_of_lt this]

end Sys2Proof
end

