-- ==== Sys2Proof/Laws/Dispatch.lean ====
section
/-!
SUPPORT. Which meaning `exec` gives each instruction: one equation per constructor, so that no proof unfolds the dispatch.
-/

namespace Sys2Proof.Machine

theorem exec_bra (s : State) {o} : exec (.bra o) s = execBra o s := rfl
theorem exec_bz (s : State) {a o} : exec (.bz a o) s = execBz a o s := rfl
theorem exec_bnz (s : State) {a o} : exec (.bnz a o) s = execBnz a o s := rfl
theorem exec_call (s : State) {o} : exec (.call o) s = execCall o s := rfl
theorem exec_jmpr (s : State) {a} : exec (.jmpr a) s = execJmpr a s := rfl
theorem exec_cjoin (s : State) {k} : exec (.cjoin k) s = execCjoin k s := rfl
theorem exec_bmask (s : State) {a k} : exec (.bmask a k) s = execBmask a k s := rfl
theorem exec_cleave (s : State) {k} : exec (.cleave k) s = execCleave k s := rfl
theorem exec_winb (s : State) {k} : exec (.winb k) s = execWinb k s := rfl
theorem exec_rep (s : State) {t k} : exec (.rep t k) s = execRep t k s := rfl
theorem exec_trap (s : State) {k} : exec (.trap k) s = execTrap k s := rfl
theorem exec_bkpt (s : State) {k} : exec (.bkpt k) s = execBkpt k s := rfl
theorem exec_sleep (s : State) {a} : exec (.sleep a) s = execSleep a s := rfl
theorem exec_add (s : State) {t d a b} : exec (.add t d a b) s = execAdd t d a b s := rfl
theorem exec_addi (s : State) {t d a k} : exec (.addi t d a k) s = execAddi t d a k s := rfl
theorem exec_sub (s : State) {t d a b} : exec (.sub t d a b) s = execSub t d a b s := rfl
theorem exec_mul (s : State) {t d a b} : exec (.mul t d a b) s = execMul t d a b s := rfl
theorem exec_mulhs (s : State) {t d a b} : exec (.mulhs t d a b) s = execMulhs t d a b s := rfl
theorem exec_mulhn (s : State) {t d a b} : exec (.mulhn t d a b) s = execMulhn t d a b s := rfl
theorem exec_mad (s : State) {t d a b c} : exec (.mad t d a b c) s = execMad t d a b c s := rfl
theorem exec_mins (s : State) {t d a b} : exec (.mins t d a b) s = execMins t d a b s := rfl
theorem exec_minn (s : State) {t d a b} : exec (.minn t d a b) s = execMinn t d a b s := rfl
theorem exec_maxs (s : State) {t d a b} : exec (.maxs t d a b) s = execMaxs t d a b s := rfl
theorem exec_maxn (s : State) {t d a b} : exec (.maxn t d a b) s = execMaxn t d a b s := rfl
theorem exec_abs (s : State) {t d a} : exec (.abs t d a) s = execAbs t d a s := rfl
theorem exec_neg (s : State) {t d a} : exec (.neg t d a) s = execNeg t d a s := rfl
theorem exec_and (s : State) {d a b} : exec (.and d a b) s = execAnd d a b s := rfl
theorem exec_or (s : State) {d a b} : exec (.or d a b) s = execOr d a b s := rfl
theorem exec_xor (s : State) {d a b} : exec (.xor d a b) s = execXor d a b s := rfl
theorem exec_andn (s : State) {d a b} : exec (.andn d a b) s = execAndn d a b s := rfl
theorem exec_not (s : State) {d a} : exec (.not d a) s = execNot d a s := rfl
theorem exec_shl (s : State) {t d a b} : exec (.shl t d a b) s = execShl t d a b s := rfl
theorem exec_shr (s : State) {t d a b} : exec (.shr t d a b) s = execShr t d a b s := rfl
theorem exec_sra (s : State) {t d a b} : exec (.sra t d a b) s = execSra t d a b s := rfl
theorem exec_shli (s : State) {t d a k} : exec (.shli t d a k) s = execShli t d a k s := rfl
theorem exec_shri (s : State) {t d a k} : exec (.shri t d a k) s = execShri t d a k s := rfl
theorem exec_srai (s : State) {t d a k} : exec (.srai t d a k) s = execSrai t d a k s := rfl
theorem exec_rotl (s : State) {t d a b} : exec (.rotl t d a b) s = execRotl t d a b s := rfl
theorem exec_popc (s : State) {t d a} : exec (.popc t d a) s = execPopc t d a s := rfl
theorem exec_clz (s : State) {t d a} : exec (.clz t d a) s = execClz t d a s := rfl
theorem exec_brev (s : State) {t d a} : exec (.brev t d a) s = execBrev t d a s := rfl
theorem exec_bfx (s : State) {d a b} : exec (.bfx d a b) s = execBfx d a b s := rfl
theorem exec_bfi (s : State) {d a b c} : exec (.bfi d a b c) s = execBfi d a b c s := rfl
theorem exec_cmpeq (s : State) {t d a b} : exec (.cmpeq t d a b) s = execCmpeq t d a b s := rfl
theorem exec_cmplts (s : State) {t d a b} : exec (.cmplts t d a b) s = execCmplts t d a b s := rfl
theorem exec_cmpltn (s : State) {t d a b} : exec (.cmpltn t d a b) s = execCmpltn t d a b s := rfl
theorem exec_cmples (s : State) {t d a b} : exec (.cmples t d a b) s = execCmples t d a b s := rfl
theorem exec_cmplen (s : State) {t d a b} : exec (.cmplen t d a b) s = execCmplen t d a b s := rfl
theorem exec_sel (s : State) {t d a b c} : exec (.sel t d a b c) s = execSel t d a b c s := rfl
theorem exec_mov (s : State) {d a} : exec (.mov d a) s = execMov d a s := rfl
theorem exec_li (s : State) {d lit} : exec (.li d lit) s = execLi d lit s := rfl
theorem exec_lih (s : State) {d a lit} : exec (.lih d a lit) s = execLih d a lit s := rfl
theorem exec_lea (s : State) {d a b} : exec (.lea d a b) s = execLea d a b s := rfl
theorem exec_fadd (s : State) {t d a b} : exec (.fadd t d a b) s = execFadd t d a b s := rfl
theorem exec_fsub (s : State) {t d a b} : exec (.fsub t d a b) s = execFsub t d a b s := rfl
theorem exec_fmul (s : State) {t d a b} : exec (.fmul t d a b) s = execFmul t d a b s := rfl
theorem exec_ffma (s : State) {t d a b c} : exec (.ffma t d a b c) s = execFfma t d a b c s := rfl
theorem exec_fmin (s : State) {t d a b} : exec (.fmin t d a b) s = execFmin t d a b s := rfl
theorem exec_fmax (s : State) {t d a b} : exec (.fmax t d a b) s = execFmax t d a b s := rfl
theorem exec_fabs (s : State) {t d a} : exec (.fabs t d a) s = execFabs t d a s := rfl
theorem exec_fneg (s : State) {t d a} : exec (.fneg t d a) s = execFneg t d a s := rfl
theorem exec_fcmpeq (s : State) {t d a b} : exec (.fcmpeq t d a b) s = execFcmpeq t d a b s := rfl
theorem exec_fcmplt (s : State) {t d a b} : exec (.fcmplt t d a b) s = execFcmplt t d a b s := rfl
theorem exec_fcmple (s : State) {t d a b} : exec (.fcmple t d a b) s = execFcmple t d a b s := rfl
theorem exec_fcmpun (s : State) {t d a b} : exec (.fcmpun t d a b) s = execFcmpun t d a b s := rfl
theorem exec_frcp (s : State) {t d a} : exec (.frcp t d a) s = execFrcp t d a s := rfl
theorem exec_frsq (s : State) {t d a} : exec (.frsq t d a) s = execFrsq t d a s := rfl
theorem exec_fsqrt (s : State) {t d a} : exec (.fsqrt t d a) s = execFsqrt t d a s := rfl
theorem exec_fexp2 (s : State) {t d a} : exec (.fexp2 t d a) s = execFexp2 t d a s := rfl
theorem exec_flog2 (s : State) {t d a} : exec (.flog2 t d a) s = execFlog2 t d a s := rfl
theorem exec_fsin (s : State) {t d a} : exec (.fsin t d a) s = execFsin t d a s := rfl
theorem exec_fcos (s : State) {t d a} : exec (.fcos t d a) s = execFcos t d a s := rfl
theorem exec_fscale (s : State) {t d a b} : exec (.fscale t d a b) s = execFscale t d a b s := rfl
theorem exec_fclass (s : State) {t d a} : exec (.fclass t d a) s = execFclass t d a s := rfl
theorem exec_fdot (s : State) {t d a b} : exec (.fdot t d a b) s = execFdot t d a b s := rfl
theorem exec_fsum (s : State) {t d a} : exec (.fsum t d a) s = execFsum t d a s := rfl
theorem exec_fcvt (s : State) {t d a k} : exec (.fcvt t d a k) s = execFcvt t d a k s := rfl
theorem exec_fcvtam (s : State) {t d a k} : exec (.fcvtam t d a k) s = execFcvtam t d a k s := rfl
theorem exec_f2i (s : State) {t d a k} : exec (.f2i t d a k) s = execF2i t d a k s := rfl
theorem exec_i2f (s : State) {t d a k} : exec (.i2f t d a k) s = execI2f t d a k s := rfl
theorem exec_qpack (s : State) {t d a b} : exec (.qpack t d a b) s = execQpack t d a b s := rfl
theorem exec_qpackGs (s : State) {d a} : exec (.qpackGs d a) s = execQpackGs d a s := rfl
theorem exec_qpackBs (s : State) {d a b} : exec (.qpackBs d a b) s = execQpackBs d a b s := rfl
theorem exec_qunpk (s : State) {t d a b} : exec (.qunpk t d a b) s = execQunpk t d a b s := rfl
theorem exec_fpack (s : State) {t d a b} : exec (.fpack t d a b) s = execFpack t d a b s := rfl
theorem exec_funpk (s : State) {t d a} : exec (.funpk t d a) s = execFunpk t d a s := rfl
theorem exec_shfl (s : State) {d a b} : exec (.shfl d a b) s = execShfl d a b s := rfl
theorem exec_shfliIdx (s : State) {d a k} : exec (.shfliIdx d a k) s = execShfliIdx d a k s := rfl
theorem exec_shfliUp (s : State) {d a k} : exec (.shfliUp d a k) s = execShfliUp d a k s := rfl
theorem exec_shfliDown (s : State) {d a k} : exec (.shfliDown d a k) s = execShfliDown d a k s := rfl
theorem exec_shfliXor (s : State) {d a k} : exec (.shfliXor d a k) s = execShfliXor d a k s := rfl
theorem exec_voteall (s : State) {d a} : exec (.voteall d a) s = execVoteall d a s := rfl
theorem exec_voteany (s : State) {d a} : exec (.voteany d a) s = execVoteany d a s := rfl
theorem exec_ballot (s : State) {d a} : exec (.ballot d a) s = execBallot d a s := rfl
theorem exec_matchA (s : State) {d a} : exec (.matchA d a) s = execMatchA d a s := rfl
theorem exec_scanadd (s : State) {t d a} : exec (.scanadd t d a) s = execScanadd t d a s := rfl
theorem exec_scanaddx (s : State) {t d a} : exec (.scanaddx t d a) s = execScanaddx t d a s := rfl
theorem exec_redadd (s : State) {t d a} : exec (.redadd t d a) s = execRedadd t d a s := rfl
theorem exec_redmaxs (s : State) {t d a} : exec (.redmaxs t d a) s = execRedmaxs t d a s := rfl
theorem exec_redmaxn (s : State) {t d a} : exec (.redmaxn t d a) s = execRedmaxn t d a s := rfl
theorem exec_redmins (s : State) {t d a} : exec (.redmins t d a) s = execRedmins t d a s := rfl
theorem exec_redminn (s : State) {t d a} : exec (.redminn t d a) s = execRedminn t d a s := rfl
theorem exec_redor (s : State) {t d a} : exec (.redor t d a) s = execRedor t d a s := rfl
theorem exec_fredadd (s : State) {t d a} : exec (.fredadd t d a) s = execFredadd t d a s := rfl
theorem exec_fscanadd (s : State) {t d a} : exec (.fscanadd t d a) s = execFscanadd t d a s := rfl
theorem exec_elect (s : State) {d} : exec (.elect d) s = execElect d s := rfl
theorem exec_memb (s : State) {d} : exec (.memb d) s = execMemb d s := rfl
theorem exec_ld8 (s : State) {x d a o} : exec (.ld8 x d a o) s = execLd8 x d a o s := rfl
theorem exec_ld16 (s : State) {x d a o} : exec (.ld16 x d a o) s = execLd16 x d a o s := rfl
theorem exec_ld32 (s : State) {x d a o} : exec (.ld32 x d a o) s = execLd32 x d a o s := rfl
theorem exec_ld64 (s : State) {x d a o} : exec (.ld64 x d a o) s = execLd64 x d a o s := rfl
theorem exec_ld128 (s : State) {x d a o} : exec (.ld128 x d a o) s = execLd128 x d a o s := rfl
theorem exec_ldx8 (s : State) {x d a o} : exec (.ldx8 x d a o) s = execLdx8 x d a o s := rfl
theorem exec_ldx16 (s : State) {x d a o} : exec (.ldx16 x d a o) s = execLdx16 x d a o s := rfl
theorem exec_ldx32 (s : State) {x d a o} : exec (.ldx32 x d a o) s = execLdx32 x d a o s := rfl
theorem exec_st8 (s : State) {d a o} : exec (.st8 d a o) s = execSt8 d a o s := rfl
theorem exec_st16 (s : State) {d a o} : exec (.st16 d a o) s = execSt16 d a o s := rfl
theorem exec_st32 (s : State) {d a o} : exec (.st32 d a o) s = execSt32 d a o s := rfl
theorem exec_st64 (s : State) {d a o} : exec (.st64 d a o) s = execSt64 d a o s := rfl
theorem exec_st128 (s : State) {d a o} : exec (.st128 d a o) s = execSt128 d a o s := rfl
theorem exec_stg64 (s : State) {d a o} : exec (.stg64 d a o) s = execStg64 d a o s := rfl
theorem exec_stg128 (s : State) {d a o} : exec (.stg128 d a o) s = execStg128 d a o s := rfl
theorem exec_pref (s : State) {a o} : exec (.pref a o) s = execPref a o s := rfl
theorem exec_lds8 (s : State) {x d a o} : exec (.lds8 x d a o) s = execLds8 x d a o s := rfl
theorem exec_lds16 (s : State) {x d a o} : exec (.lds16 x d a o) s = execLds16 x d a o s := rfl
theorem exec_lds32 (s : State) {x d a o} : exec (.lds32 x d a o) s = execLds32 x d a o s := rfl
theorem exec_lds64 (s : State) {x d a o} : exec (.lds64 x d a o) s = execLds64 x d a o s := rfl
theorem exec_lds128 (s : State) {x d a o} : exec (.lds128 x d a o) s = execLds128 x d a o s := rfl
theorem exec_sts8 (s : State) {d a o} : exec (.sts8 d a o) s = execSts8 d a o s := rfl
theorem exec_sts16 (s : State) {d a o} : exec (.sts16 d a o) s = execSts16 d a o s := rfl
theorem exec_sts32 (s : State) {d a o} : exec (.sts32 d a o) s = execSts32 d a o s := rfl
theorem exec_sts64 (s : State) {d a o} : exec (.sts64 d a o) s = execSts64 d a o s := rfl
theorem exec_sts128 (s : State) {d a o} : exec (.sts128 d a o) s = execSts128 d a o s := rfl
theorem exec_atadd32 (s : State) {t d a b} : exec (.atadd32 t d a b) s = execAtadd32 t d a b s := rfl
theorem exec_atadd64 (s : State) {t d a b} : exec (.atadd64 t d a b) s = execAtadd64 t d a b s := rfl
theorem exec_atmaxs32 (s : State) {t d a b} : exec (.atmaxs32 t d a b) s = execAtmaxs32 t d a b s := rfl
theorem exec_atmaxn32 (s : State) {t d a b} : exec (.atmaxn32 t d a b) s = execAtmaxn32 t d a b s := rfl
theorem exec_atmins32 (s : State) {t d a b} : exec (.atmins32 t d a b) s = execAtmins32 t d a b s := rfl
theorem exec_atminn32 (s : State) {t d a b} : exec (.atminn32 t d a b) s = execAtminn32 t d a b s := rfl
theorem exec_ator64 (s : State) {t d a b} : exec (.ator64 t d a b) s = execAtor64 t d a b s := rfl
theorem exec_atand64 (s : State) {t d a b} : exec (.atand64 t d a b) s = execAtand64 t d a b s := rfl
theorem exec_atxor64 (s : State) {t d a b} : exec (.atxor64 t d a b) s = execAtxor64 t d a b s := rfl
theorem exec_atxch64 (s : State) {t d a b} : exec (.atxch64 t d a b) s = execAtxch64 t d a b s := rfl
theorem exec_atcas64 (s : State) {t d a b} : exec (.atcas64 t d a b) s = execAtcas64 t d a b s := rfl
theorem exec_fatadd32 (s : State) {t d a b} : exec (.fatadd32 t d a b) s = execFatadd32 t d a b s := rfl
theorem exec_fatmax32 (s : State) {t d a b} : exec (.fatmax32 t d a b) s = execFatmax32 t d a b s := rfl
theorem exec_waitv (s : State) {t d a b} : exec (.waitv t d a b) s = execWaitv t d a b s := rfl
theorem exec_capinc (s : State) {d a b} : exec (.capinc d a b) s = execCapinc d a b s := rfl
theorem exec_capnrw (s : State) {d a b} : exec (.capnrw d a b) s = execCapnrw d a b s := rfl
theorem exec_capperm (s : State) {d a b} : exec (.capperm d a b) s = execCapperm d a b s := rfl
theorem exec_capget (s : State) {d k} : exec (.capget d k) s = execCapget d k s := rfl
theorem exec_capchk (s : State) {d a b} : exec (.capchk d a b) s = execCapchk d a b s := rfl
theorem exec_capscr (s : State) {d a b} : exec (.capscr d a b) s = execCapscr d a b s := rfl
theorem exec_capmov (s : State) {d a} : exec (.capmov d a) s = execCapmov d a s := rfl
theorem exec_bcopy (s : State) {a} : exec (.bcopy a) s = execBcopy a s := rfl
theorem exec_bfill (s : State) {a} : exec (.bfill a) s = execBfill a s := rfl
theorem exec_bput (s : State) {a} : exec (.bput a) s = execBput a s := rfl
theorem exec_bget (s : State) {a} : exec (.bget a) s = execBget a s := rfl
theorem exec_batomAdd (s : State) {d a} : exec (.batomAdd d a) s = execBatomAdd d a s := rfl
theorem exec_batomOr (s : State) {d a} : exec (.batomOr d a) s = execBatomOr d a s := rfl
theorem exec_batomXch (s : State) {d a} : exec (.batomXch d a) s = execBatomXch d a s := rfl
theorem exec_batomCas (s : State) {d a} : exec (.batomCas d a) s = execBatomCas d a s := rfl
theorem exec_batomMaxn (s : State) {d a} : exec (.batomMaxn d a) s = execBatomMaxn d a s := rfl
theorem exec_batomFadd (s : State) {d a} : exec (.batomFadd d a) s = execBatomFadd d a s := rfl
theorem exec_actr (s : State) {d a b} : exec (.actr d a b) s = execActr d a b s := rfl
theorem exec_waitc (s : State) {a b} : exec (.waitc a b) s = execWaitc a b s := rfl
theorem exec_actrdBind (s : State) {a b} : exec (.actrdBind a b) s = execActrdBind a b s := rfl
theorem exec_actrdUnbind (s : State) {a b} : exec (.actrdUnbind a b) s = execActrdUnbind a b s := rfl
theorem exec_send (s : State) {d a k} : exec (.send d a k) s = execSend d a k s := rfl
theorem exec_leaseq (s : State) {d k} : exec (.leaseq d k) s = execLeaseq d k s := rfl
theorem exec_mload (s : State) {a} : exec (.mload a) s = execMload a s := rfl
theorem exec_mstream (s : State) {a} : exec (.mstream a) s = execMstream a s := rfl
theorem exec_mzero (s : State) {a} : exec (.mzero a) s = execMzero a s := rfl
theorem exec_mread (s : State) {t d a} : exec (.mread t d a) s = execMread t d a s := rfl
theorem exec_mscale (s : State) {a} : exec (.mscale a) s = execMscale a s := rfl
theorem exec_mnorm (s : State) {a} : exec (.mnorm a) s = execMnorm a s := rfl
theorem exec_mdrain (s : State) {a z} : exec (.mdrain a z) s = execMdrain a z s := rfl
theorem exec_mstat (s : State) {c d} : exec (.mstat c d) s = execMstat c d s := rfl
theorem exec_bar (s : State) {k} : exec (.bar k) s = execBar k s := rfl
theorem exec_sbar (s : State) {k} : exec (.sbar k) s = execSbar k s := rfl
theorem exec_arrive (s : State) {d k} : exec (.arrive d k) s = execArrive d k s := rfl
theorem exec_await (s : State) {a k} : exec (.await a k) s = execAwait a k s := rfl
theorem exec_movs (s : State) {d k} : exec (.movs d k) s = execMovs d k s := rfl
theorem exec_movsw (s : State) {a k} : exec (.movsw a k) s = execMovsw a k s := rfl
theorem exec_stampr (s : State) {d a} : exec (.stampr d a) s = execStampr d a s := rfl
theorem exec_agejoin (s : State) {d a b} : exec (.agejoin d a b) s = execAgejoin d a b s := rfl
theorem exec_age (s : State) {d a} : exec (.age d a) s = execAge d a s := rfl
theorem exec_agechk (s : State) {x a} : exec (.agechk x a) s = execAgechk x a s := rfl
theorem exec_pagedoneResume (s : State) {a b} : exec (.pagedoneResume a b) s = execPagedoneResume a b s := rfl
theorem exec_pagedoneMap (s : State) {a b} : exec (.pagedoneMap a b) s = execPagedoneMap a b s := rfl
theorem exec_pagedoneFail (s : State) {a b} : exec (.pagedoneFail a b) s = execPagedoneFail a b s := rfl
theorem exec_csrr (s : State) {t d k} : exec (.csrr t d k) s = execCsrr t d k s := rfl
theorem exec_csrw (s : State) {t a k} : exec (.csrw t a k) s = execCsrw t a k s := rfl
theorem exec_stampsetReg (s : State) {d a b} : exec (.stampsetReg d a b) s = execStampsetReg d a b s := rfl
theorem exec_stampsetGranule (s : State) {a b} : exec (.stampsetGranule a b) s = execStampsetGranule a b s := rfl
theorem exec_cmapw (s : State) {d a b} : exec (.cmapw d a b) s = execCmapw d a b s := rfl
theorem exec_tlbinv (s : State) {a b} : exec (.tlbinv a b) s = execTlbinv a b s := rfl
theorem exec_haltcHalt (s : State) {a b} : exec (.haltcHalt a b) s = execHaltcHalt a b s := rfl
theorem exec_haltcResume (s : State) {a b} : exec (.haltcResume a b) s = execHaltcResume a b s := rfl
theorem exec_haltcDebugHalt (s : State) {a b} : exec (.haltcDebugHalt a b) s = execHaltcDebugHalt a b s := rfl
theorem exec_dbgstep (s : State) {a} : exec (.dbgstep a) s = execDbgstep a s := rfl
theorem exec_tbuf (s : State) {sl} : exec (.tbuf sl) s = execTbuf sl s := rfl
theorem exec_tdrop (s : State) {sl} : exec (.tdrop sl) s = execTdrop sl s := rfl
theorem exec_tlaunch (s : State) {sl} : exec (.tlaunch sl) s = execTlaunch sl s := rfl
theorem exec_tcopy (s : State) {sl} : exec (.tcopy sl) s = execTcopy sl s := rfl
theorem exec_tfill (s : State) {sl} : exec (.tfill sl) s = execTfill sl s := rfl
theorem exec_tstamp (s : State) {sl} : exec (.tstamp sl) s = execTstamp sl s := rfl
theorem exec_tbr (s : State) {sl} : exec (.tbr sl) s = execTbr sl s := rfl
theorem exec_tbrc (s : State) {sl} : exec (.tbrc sl) s = execTbrc sl s := rfl
theorem exec_tcall (s : State) {sl} : exec (.tcall sl) s = execTcall sl s := rfl
theorem exec_tretTask (s : State) {sl} : exec (.tretTask sl) s = execTretTask sl s := rfl
theorem exec_twaitv (s : State) {sl} : exec (.twaitv sl) s = execTwaitv sl s := rfl
theorem exec_tsig (s : State) {sl} : exec (.tsig sl) s = execTsig sl s := rfl
theorem exec_tmark (s : State) {sl} : exec (.tmark sl) s = execTmark sl s := rfl
theorem exec_tfence (s : State) {sl} : exec (.tfence sl) s = execTfence sl s := rfl
theorem exec_tlease (s : State) {sl} : exec (.tlease sl) s = execTlease sl s := rfl
theorem exec_trotate (s : State) {sl} : exec (.trotate sl) s = execTrotate sl s := rfl
theorem exec_tport (s : State) {sl} : exec (.tport sl) s = execTport sl s := rfl
theorem exec_tscope (s : State) {sl} : exec (.tscope sl) s = execTscope sl s := rfl
theorem exec_tsetk (s : State) {sl} : exec (.tsetk sl) s = execTsetk sl s := rfl
theorem exec_taddk (s : State) {sl} : exec (.taddk sl) s = execTaddk sl s := rfl
theorem exec_tbrk (s : State) {sl} : exec (.tbrk sl) s = execTbrk sl s := rfl
theorem exec_tpagerRegister (s : State) {sl} : exec (.tpagerRegister sl) s = execTpagerRegister sl s := rfl
theorem exec_tpagerUnregister (s : State) {sl} : exec (.tpagerUnregister sl) s = execTpagerUnregister sl s := rfl
theorem exec_tctxCreate (s : State) {sl} : exec (.tctxCreate sl) s = execTctxCreate sl s := rfl
theorem exec_tctxDestroy (s : State) {sl} : exec (.tctxDestroy sl) s = execTctxDestroy sl s := rfl
theorem exec_tctxHalt (s : State) {sl} : exec (.tctxHalt sl) s = execTctxHalt sl s := rfl
theorem exec_tctxResume (s : State) {sl} : exec (.tctxResume sl) s = execTctxResume sl s := rfl
theorem exec_tctxSetPriority (s : State) {sl} : exec (.tctxSetPriority sl) s = execTctxSetPriority sl s := rfl
theorem exec_tnop (s : State) {sl} : exec (.tnop sl) s = execTnop sl s := rfl
theorem exec_longLatencyComplete (s : State) {cr tid op} : exec (.longLatencyComplete cr tid op) s = execLongLatencyComplete cr tid op s := rfl
theorem exec_enginePacket (s : State) {e p} : exec (.enginePacket e p) s = execEnginePacket e p s := rfl
theorem exec_engineComplete (s : State) {e} : exec (.engineComplete e) s = execEngineComplete e s := rfl
theorem exec_sleepEnd (s : State) {cr tid} : exec (.sleepEnd cr tid) s = execSleepEnd cr tid s := rfl
theorem exec_slotAccept (s : State) {c} : exec (.slotAccept c) s = execSlotAccept c s := rfl
theorem exec_taskIssue (s : State) {c t} : exec (.taskIssue c t) s = execTaskIssue c t s := rfl
theorem exec_taskRetire (s : State) {c} : exec (.taskRetire c) s = execTaskRetire c s := rfl
theorem exec_cohortAdmit (s : State) {die} : exec (.cohortAdmit die) s = execCohortAdmit die s := rfl
theorem exec_cohortStart (s : State) {h} : exec (.cohortStart h) s = execCohortStart h s := rfl
theorem exec_crewRelease (s : State) {cr} : exec (.crewRelease cr) s = execCrewRelease cr s := rfl
theorem exec_rendezvousStall (s : State) {cr rid} : exec (.rendezvousStall cr rid) s = execRendezvousStall cr rid s := rfl
theorem exec_waitvReread (s : State) {cr tid} : exec (.waitvReread cr tid) s = execWaitvReread cr tid s := rfl
theorem exec_waitcReread (s : State) {cr tid} : exec (.waitcReread cr tid) s = execWaitcReread cr tid s := rfl
theorem exec_matrixStep (s : State) {cluster} : exec (.matrixStep cluster) s = execMatrixStep cluster s := rfl
theorem exec_updateStep (s : State) {cluster} : exec (.updateStep cluster) s = execUpdateStep cluster s := rfl
theorem exec_twaitvReread (s : State) {c t} : exec (.twaitvReread c t) s = execTwaitvReread c t s := rfl
theorem exec_waitTimeout (s : State) {c t} : exec (.waitTimeout c t) s = execWaitTimeout c t s := rfl
theorem exec_poolEntryTake (s : State) {c} : exec (.poolEntryTake c) s = execPoolEntryTake c s := rfl
theorem exec_taskFault (s : State) {c} : exec (.taskFault c) s = execTaskFault c s := rfl
theorem exec_freshnessFault (s : State) {c} : exec (.freshnessFault c) s = execFreshnessFault c s := rfl
theorem exec_egressRelease (s : State) {c t} : exec (.egressRelease c t) s = execEgressRelease c t s := rfl
theorem exec_ingressConsume (s : State) {c t} : exec (.ingressConsume c t) s = execIngressConsume c t s := rfl
theorem exec_unitStopAck (s : State) {c u} : exec (.unitStopAck c u) s = execUnitStopAck c u s := rfl
theorem exec_contextRestore (s : State) {c} : exec (.contextRestore c) s = execContextRestore c s := rfl
theorem exec_islandPowerDown (s : State) {x} : exec (.islandPowerDown x) s = execIslandPowerDown x s := rfl
theorem exec_islandPowerUp (s : State) {x} : exec (.islandPowerUp x) s = execIslandPowerUp x s := rfl
theorem exec_pagerRecordWrite (s : State) {c p} : exec (.pagerRecordWrite c p) s = execPagerRecordWrite c p s := rfl
theorem exec_stampScanVisit (s : State) {l} : exec (.stampScanVisit l) s = execStampScanVisit l s := rfl
theorem exec_eftPatrolVisit (s : State) {stack line} : exec (.eftPatrolVisit stack line) s = execEftPatrolVisit stack line s := rfl
theorem exec_correctableError (s : State) {u pa} : exec (.correctableError u pa) s = execCorrectableError u pa s := rfl
theorem exec_uncorrectableDataError (s : State) {l u} : exec (.uncorrectableDataError l u) s = execUncorrectableDataError l u s := rfl
theorem exec_coreFault (s : State) {core} : exec (.coreFault core) s = execCoreFault core s := rfl
theorem exec_coreReset (s : State) {core} : exec (.coreReset core) s = execCoreReset core s := rfl
theorem exec_matrixUnitReset (s : State) {cluster} : exec (.matrixUnitReset cluster) s = execMatrixUnitReset cluster s := rfl
theorem exec_copyEngineReset (s : State) {e} : exec (.copyEngineReset e) s = execCopyEngineReset e s := rfl
theorem exec_windowLogicReset (s : State) {die} : exec (.windowLogicReset die) s = execWindowLogicReset die s := rfl
theorem exec_memrd (s : State) {pa} : exec (.memrd pa) s = execMemrd pa s := rfl
theorem exec_memrdCaching (s : State) {pa} : exec (.memrdCaching pa) s = execMemrdCaching pa s := rfl
theorem exec_memwr (s : State) {pa data} : exec (.memwr pa data) s = execMemwr pa data s := rfl
theorem exec_memwrptl (s : State) {pa data mask} : exec (.memwrptl pa data mask) s = execMemwrptl pa data mask s := rfl
theorem exec_unsupportedRequest (s : State) {code pa} : exec (.unsupportedRequest code pa) s = execUnsupportedRequest code pa s := rfl
theorem exec_birsp (s : State) {pa data} : exec (.birsp pa data) s = execBirsp pa data s := rfl
theorem exec_hostSnoop (s : State) {pa} : exec (.hostSnoop pa) s = execHostSnoop pa s := rfl
theorem exec_hostLineFill (s : State) {pa data} : exec (.hostLineFill pa data) s = execHostLineFill pa data s := rfl
theorem exec_getCertificate (s : State) {off len} : exec (.getCertificate off len) s = execGetCertificate off len s := rfl
theorem exec_challenge (s : State) {nonce} : exec (.challenge nonce) s = execChallenge nonce s := rfl
theorem exec_tickctlWrite (s : State) {v} : exec (.tickctlWrite v) s = execTickctlWrite v s := rfl
theorem exec_ctx0 (s : State) {v} : exec (.ctx0 v) s = execCtx0 v s := rfl
theorem exec_biascmdToHost (s : State) {page} : exec (.biascmdToHost page) s = execBiascmdToHost page s := rfl
theorem exec_biascmdToDevice (s : State) {page} : exec (.biascmdToDevice page) s = execBiascmdToDevice page s := rfl
theorem exec_flipComplete (s : State) {page} : exec (.flipComplete page) s = execFlipComplete page s := rfl
theorem exec_loadFirmwareImage (s : State) {stack} : exec (.loadFirmwareImage stack) s = execLoadFirmwareImage stack s := rfl
theorem exec_startFirmware (s : State) {stack} : exec (.startFirmware stack) s = execStartFirmware stack s := rfl
theorem exec_readFirmwareVersion (s : State) {stack} : exec (.readFirmwareVersion stack) s = execReadFirmwareVersion stack s := rfl
theorem exec_readCounts (s : State) {stack} : exec (.readCounts stack) s = execReadCounts stack s := rfl
theorem exec_hostRegisterWrite (s : State) {off v} : exec (.hostRegisterWrite off v) s = execHostRegisterWrite off v s := rfl
theorem exec_stackRead (s : State) {stack tag} : exec (.stackRead stack tag) s = execStackRead stack tag s := rfl
theorem exec_stackWrite (s : State) {stack tag} : exec (.stackWrite stack tag) s = execStackWrite stack tag s := rfl
theorem exec_stackStampRead (s : State) {stack tag} : exec (.stackStampRead stack tag) s = execStackStampRead stack tag s := rfl
theorem exec_stackMailbox (s : State) {stack tag} : exec (.stackMailbox stack tag) s = execStackMailbox stack tag s := rfl
theorem exec_timeBeat (s : State) {stack} : exec (.timeBeat stack) s = execTimeBeat stack s := rfl
theorem exec_stackResponse (s : State) {stack tag} : exec (.stackResponse stack tag) s = execStackResponse stack tag s := rfl
theorem exec_flitReceive (s : State) {peer flit} : exec (.flitReceive peer flit) s = execFlitReceive peer flit s := rfl
theorem exec_replayRequest (s : State) {peer n} : exec (.replayRequest peer n) s = execReplayRequest peer n s := rfl
theorem exec_linkDown (s : State) {peer} : exec (.linkDown peer) s = execLinkDown peer s := rfl
theorem exec_rekeyInterrupt (s : State) {peer rx} : exec (.rekeyInterrupt peer rx) s = execRekeyInterrupt peer rx s := rfl
theorem exec_directionStall (s : State) {peer} : exec (.directionStall peer) s = execDirectionStall peer s := rfl
theorem exec_timeSync (s : State) {m} : exec (.timeSync m) s = execTimeSync m s := rfl
theorem exec_writePacket (s : State) {n} : exec (.writePacket n) s = execWritePacket n s := rfl
theorem exec_writeAcknowledgement (s : State) {n} : exec (.writeAcknowledgement n) s = execWriteAcknowledgement n s := rfl
theorem exec_readRequest (s : State) {n} : exec (.readRequest n) s = execReadRequest n s := rfl
theorem exec_readData (s : State) {n} : exec (.readData n) s = execReadData n s := rfl
theorem exec_atomicRequest (s : State) {n} : exec (.atomicRequest n) s = execAtomicRequest n s := rfl
theorem exec_atomicResult (s : State) {n} : exec (.atomicResult n) s = execAtomicResult n s := rfl
theorem exec_egressRecord (s : State) {n} : exec (.egressRecord n) s = execEgressRecord n s := rfl
theorem exec_reject (s : State) {n} : exec (.reject n) s = execReject n s := rfl
theorem exec_leaseRequest (s : State) {peer planes want tick} : exec (.leaseRequest peer planes want tick) s = execLeaseRequest peer planes want tick s := rfl
theorem exec_leaseGrant (s : State) {peer planes} : exec (.leaseGrant peer planes) s = execLeaseGrant peer planes s := rfl
theorem exec_dropSlotOffer (s : State) {plane} : exec (.dropSlotOffer plane) s = execDropSlotOffer plane s := rfl
theorem exec_revocation (s : State) {peer} : exec (.revocation peer) s = execRevocation peer s := rfl
theorem exec_leaseRelease (s : State) {peer} : exec (.leaseRelease peer) s = execLeaseRelease peer s := rfl
theorem exec_channelSetChange (s : State) {peer plane tx join n} : exec (.channelSetChange peer plane tx join n) s = execChannelSetChange peer plane tx join n s := rfl
theorem exec_drainEnd (s : State) {peer plane tx} : exec (.drainEnd peer plane tx) s = execDrainEnd peer plane tx s := rfl
theorem exec_retuneSettled (s : State) {peer plane tx} : exec (.retuneSettled peer plane tx) s = execRetuneSettled peer plane tx s := rfl
theorem exec_tableidConfirm (s : State) {peer tableId txn rxn} : exec (.tableidConfirm peer tableId txn rxn) s = execTableidConfirm peer tableId txn rxn s := rfl
theorem exec_unassignedOpcode (s : State) {w} : exec (.unassignedOpcode w) s = execUnassignedOpcode w s := rfl
theorem exec_linkUp (s : State) {peer} : exec (.linkUp peer) s = execLinkUp peer s := rfl
theorem exec_unlistedOffsetRead (s : State) {off} : exec (.unlistedOffsetRead off) s = execUnlistedOffsetRead off s := rfl
theorem exec_nop (s : State) : exec (.nop) s = execNop s := rfl
theorem exec_ret (s : State) : exec (.ret) s = execRet s := rfl
theorem exec_exit (s : State) : exec (.exit) s = execExit s := rfl
theorem exec_fence (s : State) : exec (.fence) s = execFence s := rfl
theorem exec_mswap (s : State) : exec (.mswap) s = execMswap s := rfl
theorem exec_tret (s : State) : exec (.tret) s = execTret s := rfl
theorem exec_deviceTick (s : State) : exec (.deviceTick) s = execDeviceTick s := rfl
theorem exec_hostLinkReset (s : State) : exec (.hostLinkReset) s = execHostLinkReset s := rfl
theorem exec_coldReset (s : State) : exec (.coldReset) s = execColdReset s := rfl
theorem exec_getMeasurements (s : State) : exec (.getMeasurements) s = execGetMeasurements s := rfl
theorem exec_bootstGo (s : State) : exec (.bootstGo) s = execBootstGo s := rfl
theorem exec_featctlLock (s : State) : exec (.featctlLock) s = execFeatctlLock s := rfl
theorem exec_lkgo (s : State) : exec (.lkgo) s = execLkgo s := rfl
theorem exec_guardStart (s : State) : exec (.guardStart) s = execGuardStart s := rfl
theorem exec_dataWindowStart (s : State) : exec (.dataWindowStart) s = execDataWindowStart s := rfl
theorem exec_dataWindowEnd (s : State) : exec (.dataWindowEnd) s = execDataWindowEnd s := rfl

end Sys2Proof.Machine
end

