-- ==== Sys2Proof/Laws/Elements.lean ====
section
/-!
SUPPORT. Elements of a register (R161): reading back what `putElems` packed, and the elements of the results of `mapElems` and its like.
-/

namespace Sys2Proof.Machine

/-- Element j of a packed number is the j-th packed element, reduced; beyond the last it is 0. -/
theorem elem_packElems (w : Nat) (l : List Nat) (j : Nat) : elem w (packElems w l) j = l.getD j 0 % 2 ^ w := by
  have hpos : 0 < 2 ^ w := Nat.two_pow_pos w
  induction l generalizing j with
  | nil => simp [elem, packElems]
  | cons x xs ih =>
    cases j with
    | zero => simp [elem, packElems]
    | succ j =>
      have h : (x % 2 ^ w + 2 ^ w * packElems w xs) >>> (w * (j + 1)) = packElems w xs >>> (w * j) := by
        rw [Nat.mul_add, Nat.mul_one, Nat.add_comm (w * j) w, Nat.shiftRight_add, Nat.shiftRight_eq_div_pow (_ + _) w,
          Nat.add_mul_div_left _ _ hpos, Nat.div_eq_of_lt (Nat.mod_lt _ hpos), Nat.zero_add]
      simp only [elem, packElems, h, List.getD_cons_succ]
      exact ih j

/-- An element that lies within 64 bits is not changed by the reduction to 64 bits. -/
theorem elem_ofNat64 (w x j : Nat) (h : w * j + w ≤ 64) : elem w (BitVec.ofNat 64 x).toNat j = elem w x j := by
  simp only [elem, BitVec.toNat_ofNat]
  apply Nat.eq_of_testBit_eq
  intro i
  simp only [Nat.testBit_mod_two_pow, Nat.testBit_shiftRight]
  by_cases hi : i < w
  · have : w * j + i < 64 := by omega
    simp [hi, this]
  · simp [hi]

/-- Element j of a register put together from elements. -/
theorem elem_putElems (w : Nat) (l : List Nat) (j : Nat) (h : w * j + w ≤ 64) :
    elem w (putElems w l).toNat j = l.getD j 0 % 2 ^ w := by
  rw [putElems, elem_ofNat64 w _ j h, elem_packElems]

/-- Element j below 64 / w lies within the register. -/
theorem elem_room {w j : Nat} (h : j < 64 / w) : w * j + w ≤ 64 := by
  have h1 : w * (j + 1) ≤ w * (64 / w) := Nat.mul_le_mul_left w h
  have h2 : w * (64 / w) ≤ 64 := Nat.mul_div_le 64 w
  rw [Nat.mul_add, Nat.mul_one] at h1
  omega

theorem elems_length (w : Nat) (x : Word) : (elems w x).length = 64 / w := by simp [elems, listOf]

theorem getD_map_range {f : Nat → Nat} {n j : Nat} (h : j < n) : ((List.range n).map f).getD j 0 = f j := by
  simp [List.getD, h]

theorem elem_mapElems {w j : Nat} (f : Nat → Nat) (a : Word) (h : j < 64 / w) :
    elem w (mapElems w f a).toNat j = f (elem w a.toNat j) % 2 ^ w := by
  rw [mapElems, elem_putElems w _ j (elem_room h)]
  simp [elems, listOf, List.getD, h]

theorem elem_mapElems2 {w j : Nat} (f : Nat → Nat → Nat) (a b : Word) (h : j < 64 / w) :
    elem w (mapElems2 w f a b).toNat j = f (elem w a.toNat j) (elem w b.toNat j) % 2 ^ w := by
  rw [mapElems2, elem_putElems w _ j (elem_room h)]
  simp [elems, listOf, List.getD, h]

theorem elem_mapElems3 {w j : Nat} (f : Nat → Nat → Nat → Nat) (a b c : Word) (h : j < 64 / w) :
    elem w (mapElems3 w f a b c).toNat j = f (elem w a.toNat j) (elem w b.toNat j) (elem w c.toNat j) % 2 ^ w := by
  rw [mapElems3, elem_putElems w _ j (elem_room h)]
  simp [elems, listOf, List.getD, h]

end Sys2Proof.Machine
end

