-- ==== Sys2Proof/Laws/Floats.lean ====
section
/-!
SUPPORT. The two shapes of the floating-point instructions: what `runFloatF` and `runFloatL` answer for one thread, from the list of the
element results that the instruction's body gives.
-/

namespace Sys2Proof.Machine

theorem fOut_elem (w : Nat) (l : List FRes) (j n : Nat) (f : Nat → FRes) (hj : j < 64 / w) (hn : l.length = n)
    (hf : ∀ i, i < n → l[i]? = some (f i)) : elem w (fOut w l).w.toNat j = resultElem n w f j := by
  unfold fOut resultElem
  rw [elem_putElems w _ j (elem_room hj), List.getD_eq_getElem?_getD, List.getElem?_map]
  split
  · rw [hf j ‹_›]; rfl
  · rw [List.getElem?_eq_none (by omega)]; simp

theorem list_eq_listOf (l : List FRes) (n : Nat) (f : Nat → FRes) (hn : l.length = n) (hf : ∀ i, i < n → l[i]? = some (f i)) :
    l = listOf n f := by
  apply List.ext_getElem?
  intro i
  by_cases h : i < n
  · rw [hf i h]; simp [listOf, h]
  · rw [List.getElem?_eq_none (by omega), List.getElem?_eq_none (by simp [listOf]; omega)]

theorem fOut_fl (w : Nat) (l : List FRes) (n : Nat) (f : Nat → FRes) (hn : l.length = n) (hf : ∀ i, i < n → l[i]? = some (f i)) :
    (fOut w l).fl = resultFlags n f := by
  rw [list_eq_listOf l n f hn hf]; simp [fOut, resultFlags, listOf, Function.comp_def]

/-- A class-F floating-point instruction whose body packs the results l. -/
theorem Solo.runFloatF {s s' : State} {i : Instr} {t v : Thread} {d : RegField} {srcs : List RegField} {n w : Nat} {f : Nat → FRes}
    {am : Nat} {g : Thread → FOut} {l : List FRes} (h : Solo s i t v s') (hx : exec i s = s.runFloatF i d srcs g)
    (hg : g v = { fOut w l with amax := am }) (hn : l.length = n) (hf : ∀ j, j < n → l[j]? = some (f j)) :
    GivesFloats s s' i t v d srcs n w f am := by
  refine ⟨(fOut w l).w, ?_, fun j hj => fOut_elem w l j n f hj hn hf⟩
  rw [hx]; unfold State.runFloatF; rw [h.runF rfl, hg]
  simp only [← fOut_fl w l n f hn hf]; rfl

/-- A class-L floating-point instruction whose body packs the results l. -/
theorem Solo.runFloatL {s s' : State} {i : Instr} {t v : Thread} {d : RegField} {srcs : List RegField} {n w inc : Nat}
    {f : Nat → FRes} {g : Thread → FOut} {l : List FRes} (h : Solo s i t v s') (hx : exec i s = s.runFloatL i d srcs inc g)
    (hg : g v = fOut w l) (hn : l.length = n) (hf : ∀ j, j < n → l[j]? = some (f j)) :
    GivesFloatsLater s s' i t v d srcs inc n w f := by
  refine ⟨(fOut w l).w, ?_, fun j hj => fOut_elem w l j n f hj hn hf⟩
  rw [hx]; unfold State.runFloatL State.issueAll State.issueThen
  rw [h.issueWith _ _ fun _ => by simp [State.fresh, h.issuing]]
  simp only [hg, ← fOut_fl w l n f hn hf]
  rw [h.state]; rfl

theorem getElem?_numbered {α β : Type} (f : Nat → α → β) (l : List α) (i : Nat) : (numbered f l)[i]? = (l[i]?).map (f i) := by
  unfold numbered
  rw [List.getElem?_zipWith]
  by_cases h : i < l.length
  · rw [List.getElem?_range h, List.getElem?_eq_getElem h]; rfl
  · rw [List.getElem?_eq_none (l := List.range l.length) (by simp; omega), List.getElem?_eq_none (l := l) (by omega)]; rfl

theorem length_numbered {α β : Type} (f : Nat → α → β) (l : List α) : (numbered f l).length = l.length := by simp [numbered]

theorem Fmt.getElem?_elems (f : Fmt) (x : Word) (i : Nat) (h : i < f.n) : (f.elems x)[i]? = some (elem f.w x.toNat i) := by
  simp only [Fmt.elems, Machine.elems, listOf, List.getElem?_map, Fmt.n] at *; rw [List.getElem?_range h]; rfl

theorem Fmt.length_elems (f : Fmt) (x : Word) : (f.elems x).length = f.n := by simp [Fmt.elems, elems_length, Fmt.n]

end Sys2Proof.Machine
end

