-- ==== Sys2Proof/Laws/Issued.lean ====
section
/-!
SUPPORT. Every instruction that a thread issues is a run of `State.issueWith`: the checks of R154 come first, whatever the instruction.
-/

namespace Sys2Proof.Machine

/-- Instruction i is issued by the shared loop over the bundle, and at most the end-of-cycle evaluation follows. -/
def Issued (i : Instr) : Prop :=
  ∀ s : State, ∃ body fin, (fin = id ∨ fin = State.settle) ∧ Machine.exec i s = s.issueWith i body fin

theorem issued_bra {x0} : Issued (.bra x0) := fun s => by
  rw [exec_bra]; unfold execBra State.runBranch State.issueAll State.issueThen; exact ⟨_, _, .inl rfl, rfl⟩
theorem issued_bz {x0} {x1} : Issued (.bz x0 x1) := fun s => by
  rw [exec_bz]; unfold execBz State.runBranch State.issueAll State.issueThen; exact ⟨_, _, .inl rfl, rfl⟩
theorem issued_bnz {x0} {x1} : Issued (.bnz x0 x1) := fun s => by
  rw [exec_bnz]; unfold execBnz State.runBranch State.issueAll State.issueThen; exact ⟨_, _, .inl rfl, rfl⟩
theorem issued_call {x0} : Issued (.call x0) := fun s => by
  rw [exec_call]; unfold execCall; exact ⟨_, _, .inl rfl, rfl⟩
theorem issued_jmpr {x0} : Issued (.jmpr x0) := fun s => by
  rw [exec_jmpr]; unfold execJmpr State.issueAll State.issueThen; exact ⟨_, _, .inl rfl, rfl⟩
theorem issued_cjoin {x0} : Issued (.cjoin x0) := fun s => by
  rw [exec_cjoin]; unfold execCjoin State.issueThen; exact ⟨_, _, .inr rfl, rfl⟩
theorem issued_bmask {x0} {x1} : Issued (.bmask x0 x1) := fun s => by
  rw [exec_bmask]; unfold execBmask; exact ⟨_, _, .inr rfl, rfl⟩
theorem issued_cleave {x0} : Issued (.cleave x0) := fun s => by
  rw [exec_cleave]; unfold execCleave State.issueThen; exact ⟨_, _, .inr rfl, rfl⟩
theorem issued_winb {x0} : Issued (.winb x0) := fun s => by
  rw [exec_winb]; unfold execWinb State.issueAll State.issueThen; exact ⟨_, _, .inl rfl, rfl⟩
theorem issued_rep {x0} {x1} : Issued (.rep x0 x1) := fun s => by
  rw [exec_rep]; unfold execRep State.issueAll State.issueThen; exact ⟨_, _, .inl rfl, rfl⟩
theorem issued_trap {x0} : Issued (.trap x0) := fun s => by
  rw [exec_trap]; unfold execTrap State.issueAll State.issueThen; exact ⟨_, _, .inl rfl, rfl⟩
theorem issued_bkpt {x0} : Issued (.bkpt x0) := fun s => by
  rw [exec_bkpt]; unfold execBkpt State.issueAll State.issueThen; exact ⟨_, _, .inl rfl, rfl⟩
theorem issued_sleep {x0} : Issued (.sleep x0) := fun s => by
  rw [exec_sleep]; unfold execSleep State.issueAll State.issueThen; exact ⟨_, _, .inl rfl, rfl⟩
theorem issued_add {x0} {x1} {x2} {x3} : Issued (.add x0 x1 x2 x3) := fun s => by
  rw [exec_add]; unfold execAdd State.run2 State.runD State.runF State.issueAll State.issueThen; exact ⟨_, _, .inl rfl, rfl⟩
theorem issued_addi {x0} {x1} {x2} {x3} : Issued (.addi x0 x1 x2 x3) := fun s => by
  rw [exec_addi]; unfold execAddi State.run1K State.runD State.runF State.issueAll State.issueThen; exact ⟨_, _, .inl rfl, rfl⟩
theorem issued_sub {x0} {x1} {x2} {x3} : Issued (.sub x0 x1 x2 x3) := fun s => by
  rw [exec_sub]; unfold execSub State.run2 State.runD State.runF State.issueAll State.issueThen; exact ⟨_, _, .inl rfl, rfl⟩
theorem issued_mul {x0} {x1} {x2} {x3} : Issued (.mul x0 x1 x2 x3) := fun s => by
  rw [exec_mul]; unfold execMul State.run2 State.runD State.runF State.issueAll State.issueThen; exact ⟨_, _, .inl rfl, rfl⟩
theorem issued_mulhs {x0} {x1} {x2} {x3} : Issued (.mulhs x0 x1 x2 x3) := fun s => by
  rw [exec_mulhs]; unfold execMulhs State.run2 State.runD State.runF State.issueAll State.issueThen; exact ⟨_, _, .inl rfl, rfl⟩
theorem issued_mulhn {x0} {x1} {x2} {x3} : Issued (.mulhn x0 x1 x2 x3) := fun s => by
  rw [exec_mulhn]; unfold execMulhn State.run2 State.runD State.runF State.issueAll State.issueThen; exact ⟨_, _, .inl rfl, rfl⟩
theorem issued_mad {x0} {x1} {x2} {x3} {x4} : Issued (.mad x0 x1 x2 x3 x4) := fun s => by
  rw [exec_mad]; unfold execMad State.run3 State.runD State.runF State.issueAll State.issueThen; exact ⟨_, _, .inl rfl, rfl⟩
theorem issued_mins {x0} {x1} {x2} {x3} : Issued (.mins x0 x1 x2 x3) := fun s => by
  rw [exec_mins]; unfold execMins State.run2 State.runD State.runF State.issueAll State.issueThen; exact ⟨_, _, .inl rfl, rfl⟩
theorem issued_minn {x0} {x1} {x2} {x3} : Issued (.minn x0 x1 x2 x3) := fun s => by
  rw [exec_minn]; unfold execMinn State.run2 State.runD State.runF State.issueAll State.issueThen; exact ⟨_, _, .inl rfl, rfl⟩
theorem issued_maxs {x0} {x1} {x2} {x3} : Issued (.maxs x0 x1 x2 x3) := fun s => by
  rw [exec_maxs]; unfold execMaxs State.run2 State.runD State.runF State.issueAll State.issueThen; exact ⟨_, _, .inl rfl, rfl⟩
theorem issued_maxn {x0} {x1} {x2} {x3} : Issued (.maxn x0 x1 x2 x3) := fun s => by
  rw [exec_maxn]; unfold execMaxn State.run2 State.runD State.runF State.issueAll State.issueThen; exact ⟨_, _, .inl rfl, rfl⟩
theorem issued_abs {x0} {x1} {x2} : Issued (.abs x0 x1 x2) := fun s => by
  rw [exec_abs]; unfold execAbs State.run1 State.runD State.runF State.issueAll State.issueThen; exact ⟨_, _, .inl rfl, rfl⟩
theorem issued_neg {x0} {x1} {x2} : Issued (.neg x0 x1 x2) := fun s => by
  rw [exec_neg]; unfold execNeg State.run1 State.runD State.runF State.issueAll State.issueThen; exact ⟨_, _, .inl rfl, rfl⟩
theorem issued_and {x0} {x1} {x2} : Issued (.and x0 x1 x2) := fun s => by
  rw [exec_and]; unfold execAnd State.run2 State.runD State.runF State.issueAll State.issueThen; exact ⟨_, _, .inl rfl, rfl⟩
theorem issued_or {x0} {x1} {x2} : Issued (.or x0 x1 x2) := fun s => by
  rw [exec_or]; unfold execOr State.run2 State.runD State.runF State.issueAll State.issueThen; exact ⟨_, _, .inl rfl, rfl⟩
theorem issued_xor {x0} {x1} {x2} : Issued (.xor x0 x1 x2) := fun s => by
  rw [exec_xor]; unfold execXor State.run2 State.runD State.runF State.issueAll State.issueThen; exact ⟨_, _, .inl rfl, rfl⟩
theorem issued_andn {x0} {x1} {x2} : Issued (.andn x0 x1 x2) := fun s => by
  rw [exec_andn]; unfold execAndn State.run2 State.runD State.runF State.issueAll State.issueThen; exact ⟨_, _, .inl rfl, rfl⟩
theorem issued_not {x0} {x1} : Issued (.not x0 x1) := fun s => by
  rw [exec_not]; unfold execNot State.run1 State.runD State.runF State.issueAll State.issueThen; exact ⟨_, _, .inl rfl, rfl⟩
theorem issued_shl {x0} {x1} {x2} {x3} : Issued (.shl x0 x1 x2 x3) := fun s => by
  rw [exec_shl]; unfold execShl State.run2 State.runD State.runF State.issueAll State.issueThen; exact ⟨_, _, .inl rfl, rfl⟩
theorem issued_shr {x0} {x1} {x2} {x3} : Issued (.shr x0 x1 x2 x3) := fun s => by
  rw [exec_shr]; unfold execShr State.run2 State.runD State.runF State.issueAll State.issueThen; exact ⟨_, _, .inl rfl, rfl⟩
theorem issued_sra {x0} {x1} {x2} {x3} : Issued (.sra x0 x1 x2 x3) := fun s => by
  rw [exec_sra]; unfold execSra State.run2 State.runD State.runF State.issueAll State.issueThen; exact ⟨_, _, .inl rfl, rfl⟩
theorem issued_shli {x0} {x1} {x2} {x3} : Issued (.shli x0 x1 x2 x3) := fun s => by
  rw [exec_shli]; unfold execShli State.run1K State.runD State.runF State.issueAll State.issueThen; exact ⟨_, _, .inl rfl, rfl⟩
theorem issued_shri {x0} {x1} {x2} {x3} : Issued (.shri x0 x1 x2 x3) := fun s => by
  rw [exec_shri]; unfold execShri State.run1K State.runD State.runF State.issueAll State.issueThen; exact ⟨_, _, .inl rfl, rfl⟩
theorem issued_srai {x0} {x1} {x2} {x3} : Issued (.srai x0 x1 x2 x3) := fun s => by
  rw [exec_srai]; unfold execSrai State.run1K State.runD State.runF State.issueAll State.issueThen; exact ⟨_, _, .inl rfl, rfl⟩
theorem issued_rotl {x0} {x1} {x2} {x3} : Issued (.rotl x0 x1 x2 x3) := fun s => by
  rw [exec_rotl]; unfold execRotl State.run2 State.runD State.runF State.issueAll State.issueThen; exact ⟨_, _, .inl rfl, rfl⟩
theorem issued_popc {x0} {x1} {x2} : Issued (.popc x0 x1 x2) := fun s => by
  rw [exec_popc]; unfold execPopc State.run1 State.runD State.runF State.issueAll State.issueThen; exact ⟨_, _, .inl rfl, rfl⟩
theorem issued_clz {x0} {x1} {x2} : Issued (.clz x0 x1 x2) := fun s => by
  rw [exec_clz]; unfold execClz State.run1 State.runD State.runF State.issueAll State.issueThen; exact ⟨_, _, .inl rfl, rfl⟩
theorem issued_brev {x0} {x1} {x2} : Issued (.brev x0 x1 x2) := fun s => by
  rw [exec_brev]; unfold execBrev State.run1 State.runD State.runF State.issueAll State.issueThen; exact ⟨_, _, .inl rfl, rfl⟩
theorem issued_bfx {x0} {x1} {x2} : Issued (.bfx x0 x1 x2) := fun s => by
  rw [exec_bfx]; unfold execBfx State.run2 State.runD State.runF State.issueAll State.issueThen; exact ⟨_, _, .inl rfl, rfl⟩
theorem issued_bfi {x0} {x1} {x2} {x3} : Issued (.bfi x0 x1 x2 x3) := fun s => by
  rw [exec_bfi]; unfold execBfi State.run3 State.runD State.runF State.issueAll State.issueThen; exact ⟨_, _, .inl rfl, rfl⟩
theorem issued_cmpeq {x0} {x1} {x2} {x3} : Issued (.cmpeq x0 x1 x2 x3) := fun s => by
  rw [exec_cmpeq]; unfold execCmpeq State.run2 State.runD State.runF State.issueAll State.issueThen; exact ⟨_, _, .inl rfl, rfl⟩
theorem issued_cmplts {x0} {x1} {x2} {x3} : Issued (.cmplts x0 x1 x2 x3) := fun s => by
  rw [exec_cmplts]; unfold execCmplts State.run2 State.runD State.runF State.issueAll State.issueThen; exact ⟨_, _, .inl rfl, rfl⟩
theorem issued_cmpltn {x0} {x1} {x2} {x3} : Issued (.cmpltn x0 x1 x2 x3) := fun s => by
  rw [exec_cmpltn]; unfold execCmpltn State.run2 State.runD State.runF State.issueAll State.issueThen; exact ⟨_, _, .inl rfl, rfl⟩
theorem issued_cmples {x0} {x1} {x2} {x3} : Issued (.cmples x0 x1 x2 x3) := fun s => by
  rw [exec_cmples]; unfold execCmples State.run2 State.runD State.runF State.issueAll State.issueThen; exact ⟨_, _, .inl rfl, rfl⟩
theorem issued_cmplen {x0} {x1} {x2} {x3} : Issued (.cmplen x0 x1 x2 x3) := fun s => by
  rw [exec_cmplen]; unfold execCmplen State.run2 State.runD State.runF State.issueAll State.issueThen; exact ⟨_, _, .inl rfl, rfl⟩
theorem issued_sel {x0} {x1} {x2} {x3} {x4} : Issued (.sel x0 x1 x2 x3 x4) := fun s => by
  rw [exec_sel]; unfold execSel State.run3 State.runD State.runF State.issueAll State.issueThen; exact ⟨_, _, .inl rfl, rfl⟩
theorem issued_mov {x0} {x1} : Issued (.mov x0 x1) := fun s => by
  rw [exec_mov]; unfold execMov State.run1 State.runD State.runF State.issueAll State.issueThen; exact ⟨_, _, .inl rfl, rfl⟩
theorem issued_li {x0} {x1} : Issued (.li x0 x1) := fun s => by
  rw [exec_li]; unfold execLi State.runD State.runF State.issueAll State.issueThen; exact ⟨_, _, .inl rfl, rfl⟩
theorem issued_lih {x0} {x1} {x2} : Issued (.lih x0 x1 x2) := fun s => by
  rw [exec_lih]; unfold execLih State.runD State.runF State.issueAll State.issueThen; exact ⟨_, _, .inl rfl, rfl⟩
theorem issued_lea {x0} {x1} {x2} : Issued (.lea x0 x1 x2) := fun s => by
  rw [exec_lea]; unfold execLea State.runF State.issueAll State.issueThen; exact ⟨_, _, .inl rfl, rfl⟩
theorem issued_fadd {x0} {x1} {x2} {x3} : Issued (.fadd x0 x1 x2 x3) := fun s => by
  rw [exec_fadd]; unfold execFadd State.runFloatF State.runF State.issueAll State.issueThen; exact ⟨_, _, .inl rfl, rfl⟩
theorem issued_fsub {x0} {x1} {x2} {x3} : Issued (.fsub x0 x1 x2 x3) := fun s => by
  rw [exec_fsub]; unfold execFsub State.runFloatF State.runF State.issueAll State.issueThen; exact ⟨_, _, .inl rfl, rfl⟩
theorem issued_fmul {x0} {x1} {x2} {x3} : Issued (.fmul x0 x1 x2 x3) := fun s => by
  rw [exec_fmul]; unfold execFmul State.runFloatF State.runF State.issueAll State.issueThen; exact ⟨_, _, .inl rfl, rfl⟩
theorem issued_ffma {x0} {x1} {x2} {x3} {x4} : Issued (.ffma x0 x1 x2 x3 x4) := fun s => by
  rw [exec_ffma]; unfold execFfma State.runFloatF State.runF State.issueAll State.issueThen; exact ⟨_, _, .inl rfl, rfl⟩
theorem issued_fmin {x0} {x1} {x2} {x3} : Issued (.fmin x0 x1 x2 x3) := fun s => by
  rw [exec_fmin]; unfold execFmin State.runFloatF State.runF State.issueAll State.issueThen; exact ⟨_, _, .inl rfl, rfl⟩
theorem issued_fmax {x0} {x1} {x2} {x3} : Issued (.fmax x0 x1 x2 x3) := fun s => by
  rw [exec_fmax]; unfold execFmax State.runFloatF State.runF State.issueAll State.issueThen; exact ⟨_, _, .inl rfl, rfl⟩
theorem issued_fabs {x0} {x1} {x2} : Issued (.fabs x0 x1 x2) := fun s => by
  rw [exec_fabs]; unfold execFabs State.runFloatF State.runF State.issueAll State.issueThen; exact ⟨_, _, .inl rfl, rfl⟩
theorem issued_fneg {x0} {x1} {x2} : Issued (.fneg x0 x1 x2) := fun s => by
  rw [exec_fneg]; unfold execFneg State.runFloatF State.runF State.issueAll State.issueThen; exact ⟨_, _, .inl rfl, rfl⟩
theorem issued_fcmpeq {x0} {x1} {x2} {x3} : Issued (.fcmpeq x0 x1 x2 x3) := fun s => by
  rw [exec_fcmpeq]; unfold execFcmpeq State.runFloatF State.runF State.issueAll State.issueThen; exact ⟨_, _, .inl rfl, rfl⟩
theorem issued_fcmplt {x0} {x1} {x2} {x3} : Issued (.fcmplt x0 x1 x2 x3) := fun s => by
  rw [exec_fcmplt]; unfold execFcmplt State.runFloatF State.runF State.issueAll State.issueThen; exact ⟨_, _, .inl rfl, rfl⟩
theorem issued_fcmple {x0} {x1} {x2} {x3} : Issued (.fcmple x0 x1 x2 x3) := fun s => by
  rw [exec_fcmple]; unfold execFcmple State.runFloatF State.runF State.issueAll State.issueThen; exact ⟨_, _, .inl rfl, rfl⟩
theorem issued_fcmpun {x0} {x1} {x2} {x3} : Issued (.fcmpun x0 x1 x2 x3) := fun s => by
  rw [exec_fcmpun]; unfold execFcmpun State.runFloatF State.runF State.issueAll State.issueThen; exact ⟨_, _, .inl rfl, rfl⟩
theorem issued_frcp {x0} {x1} {x2} : Issued (.frcp x0 x1 x2) := fun s => by
  rw [exec_frcp]; unfold execFrcp State.runFloatL State.issueAll State.issueThen; exact ⟨_, _, .inl rfl, rfl⟩
theorem issued_frsq {x0} {x1} {x2} : Issued (.frsq x0 x1 x2) := fun s => by
  rw [exec_frsq]; unfold execFrsq State.runFloatL State.issueAll State.issueThen; exact ⟨_, _, .inl rfl, rfl⟩
theorem issued_fsqrt {x0} {x1} {x2} : Issued (.fsqrt x0 x1 x2) := fun s => by
  rw [exec_fsqrt]; unfold execFsqrt State.runFloatL State.issueAll State.issueThen; exact ⟨_, _, .inl rfl, rfl⟩
theorem issued_fexp2 {x0} {x1} {x2} : Issued (.fexp2 x0 x1 x2) := fun s => by
  rw [exec_fexp2]; unfold execFexp2 State.runFloatL State.issueAll State.issueThen; exact ⟨_, _, .inl rfl, rfl⟩
theorem issued_flog2 {x0} {x1} {x2} : Issued (.flog2 x0 x1 x2) := fun s => by
  rw [exec_flog2]; unfold execFlog2 State.runFloatL State.issueAll State.issueThen; exact ⟨_, _, .inl rfl, rfl⟩
theorem issued_fsin {x0} {x1} {x2} : Issued (.fsin x0 x1 x2) := fun s => by
  rw [exec_fsin]; unfold execFsin State.runFloatL State.issueAll State.issueThen; exact ⟨_, _, .inl rfl, rfl⟩
theorem issued_fcos {x0} {x1} {x2} : Issued (.fcos x0 x1 x2) := fun s => by
  rw [exec_fcos]; unfold execFcos State.runFloatL State.issueAll State.issueThen; exact ⟨_, _, .inl rfl, rfl⟩
theorem issued_fscale {x0} {x1} {x2} {x3} : Issued (.fscale x0 x1 x2 x3) := fun s => by
  rw [exec_fscale]; unfold execFscale State.runFloatF State.runF State.issueAll State.issueThen; exact ⟨_, _, .inl rfl, rfl⟩
theorem issued_fclass {x0} {x1} {x2} : Issued (.fclass x0 x1 x2) := fun s => by
  rw [exec_fclass]; unfold execFclass State.runFloatF State.runF State.issueAll State.issueThen; exact ⟨_, _, .inl rfl, rfl⟩
theorem issued_fdot {x0} {x1} {x2} {x3} : Issued (.fdot x0 x1 x2 x3) := fun s => by
  rw [exec_fdot]; unfold execFdot State.runFloatF State.runF State.issueAll State.issueThen; exact ⟨_, _, .inl rfl, rfl⟩
theorem issued_fsum {x0} {x1} {x2} : Issued (.fsum x0 x1 x2) := fun s => by
  rw [exec_fsum]; unfold execFsum State.runFloatF State.runF State.issueAll State.issueThen; exact ⟨_, _, .inl rfl, rfl⟩
theorem issued_fcvt {x0} {x1} {x2} {x3} : Issued (.fcvt x0 x1 x2 x3) := fun s => by
  rw [exec_fcvt]; unfold execFcvt State.runFloatF State.runF State.issueAll State.issueThen; exact ⟨_, _, .inl rfl, rfl⟩
theorem issued_fcvtam {x0} {x1} {x2} {x3} : Issued (.fcvtam x0 x1 x2 x3) := fun s => by
  rw [exec_fcvtam]; unfold execFcvtam State.runFloatF State.runF State.issueAll State.issueThen; exact ⟨_, _, .inl rfl, rfl⟩
theorem issued_f2i {x0} {x1} {x2} {x3} : Issued (.f2i x0 x1 x2 x3) := fun s => by
  rw [exec_f2i]; unfold execF2i State.runFloatF State.runF State.issueAll State.issueThen; exact ⟨_, _, .inl rfl, rfl⟩
theorem issued_i2f {x0} {x1} {x2} {x3} : Issued (.i2f x0 x1 x2 x3) := fun s => by
  rw [exec_i2f]; unfold execI2f State.runFloatF State.runF State.issueAll State.issueThen; exact ⟨_, _, .inl rfl, rfl⟩
theorem issued_qpack {x0} {x1} {x2} {x3} : Issued (.qpack x0 x1 x2 x3) := fun s => by
  rw [exec_qpack]; unfold execQpack State.runFloatL State.issueAll State.issueThen; exact ⟨_, _, .inl rfl, rfl⟩
theorem issued_qpackGs {x0} {x1} : Issued (.qpackGs x0 x1) := fun s => by
  rw [exec_qpackGs]; unfold execQpackGs State.runFloatL State.issueAll State.issueThen; exact ⟨_, _, .inl rfl, rfl⟩
theorem issued_qpackBs {x0} {x1} {x2} : Issued (.qpackBs x0 x1 x2) := fun s => by
  rw [exec_qpackBs]; unfold execQpackBs State.runFloatL State.issueAll State.issueThen; exact ⟨_, _, .inl rfl, rfl⟩
theorem issued_qunpk {x0} {x1} {x2} {x3} : Issued (.qunpk x0 x1 x2 x3) := fun s => by
  rw [exec_qunpk]; unfold execQunpk State.runFloatL State.issueAll State.issueThen; exact ⟨_, _, .inl rfl, rfl⟩
theorem issued_fpack {x0} {x1} {x2} {x3} : Issued (.fpack x0 x1 x2 x3) := fun s => by
  rw [exec_fpack]; unfold execFpack State.runFloatF State.runF State.issueAll State.issueThen; exact ⟨_, _, .inl rfl, rfl⟩
theorem issued_funpk {x0} {x1} {x2} : Issued (.funpk x0 x1 x2) := fun s => by
  rw [exec_funpk]; unfold execFunpk State.runFloatF State.runF State.issueAll State.issueThen; exact ⟨_, _, .inl rfl, rfl⟩
theorem issued_shfl {x0} {x1} {x2} : Issued (.shfl x0 x1 x2) := fun s => by
  rw [exec_shfl]; unfold execShfl State.runCross State.issueThen; exact ⟨_, _, .inr rfl, rfl⟩
theorem issued_shfliIdx {x0} {x1} {x2} : Issued (.shfliIdx x0 x1 x2) := fun s => by
  rw [exec_shfliIdx]; unfold execShfliIdx State.runCross State.issueThen; exact ⟨_, _, .inr rfl, rfl⟩
theorem issued_shfliUp {x0} {x1} {x2} : Issued (.shfliUp x0 x1 x2) := fun s => by
  rw [exec_shfliUp]; unfold execShfliUp State.runCross State.issueThen; exact ⟨_, _, .inr rfl, rfl⟩
theorem issued_shfliDown {x0} {x1} {x2} : Issued (.shfliDown x0 x1 x2) := fun s => by
  rw [exec_shfliDown]; unfold execShfliDown State.runCross State.issueThen; exact ⟨_, _, .inr rfl, rfl⟩
theorem issued_shfliXor {x0} {x1} {x2} : Issued (.shfliXor x0 x1 x2) := fun s => by
  rw [exec_shfliXor]; unfold execShfliXor State.runCross State.issueThen; exact ⟨_, _, .inr rfl, rfl⟩
theorem issued_voteall {x0} {x1} : Issued (.voteall x0 x1) := fun s => by
  rw [exec_voteall]; unfold execVoteall State.runCross State.issueThen; exact ⟨_, _, .inr rfl, rfl⟩
theorem issued_voteany {x0} {x1} : Issued (.voteany x0 x1) := fun s => by
  rw [exec_voteany]; unfold execVoteany State.runCross State.issueThen; exact ⟨_, _, .inr rfl, rfl⟩
theorem issued_ballot {x0} {x1} : Issued (.ballot x0 x1) := fun s => by
  rw [exec_ballot]; unfold execBallot State.runCross State.issueThen; exact ⟨_, _, .inr rfl, rfl⟩
theorem issued_matchA {x0} {x1} : Issued (.matchA x0 x1) := fun s => by
  rw [exec_matchA]; unfold execMatchA State.runCross State.issueThen; exact ⟨_, _, .inr rfl, rfl⟩
theorem issued_scanadd {x0} {x1} {x2} : Issued (.scanadd x0 x1 x2) := fun s => by
  rw [exec_scanadd]; unfold execScanadd State.runCross State.issueThen; exact ⟨_, _, .inr rfl, rfl⟩
theorem issued_scanaddx {x0} {x1} {x2} : Issued (.scanaddx x0 x1 x2) := fun s => by
  rw [exec_scanaddx]; unfold execScanaddx State.runCross State.issueThen; exact ⟨_, _, .inr rfl, rfl⟩
theorem issued_redadd {x0} {x1} {x2} : Issued (.redadd x0 x1 x2) := fun s => by
  rw [exec_redadd]; unfold execRedadd State.runCross State.issueThen; exact ⟨_, _, .inr rfl, rfl⟩
theorem issued_redmaxs {x0} {x1} {x2} : Issued (.redmaxs x0 x1 x2) := fun s => by
  rw [exec_redmaxs]; unfold execRedmaxs State.runCross State.issueThen; exact ⟨_, _, .inr rfl, rfl⟩
theorem issued_redmaxn {x0} {x1} {x2} : Issued (.redmaxn x0 x1 x2) := fun s => by
  rw [exec_redmaxn]; unfold execRedmaxn State.runCross State.issueThen; exact ⟨_, _, .inr rfl, rfl⟩
theorem issued_redmins {x0} {x1} {x2} : Issued (.redmins x0 x1 x2) := fun s => by
  rw [exec_redmins]; unfold execRedmins State.runCross State.issueThen; exact ⟨_, _, .inr rfl, rfl⟩
theorem issued_redminn {x0} {x1} {x2} : Issued (.redminn x0 x1 x2) := fun s => by
  rw [exec_redminn]; unfold execRedminn State.runCross State.issueThen; exact ⟨_, _, .inr rfl, rfl⟩
theorem issued_redor {x0} {x1} {x2} : Issued (.redor x0 x1 x2) := fun s => by
  rw [exec_redor]; unfold execRedor State.runCross State.issueThen; exact ⟨_, _, .inr rfl, rfl⟩
theorem issued_fredadd {x0} {x1} {x2} : Issued (.fredadd x0 x1 x2) := fun s => by
  rw [exec_fredadd]; unfold execFredadd State.runCross State.issueThen; exact ⟨_, _, .inr rfl, rfl⟩
theorem issued_fscanadd {x0} {x1} {x2} : Issued (.fscanadd x0 x1 x2) := fun s => by
  rw [exec_fscanadd]; unfold execFscanadd State.runCross State.issueThen; exact ⟨_, _, .inr rfl, rfl⟩
theorem issued_elect {x0} : Issued (.elect x0) := fun s => by
  rw [exec_elect]; unfold execElect State.runCross State.issueThen; exact ⟨_, _, .inr rfl, rfl⟩
theorem issued_memb {x0} : Issued (.memb x0) := fun s => by
  rw [exec_memb]; unfold execMemb State.runCross State.issueThen; exact ⟨_, _, .inr rfl, rfl⟩
theorem issued_ld8 {x0} {x1} {x2} {x3} : Issued (.ld8 x0 x1 x2 x3) := fun s => by
  rw [exec_ld8]; unfold execLd8 State.runLoad; exact ⟨_, _, .inl rfl, rfl⟩
theorem issued_ld16 {x0} {x1} {x2} {x3} : Issued (.ld16 x0 x1 x2 x3) := fun s => by
  rw [exec_ld16]; unfold execLd16 State.runLoad; exact ⟨_, _, .inl rfl, rfl⟩
theorem issued_ld32 {x0} {x1} {x2} {x3} : Issued (.ld32 x0 x1 x2 x3) := fun s => by
  rw [exec_ld32]; unfold execLd32 State.runLoad; exact ⟨_, _, .inl rfl, rfl⟩
theorem issued_ld64 {x0} {x1} {x2} {x3} : Issued (.ld64 x0 x1 x2 x3) := fun s => by
  rw [exec_ld64]; unfold execLd64 State.runLoad; exact ⟨_, _, .inl rfl, rfl⟩
theorem issued_ld128 {x0} {x1} {x2} {x3} : Issued (.ld128 x0 x1 x2 x3) := fun s => by
  rw [exec_ld128]; unfold execLd128 State.runLoad; exact ⟨_, _, .inl rfl, rfl⟩
theorem issued_ldx8 {x0} {x1} {x2} {x3} : Issued (.ldx8 x0 x1 x2 x3) := fun s => by
  rw [exec_ldx8]; unfold execLdx8 State.runLdx State.issueAll State.issueThen; exact ⟨_, _, .inl rfl, rfl⟩
theorem issued_ldx16 {x0} {x1} {x2} {x3} : Issued (.ldx16 x0 x1 x2 x3) := fun s => by
  rw [exec_ldx16]; unfold execLdx16 State.runLdx State.issueAll State.issueThen; exact ⟨_, _, .inl rfl, rfl⟩
theorem issued_ldx32 {x0} {x1} {x2} {x3} : Issued (.ldx32 x0 x1 x2 x3) := fun s => by
  rw [exec_ldx32]; unfold execLdx32 State.runLdx State.issueAll State.issueThen; exact ⟨_, _, .inl rfl, rfl⟩
theorem issued_st8 {x0} {x1} {x2} : Issued (.st8 x0 x1 x2) := fun s => by
  rw [exec_st8]; unfold execSt8 State.runStore; exact ⟨_, _, .inl rfl, rfl⟩
theorem issued_st16 {x0} {x1} {x2} : Issued (.st16 x0 x1 x2) := fun s => by
  rw [exec_st16]; unfold execSt16 State.runStore; exact ⟨_, _, .inl rfl, rfl⟩
theorem issued_st32 {x0} {x1} {x2} : Issued (.st32 x0 x1 x2) := fun s => by
  rw [exec_st32]; unfold execSt32 State.runStore; exact ⟨_, _, .inl rfl, rfl⟩
theorem issued_st64 {x0} {x1} {x2} : Issued (.st64 x0 x1 x2) := fun s => by
  rw [exec_st64]; unfold execSt64 State.runStore; exact ⟨_, _, .inl rfl, rfl⟩
theorem issued_st128 {x0} {x1} {x2} : Issued (.st128 x0 x1 x2) := fun s => by
  rw [exec_st128]; unfold execSt128 State.runStore; exact ⟨_, _, .inl rfl, rfl⟩
theorem issued_stg64 {x0} {x1} {x2} : Issued (.stg64 x0 x1 x2) := fun s => by
  rw [exec_stg64]; unfold execStg64 State.runStore; exact ⟨_, _, .inl rfl, rfl⟩
theorem issued_stg128 {x0} {x1} {x2} : Issued (.stg128 x0 x1 x2) := fun s => by
  rw [exec_stg128]; unfold execStg128 State.runStore; exact ⟨_, _, .inl rfl, rfl⟩
theorem issued_pref {x0} {x1} : Issued (.pref x0 x1) := fun s => by
  rw [exec_pref]; unfold execPref State.issueAll State.issueThen; exact ⟨_, _, .inl rfl, rfl⟩
theorem issued_lds8 {x0} {x1} {x2} {x3} : Issued (.lds8 x0 x1 x2 x3) := fun s => by
  rw [exec_lds8]; unfold execLds8 State.runLds; exact ⟨_, _, .inl rfl, rfl⟩
theorem issued_lds16 {x0} {x1} {x2} {x3} : Issued (.lds16 x0 x1 x2 x3) := fun s => by
  rw [exec_lds16]; unfold execLds16 State.runLds; exact ⟨_, _, .inl rfl, rfl⟩
theorem issued_lds32 {x0} {x1} {x2} {x3} : Issued (.lds32 x0 x1 x2 x3) := fun s => by
  rw [exec_lds32]; unfold execLds32 State.runLds; exact ⟨_, _, .inl rfl, rfl⟩
theorem issued_lds64 {x0} {x1} {x2} {x3} : Issued (.lds64 x0 x1 x2 x3) := fun s => by
  rw [exec_lds64]; unfold execLds64 State.runLds; exact ⟨_, _, .inl rfl, rfl⟩
theorem issued_lds128 {x0} {x1} {x2} {x3} : Issued (.lds128 x0 x1 x2 x3) := fun s => by
  rw [exec_lds128]; unfold execLds128 State.runLds; exact ⟨_, _, .inl rfl, rfl⟩
theorem issued_sts8 {x0} {x1} {x2} : Issued (.sts8 x0 x1 x2) := fun s => by
  rw [exec_sts8]; unfold execSts8 State.runSts; exact ⟨_, _, .inl rfl, rfl⟩
theorem issued_sts16 {x0} {x1} {x2} : Issued (.sts16 x0 x1 x2) := fun s => by
  rw [exec_sts16]; unfold execSts16 State.runSts; exact ⟨_, _, .inl rfl, rfl⟩
theorem issued_sts32 {x0} {x1} {x2} : Issued (.sts32 x0 x1 x2) := fun s => by
  rw [exec_sts32]; unfold execSts32 State.runSts; exact ⟨_, _, .inl rfl, rfl⟩
theorem issued_sts64 {x0} {x1} {x2} : Issued (.sts64 x0 x1 x2) := fun s => by
  rw [exec_sts64]; unfold execSts64 State.runSts; exact ⟨_, _, .inl rfl, rfl⟩
theorem issued_sts128 {x0} {x1} {x2} : Issued (.sts128 x0 x1 x2) := fun s => by
  rw [exec_sts128]; unfold execSts128 State.runSts; exact ⟨_, _, .inl rfl, rfl⟩
theorem issued_atadd32 {x0} {x1} {x2} {x3} : Issued (.atadd32 x0 x1 x2 x3) := fun s => by
  rw [exec_atadd32]; unfold execAtadd32 State.runAtomicInt State.runAtomic State.issueAll State.issueThen; exact ⟨_, _, .inl rfl, rfl⟩
theorem issued_atadd64 {x0} {x1} {x2} {x3} : Issued (.atadd64 x0 x1 x2 x3) := fun s => by
  rw [exec_atadd64]; unfold execAtadd64 State.runAtomicInt State.runAtomic State.issueAll State.issueThen; exact ⟨_, _, .inl rfl, rfl⟩
theorem issued_atmaxs32 {x0} {x1} {x2} {x3} : Issued (.atmaxs32 x0 x1 x2 x3) := fun s => by
  rw [exec_atmaxs32]; unfold execAtmaxs32 State.runAtomicInt State.runAtomic State.issueAll State.issueThen; exact ⟨_, _, .inl rfl, rfl⟩
theorem issued_atmaxn32 {x0} {x1} {x2} {x3} : Issued (.atmaxn32 x0 x1 x2 x3) := fun s => by
  rw [exec_atmaxn32]; unfold execAtmaxn32 State.runAtomicInt State.runAtomic State.issueAll State.issueThen; exact ⟨_, _, .inl rfl, rfl⟩
theorem issued_atmins32 {x0} {x1} {x2} {x3} : Issued (.atmins32 x0 x1 x2 x3) := fun s => by
  rw [exec_atmins32]; unfold execAtmins32 State.runAtomicInt State.runAtomic State.issueAll State.issueThen; exact ⟨_, _, .inl rfl, rfl⟩
theorem issued_atminn32 {x0} {x1} {x2} {x3} : Issued (.atminn32 x0 x1 x2 x3) := fun s => by
  rw [exec_atminn32]; unfold execAtminn32 State.runAtomicInt State.runAtomic State.issueAll State.issueThen; exact ⟨_, _, .inl rfl, rfl⟩
theorem issued_ator64 {x0} {x1} {x2} {x3} : Issued (.ator64 x0 x1 x2 x3) := fun s => by
  rw [exec_ator64]; unfold execAtor64 State.runAtomicInt State.runAtomic State.issueAll State.issueThen; exact ⟨_, _, .inl rfl, rfl⟩
theorem issued_atand64 {x0} {x1} {x2} {x3} : Issued (.atand64 x0 x1 x2 x3) := fun s => by
  rw [exec_atand64]; unfold execAtand64 State.runAtomicInt State.runAtomic State.issueAll State.issueThen; exact ⟨_, _, .inl rfl, rfl⟩
theorem issued_atxor64 {x0} {x1} {x2} {x3} : Issued (.atxor64 x0 x1 x2 x3) := fun s => by
  rw [exec_atxor64]; unfold execAtxor64 State.runAtomicInt State.runAtomic State.issueAll State.issueThen; exact ⟨_, _, .inl rfl, rfl⟩
theorem issued_atxch64 {x0} {x1} {x2} {x3} : Issued (.atxch64 x0 x1 x2 x3) := fun s => by
  rw [exec_atxch64]; unfold execAtxch64 State.runAtomicInt State.runAtomic State.issueAll State.issueThen; exact ⟨_, _, .inl rfl, rfl⟩
theorem issued_atcas64 {x0} {x1} {x2} {x3} : Issued (.atcas64 x0 x1 x2 x3) := fun s => by
  rw [exec_atcas64]; unfold execAtcas64 State.runAtomic State.issueAll State.issueThen; exact ⟨_, _, .inl rfl, rfl⟩
theorem issued_fatadd32 {x0} {x1} {x2} {x3} : Issued (.fatadd32 x0 x1 x2 x3) := fun s => by
  rw [exec_fatadd32]; unfold execFatadd32 State.runAtomicF32 State.runAtomic State.issueAll State.issueThen; exact ⟨_, _, .inl rfl, rfl⟩
theorem issued_fatmax32 {x0} {x1} {x2} {x3} : Issued (.fatmax32 x0 x1 x2 x3) := fun s => by
  rw [exec_fatmax32]; unfold execFatmax32 State.runAtomicF32 State.runAtomic State.issueAll State.issueThen; exact ⟨_, _, .inl rfl, rfl⟩
theorem issued_waitv {x0} {x1} {x2} {x3} : Issued (.waitv x0 x1 x2 x3) := fun s => by
  rw [exec_waitv]; unfold execWaitv State.issueAll State.issueThen; exact ⟨_, _, .inl rfl, rfl⟩
theorem issued_capinc {x0} {x1} {x2} : Issued (.capinc x0 x1 x2) := fun s => by
  rw [exec_capinc]; unfold execCapinc State.runF State.issueAll State.issueThen; exact ⟨_, _, .inl rfl, rfl⟩
theorem issued_capnrw {x0} {x1} {x2} : Issued (.capnrw x0 x1 x2) := fun s => by
  rw [exec_capnrw]; unfold execCapnrw State.runF State.issueAll State.issueThen; exact ⟨_, _, .inl rfl, rfl⟩
theorem issued_capperm {x0} {x1} {x2} : Issued (.capperm x0 x1 x2) := fun s => by
  rw [exec_capperm]; unfold execCapperm State.runF State.issueAll State.issueThen; exact ⟨_, _, .inl rfl, rfl⟩
theorem issued_capget {x0} {x1} : Issued (.capget x0 x1) := fun s => by
  rw [exec_capget]; unfold execCapget State.issueAll State.issueThen; exact ⟨_, _, .inl rfl, rfl⟩
theorem issued_capchk {x0} {x1} {x2} : Issued (.capchk x0 x1 x2) := fun s => by
  rw [exec_capchk]; unfold execCapchk State.runD State.runF State.issueAll State.issueThen; exact ⟨_, _, .inl rfl, rfl⟩
theorem issued_capscr {x0} {x1} {x2} : Issued (.capscr x0 x1 x2) := fun s => by
  rw [exec_capscr]; unfold execCapscr State.runF State.issueAll State.issueThen; exact ⟨_, _, .inl rfl, rfl⟩
theorem issued_capmov {x0} {x1} : Issued (.capmov x0 x1) := fun s => by
  rw [exec_capmov]; unfold execCapmov State.runF State.issueAll State.issueThen; exact ⟨_, _, .inl rfl, rfl⟩
theorem issued_bcopy {x0} : Issued (.bcopy x0) := fun s => by
  rw [exec_bcopy]; unfold execBcopy State.runBulk; exact ⟨_, _, .inl rfl, rfl⟩
theorem issued_bfill {x0} : Issued (.bfill x0) := fun s => by
  rw [exec_bfill]; unfold execBfill State.runBulk; exact ⟨_, _, .inl rfl, rfl⟩
theorem issued_bput {x0} : Issued (.bput x0) := fun s => by
  rw [exec_bput]; unfold execBput State.runBulk; exact ⟨_, _, .inl rfl, rfl⟩
theorem issued_bget {x0} : Issued (.bget x0) := fun s => by
  rw [exec_bget]; unfold execBget State.runBulk; exact ⟨_, _, .inl rfl, rfl⟩
theorem issued_batomAdd {x0} {x1} : Issued (.batomAdd x0 x1) := fun s => by
  rw [exec_batomAdd]; unfold execBatomAdd State.runBulk; exact ⟨_, _, .inl rfl, rfl⟩
theorem issued_batomOr {x0} {x1} : Issued (.batomOr x0 x1) := fun s => by
  rw [exec_batomOr]; unfold execBatomOr State.runBulk; exact ⟨_, _, .inl rfl, rfl⟩
theorem issued_batomXch {x0} {x1} : Issued (.batomXch x0 x1) := fun s => by
  rw [exec_batomXch]; unfold execBatomXch State.runBulk; exact ⟨_, _, .inl rfl, rfl⟩
theorem issued_batomCas {x0} {x1} : Issued (.batomCas x0 x1) := fun s => by
  rw [exec_batomCas]; unfold execBatomCas State.runBulk; exact ⟨_, _, .inl rfl, rfl⟩
theorem issued_batomMaxn {x0} {x1} : Issued (.batomMaxn x0 x1) := fun s => by
  rw [exec_batomMaxn]; unfold execBatomMaxn State.runBulk; exact ⟨_, _, .inl rfl, rfl⟩
theorem issued_batomFadd {x0} {x1} : Issued (.batomFadd x0 x1) := fun s => by
  rw [exec_batomFadd]; unfold execBatomFadd State.runBulk; exact ⟨_, _, .inl rfl, rfl⟩
theorem issued_actr {x0} {x1} {x2} : Issued (.actr x0 x1 x2) := fun s => by
  rw [exec_actr]; unfold execActr; exact ⟨_, _, .inl rfl, rfl⟩
theorem issued_waitc {x0} {x1} : Issued (.waitc x0 x1) := fun s => by
  rw [exec_waitc]; unfold execWaitc; exact ⟨_, _, .inl rfl, rfl⟩
theorem issued_actrdBind {x0} {x1} : Issued (.actrdBind x0 x1) := fun s => by
  rw [exec_actrdBind]; unfold execActrdBind State.runActrd; exact ⟨_, _, .inl rfl, rfl⟩
theorem issued_actrdUnbind {x0} {x1} : Issued (.actrdUnbind x0 x1) := fun s => by
  rw [exec_actrdUnbind]; unfold execActrdUnbind State.runActrd; exact ⟨_, _, .inl rfl, rfl⟩
theorem issued_send {x0} {x1} {x2} : Issued (.send x0 x1 x2) := fun s => by
  rw [exec_send]; unfold execSend; exact ⟨_, _, .inl rfl, rfl⟩
theorem issued_leaseq {x0} {x1} : Issued (.leaseq x0 x1) := fun s => by
  rw [exec_leaseq]; unfold execLeaseq State.issueAll State.issueThen; exact ⟨_, _, .inl rfl, rfl⟩
theorem issued_mload {x0} : Issued (.mload x0) := fun s => by
  rw [exec_mload]; unfold execMload; exact ⟨_, _, .inr rfl, rfl⟩
theorem issued_mstream {x0} : Issued (.mstream x0) := fun s => by
  rw [exec_mstream]; unfold execMstream State.issueThen; exact ⟨_, _, .inr rfl, rfl⟩
theorem issued_mzero {x0} : Issued (.mzero x0) := fun s => by
  rw [exec_mzero]; unfold execMzero State.runCommand State.issueAll State.issueThen; exact ⟨_, _, .inl rfl, rfl⟩
theorem issued_mread {x0} {x1} {x2} : Issued (.mread x0 x1 x2) := fun s => by
  rw [exec_mread]; unfold execMread State.runCommand State.issueAll State.issueThen; exact ⟨_, _, .inl rfl, rfl⟩
theorem issued_mscale {x0} : Issued (.mscale x0) := fun s => by
  rw [exec_mscale]; unfold execMscale State.runCommand State.issueAll State.issueThen; exact ⟨_, _, .inl rfl, rfl⟩
theorem issued_mnorm {x0} : Issued (.mnorm x0) := fun s => by
  rw [exec_mnorm]; unfold execMnorm State.runUpdate State.issueAll State.issueThen; exact ⟨_, _, .inl rfl, rfl⟩
theorem issued_mdrain {x0} {x1} : Issued (.mdrain x0 x1) := fun s => by
  rw [exec_mdrain]; unfold execMdrain State.runUpdate State.issueAll State.issueThen; exact ⟨_, _, .inl rfl, rfl⟩
theorem issued_mstat {x0} {x1} : Issued (.mstat x0 x1) := fun s => by
  rw [exec_mstat]; unfold execMstat State.runCommand State.issueAll State.issueThen; exact ⟨_, _, .inl rfl, rfl⟩
theorem issued_bar {x0} : Issued (.bar x0) := fun s => by
  rw [exec_bar]; unfold execBar State.issueThen; exact ⟨_, _, .inr rfl, rfl⟩
theorem issued_sbar {x0} : Issued (.sbar x0) := fun s => by
  rw [exec_sbar]; unfold execSbar State.issueThen; exact ⟨_, _, .inr rfl, rfl⟩
theorem issued_arrive {x0} {x1} : Issued (.arrive x0 x1) := fun s => by
  rw [exec_arrive]; unfold execArrive State.issueThen; exact ⟨_, _, .inr rfl, rfl⟩
theorem issued_await {x0} {x1} : Issued (.await x0 x1) := fun s => by
  rw [exec_await]; unfold execAwait State.issueThen; exact ⟨_, _, .inr rfl, rfl⟩
theorem issued_movs {x0} {x1} : Issued (.movs x0 x1) := fun s => by
  rw [exec_movs]; unfold execMovs State.runD State.runF State.issueAll State.issueThen; exact ⟨_, _, .inl rfl, rfl⟩
theorem issued_movsw {x0} {x1} : Issued (.movsw x0 x1) := fun s => by
  rw [exec_movsw]; unfold execMovsw State.runF State.issueAll State.issueThen; exact ⟨_, _, .inl rfl, rfl⟩
theorem issued_stampr {x0} {x1} : Issued (.stampr x0 x1) := fun s => by
  rw [exec_stampr]; unfold execStampr State.runD State.runF State.issueAll State.issueThen; exact ⟨_, _, .inl rfl, rfl⟩
theorem issued_agejoin {x0} {x1} {x2} : Issued (.agejoin x0 x1 x2) := fun s => by
  rw [exec_agejoin]; unfold execAgejoin State.runD State.runF State.issueAll State.issueThen; exact ⟨_, _, .inl rfl, rfl⟩
theorem issued_age {x0} {x1} : Issued (.age x0 x1) := fun s => by
  rw [exec_age]; unfold execAge State.runD State.runF State.issueAll State.issueThen; exact ⟨_, _, .inl rfl, rfl⟩
theorem issued_agechk {x0} {x1} : Issued (.agechk x0 x1) := fun s => by
  rw [exec_agechk]; unfold execAgechk State.issueAll State.issueThen; exact ⟨_, _, .inl rfl, rfl⟩
theorem issued_pagedoneResume {x0} {x1} : Issued (.pagedoneResume x0 x1) := fun s => by
  rw [exec_pagedoneResume]; unfold execPagedoneResume State.runPagedone State.issueAll State.issueThen; exact ⟨_, _, .inl rfl, rfl⟩
theorem issued_pagedoneMap {x0} {x1} : Issued (.pagedoneMap x0 x1) := fun s => by
  rw [exec_pagedoneMap]; unfold execPagedoneMap State.runPagedone State.issueAll State.issueThen; exact ⟨_, _, .inl rfl, rfl⟩
theorem issued_pagedoneFail {x0} {x1} : Issued (.pagedoneFail x0 x1) := fun s => by
  rw [exec_pagedoneFail]; unfold execPagedoneFail State.runPagedone State.issueAll State.issueThen; exact ⟨_, _, .inl rfl, rfl⟩
theorem issued_csrr {x0} {x1} {x2} : Issued (.csrr x0 x1 x2) := fun s => by
  rw [exec_csrr]; unfold execCsrr State.issueAll State.issueThen; exact ⟨_, _, .inl rfl, rfl⟩
theorem issued_csrw {x0} {x1} {x2} : Issued (.csrw x0 x1 x2) := fun s => by
  rw [exec_csrw]; unfold execCsrw State.issueThen; exact ⟨_, _, .inr rfl, rfl⟩
theorem issued_stampsetReg {x0} {x1} {x2} : Issued (.stampsetReg x0 x1 x2) := fun s => by
  rw [exec_stampsetReg]; unfold execStampsetReg State.issueAll State.issueThen; exact ⟨_, _, .inl rfl, rfl⟩
theorem issued_stampsetGranule {x0} {x1} : Issued (.stampsetGranule x0 x1) := fun s => by
  rw [exec_stampsetGranule]; unfold execStampsetGranule; exact ⟨_, _, .inl rfl, rfl⟩
theorem issued_cmapw {x0} {x1} {x2} : Issued (.cmapw x0 x1 x2) := fun s => by
  rw [exec_cmapw]; unfold execCmapw State.issueAll State.issueThen; exact ⟨_, _, .inl rfl, rfl⟩
theorem issued_tlbinv {x0} {x1} : Issued (.tlbinv x0 x1) := fun s => by
  rw [exec_tlbinv]; unfold execTlbinv State.issueAll State.issueThen; exact ⟨_, _, .inl rfl, rfl⟩
theorem issued_haltcHalt {x0} {x1} : Issued (.haltcHalt x0 x1) := fun s => by
  rw [exec_haltcHalt]; unfold execHaltcHalt State.runHaltc State.issueAll State.issueThen; exact ⟨_, _, .inl rfl, rfl⟩
theorem issued_haltcResume {x0} {x1} : Issued (.haltcResume x0 x1) := fun s => by
  rw [exec_haltcResume]; unfold execHaltcResume State.runHaltc State.issueAll State.issueThen; exact ⟨_, _, .inl rfl, rfl⟩
theorem issued_haltcDebugHalt {x0} {x1} : Issued (.haltcDebugHalt x0 x1) := fun s => by
  rw [exec_haltcDebugHalt]; unfold execHaltcDebugHalt State.runHaltc State.issueAll State.issueThen; exact ⟨_, _, .inl rfl, rfl⟩
theorem issued_dbgstep {x0} : Issued (.dbgstep x0) := fun s => by
  rw [exec_dbgstep]; unfold execDbgstep State.issueAll State.issueThen; exact ⟨_, _, .inl rfl, rfl⟩
theorem issued_nop  : Issued (.nop ) := fun s => by
  rw [exec_nop]; unfold execNop State.issueAll State.issueThen; exact ⟨_, _, .inl rfl, rfl⟩
theorem issued_ret  : Issued (.ret ) := fun s => by
  rw [exec_ret]; unfold execRet; exact ⟨_, _, .inl rfl, rfl⟩
theorem issued_exit  : Issued (.exit ) := fun s => by
  rw [exec_exit]; unfold execExit State.issueThen; exact ⟨_, _, .inr rfl, rfl⟩
theorem issued_fence  : Issued (.fence ) := fun s => by
  rw [exec_fence]; unfold execFence State.issueAll State.issueThen; exact ⟨_, _, .inl rfl, rfl⟩
theorem issued_mswap  : Issued (.mswap ) := fun s => by
  rw [exec_mswap]; unfold execMswap State.runCommand State.issueAll State.issueThen; exact ⟨_, _, .inl rfl, rfl⟩
theorem issued_tret  : Issued (.tret ) := fun s => by
  rw [exec_tret]; unfold execTret State.issueAll State.issueThen; exact ⟨_, _, .inl rfl, rfl⟩

/-- Every instruction with a word is issued so. -/
theorem issued (i : Instr) (h : encode i ≠ []) : Issued i := by
  cases i with
  | bra _ => exact issued_bra
  | bz _ _ => exact issued_bz
  | bnz _ _ => exact issued_bnz
  | call _ => exact issued_call
  | jmpr _ => exact issued_jmpr
  | cjoin _ => exact issued_cjoin
  | bmask _ _ => exact issued_bmask
  | cleave _ => exact issued_cleave
  | winb _ => exact issued_winb
  | rep _ _ => exact issued_rep
  | trap _ => exact issued_trap
  | bkpt _ => exact issued_bkpt
  | sleep _ => exact issued_sleep
  | add _ _ _ _ => exact issued_add
  | addi _ _ _ _ => exact issued_addi
  | sub _ _ _ _ => exact issued_sub
  | mul _ _ _ _ => exact issued_mul
  | mulhs _ _ _ _ => exact issued_mulhs
  | mulhn _ _ _ _ => exact issued_mulhn
  | mad _ _ _ _ _ => exact issued_mad
  | mins _ _ _ _ => exact issued_mins
  | minn _ _ _ _ => exact issued_minn
  | maxs _ _ _ _ => exact issued_maxs
  | maxn _ _ _ _ => exact issued_maxn
  | abs _ _ _ => exact issued_abs
  | neg _ _ _ => exact issued_neg
  | and _ _ _ => exact issued_and
  | or _ _ _ => exact issued_or
  | xor _ _ _ => exact issued_xor
  | andn _ _ _ => exact issued_andn
  | not _ _ => exact issued_not
  | shl _ _ _ _ => exact issued_shl
  | shr _ _ _ _ => exact issued_shr
  | sra _ _ _ _ => exact issued_sra
  | shli _ _ _ _ => exact issued_shli
  | shri _ _ _ _ => exact issued_shri
  | srai _ _ _ _ => exact issued_srai
  | rotl _ _ _ _ => exact issued_rotl
  | popc _ _ _ => exact issued_popc
  | clz _ _ _ => exact issued_clz
  | brev _ _ _ => exact issued_brev
  | bfx _ _ _ => exact issued_bfx
  | bfi _ _ _ _ => exact issued_bfi
  | cmpeq _ _ _ _ => exact issued_cmpeq
  | cmplts _ _ _ _ => exact issued_cmplts
  | cmpltn _ _ _ _ => exact issued_cmpltn
  | cmples _ _ _ _ => exact issued_cmples
  | cmplen _ _ _ _ => exact issued_cmplen
  | sel _ _ _ _ _ => exact issued_sel
  | mov _ _ => exact issued_mov
  | li _ _ => exact issued_li
  | lih _ _ _ => exact issued_lih
  | lea _ _ _ => exact issued_lea
  | fadd _ _ _ _ => exact issued_fadd
  | fsub _ _ _ _ => exact issued_fsub
  | fmul _ _ _ _ => exact issued_fmul
  | ffma _ _ _ _ _ => exact issued_ffma
  | fmin _ _ _ _ => exact issued_fmin
  | fmax _ _ _ _ => exact issued_fmax
  | fabs _ _ _ => exact issued_fabs
  | fneg _ _ _ => exact issued_fneg
  | fcmpeq _ _ _ _ => exact issued_fcmpeq
  | fcmplt _ _ _ _ => exact issued_fcmplt
  | fcmple _ _ _ _ => exact issued_fcmple
  | fcmpun _ _ _ _ => exact issued_fcmpun
  | frcp _ _ _ => exact issued_frcp
  | frsq _ _ _ => exact issued_frsq
  | fsqrt _ _ _ => exact issued_fsqrt
  | fexp2 _ _ _ => exact issued_fexp2
  | flog2 _ _ _ => exact issued_flog2
  | fsin _ _ _ => exact issued_fsin
  | fcos _ _ _ => exact issued_fcos
  | fscale _ _ _ _ => exact issued_fscale
  | fclass _ _ _ => exact issued_fclass
  | fdot _ _ _ _ => exact issued_fdot
  | fsum _ _ _ => exact issued_fsum
  | fcvt _ _ _ _ => exact issued_fcvt
  | fcvtam _ _ _ _ => exact issued_fcvtam
  | f2i _ _ _ _ => exact issued_f2i
  | i2f _ _ _ _ => exact issued_i2f
  | qpack _ _ _ _ => exact issued_qpack
  | qpackGs _ _ => exact issued_qpackGs
  | qpackBs _ _ _ => exact issued_qpackBs
  | qunpk _ _ _ _ => exact issued_qunpk
  | fpack _ _ _ _ => exact issued_fpack
  | funpk _ _ _ => exact issued_funpk
  | shfl _ _ _ => exact issued_shfl
  | shfliIdx _ _ _ => exact issued_shfliIdx
  | shfliUp _ _ _ => exact issued_shfliUp
  | shfliDown _ _ _ => exact issued_shfliDown
  | shfliXor _ _ _ => exact issued_shfliXor
  | voteall _ _ => exact issued_voteall
  | voteany _ _ => exact issued_voteany
  | ballot _ _ => exact issued_ballot
  | matchA _ _ => exact issued_matchA
  | scanadd _ _ _ => exact issued_scanadd
  | scanaddx _ _ _ => exact issued_scanaddx
  | redadd _ _ _ => exact issued_redadd
  | redmaxs _ _ _ => exact issued_redmaxs
  | redmaxn _ _ _ => exact issued_redmaxn
  | redmins _ _ _ => exact issued_redmins
  | redminn _ _ _ => exact issued_redminn
  | redor _ _ _ => exact issued_redor
  | fredadd _ _ _ => exact issued_fredadd
  | fscanadd _ _ _ => exact issued_fscanadd
  | elect _ => exact issued_elect
  | memb _ => exact issued_memb
  | ld8 _ _ _ _ => exact issued_ld8
  | ld16 _ _ _ _ => exact issued_ld16
  | ld32 _ _ _ _ => exact issued_ld32
  | ld64 _ _ _ _ => exact issued_ld64
  | ld128 _ _ _ _ => exact issued_ld128
  | ldx8 _ _ _ _ => exact issued_ldx8
  | ldx16 _ _ _ _ => exact issued_ldx16
  | ldx32 _ _ _ _ => exact issued_ldx32
  | st8 _ _ _ => exact issued_st8
  | st16 _ _ _ => exact issued_st16
  | st32 _ _ _ => exact issued_st32
  | st64 _ _ _ => exact issued_st64
  | st128 _ _ _ => exact issued_st128
  | stg64 _ _ _ => exact issued_stg64
  | stg128 _ _ _ => exact issued_stg128
  | pref _ _ => exact issued_pref
  | lds8 _ _ _ _ => exact issued_lds8
  | lds16 _ _ _ _ => exact issued_lds16
  | lds32 _ _ _ _ => exact issued_lds32
  | lds64 _ _ _ _ => exact issued_lds64
  | lds128 _ _ _ _ => exact issued_lds128
  | sts8 _ _ _ => exact issued_sts8
  | sts16 _ _ _ => exact issued_sts16
  | sts32 _ _ _ => exact issued_sts32
  | sts64 _ _ _ => exact issued_sts64
  | sts128 _ _ _ => exact issued_sts128
  | atadd32 _ _ _ _ => exact issued_atadd32
  | atadd64 _ _ _ _ => exact issued_atadd64
  | atmaxs32 _ _ _ _ => exact issued_atmaxs32
  | atmaxn32 _ _ _ _ => exact issued_atmaxn32
  | atmins32 _ _ _ _ => exact issued_atmins32
  | atminn32 _ _ _ _ => exact issued_atminn32
  | ator64 _ _ _ _ => exact issued_ator64
  | atand64 _ _ _ _ => exact issued_atand64
  | atxor64 _ _ _ _ => exact issued_atxor64
  | atxch64 _ _ _ _ => exact issued_atxch64
  | atcas64 _ _ _ _ => exact issued_atcas64
  | fatadd32 _ _ _ _ => exact issued_fatadd32
  | fatmax32 _ _ _ _ => exact issued_fatmax32
  | waitv _ _ _ _ => exact issued_waitv
  | capinc _ _ _ => exact issued_capinc
  | capnrw _ _ _ => exact issued_capnrw
  | capperm _ _ _ => exact issued_capperm
  | capget _ _ => exact issued_capget
  | capchk _ _ _ => exact issued_capchk
  | capscr _ _ _ => exact issued_capscr
  | capmov _ _ => exact issued_capmov
  | bcopy _ => exact issued_bcopy
  | bfill _ => exact issued_bfill
  | bput _ => exact issued_bput
  | bget _ => exact issued_bget
  | batomAdd _ _ => exact issued_batomAdd
  | batomOr _ _ => exact issued_batomOr
  | batomXch _ _ => exact issued_batomXch
  | batomCas _ _ => exact issued_batomCas
  | batomMaxn _ _ => exact issued_batomMaxn
  | batomFadd _ _ => exact issued_batomFadd
  | actr _ _ _ => exact issued_actr
  | waitc _ _ => exact issued_waitc
  | actrdBind _ _ => exact issued_actrdBind
  | actrdUnbind _ _ => exact issued_actrdUnbind
  | send _ _ _ => exact issued_send
  | leaseq _ _ => exact issued_leaseq
  | mload _ => exact issued_mload
  | mstream _ => exact issued_mstream
  | mzero _ => exact issued_mzero
  | mread _ _ _ => exact issued_mread
  | mscale _ => exact issued_mscale
  | mnorm _ => exact issued_mnorm
  | mdrain _ _ => exact issued_mdrain
  | mstat _ _ => exact issued_mstat
  | bar _ => exact issued_bar
  | sbar _ => exact issued_sbar
  | arrive _ _ => exact issued_arrive
  | await _ _ => exact issued_await
  | movs _ _ => exact issued_movs
  | movsw _ _ => exact issued_movsw
  | stampr _ _ => exact issued_stampr
  | agejoin _ _ _ => exact issued_agejoin
  | age _ _ => exact issued_age
  | agechk _ _ => exact issued_agechk
  | pagedoneResume _ _ => exact issued_pagedoneResume
  | pagedoneMap _ _ => exact issued_pagedoneMap
  | pagedoneFail _ _ => exact issued_pagedoneFail
  | csrr _ _ _ => exact issued_csrr
  | csrw _ _ _ => exact issued_csrw
  | stampsetReg _ _ _ => exact issued_stampsetReg
  | stampsetGranule _ _ => exact issued_stampsetGranule
  | cmapw _ _ _ => exact issued_cmapw
  | tlbinv _ _ => exact issued_tlbinv
  | haltcHalt _ _ => exact issued_haltcHalt
  | haltcResume _ _ => exact issued_haltcResume
  | haltcDebugHalt _ _ => exact issued_haltcDebugHalt
  | dbgstep _ => exact issued_dbgstep
  | tbuf _ => exact absurd rfl h
  | tdrop _ => exact absurd rfl h
  | tlaunch _ => exact absurd rfl h
  | tcopy _ => exact absurd rfl h
  | tfill _ => exact absurd rfl h
  | tstamp _ => exact absurd rfl h
  | tbr _ => exact absurd rfl h
  | tbrc _ => exact absurd rfl h
  | tcall _ => exact absurd rfl h
  | tretTask _ => exact absurd rfl h
  | twaitv _ => exact absurd rfl h
  | tsig _ => exact absurd rfl h
  | tmark _ => exact absurd rfl h
  | tfence _ => exact absurd rfl h
  | tlease _ => exact absurd rfl h
  | trotate _ => exact absurd rfl h
  | tport _ => exact absurd rfl h
  | tscope _ => exact absurd rfl h
  | tsetk _ => exact absurd rfl h
  | taddk _ => exact absurd rfl h
  | tbrk _ => exact absurd rfl h
  | tpagerRegister _ => exact absurd rfl h
  | tpagerUnregister _ => exact absurd rfl h
  | tctxCreate _ => exact absurd rfl h
  | tctxDestroy _ => exact absurd rfl h
  | tctxHalt _ => exact absurd rfl h
  | tctxResume _ => exact absurd rfl h
  | tctxSetPriority _ => exact absurd rfl h
  | tnop _ => exact absurd rfl h
  | longLatencyComplete _ _ _ => exact absurd rfl h
  | enginePacket _ _ => exact absurd rfl h
  | engineComplete _ => exact absurd rfl h
  | sleepEnd _ _ => exact absurd rfl h
  | slotAccept _ => exact absurd rfl h
  | taskIssue _ _ => exact absurd rfl h
  | taskRetire _ => exact absurd rfl h
  | cohortAdmit _ => exact absurd rfl h
  | cohortStart _ => exact absurd rfl h
  | crewRelease _ => exact absurd rfl h
  | rendezvousStall _ _ => exact absurd rfl h
  | waitvReread _ _ => exact absurd rfl h
  | waitcReread _ _ => exact absurd rfl h
  | matrixStep _ => exact absurd rfl h
  | updateStep _ => exact absurd rfl h
  | twaitvReread _ _ => exact absurd rfl h
  | waitTimeout _ _ => exact absurd rfl h
  | poolEntryTake _ => exact absurd rfl h
  | taskFault _ => exact absurd rfl h
  | freshnessFault _ => exact absurd rfl h
  | egressRelease _ _ => exact absurd rfl h
  | ingressConsume _ _ => exact absurd rfl h
  | unitStopAck _ _ => exact absurd rfl h
  | contextRestore _ => exact absurd rfl h
  | islandPowerDown _ => exact absurd rfl h
  | islandPowerUp _ => exact absurd rfl h
  | pagerRecordWrite _ _ => exact absurd rfl h
  | stampScanVisit _ => exact absurd rfl h
  | eftPatrolVisit _ _ => exact absurd rfl h
  | correctableError _ _ => exact absurd rfl h
  | uncorrectableDataError _ _ => exact absurd rfl h
  | coreFault _ => exact absurd rfl h
  | coreReset _ => exact absurd rfl h
  | matrixUnitReset _ => exact absurd rfl h
  | copyEngineReset _ => exact absurd rfl h
  | windowLogicReset _ => exact absurd rfl h
  | memrd _ => exact absurd rfl h
  | memrdCaching _ => exact absurd rfl h
  | memwr _ _ => exact absurd rfl h
  | memwrptl _ _ _ => exact absurd rfl h
  | unsupportedRequest _ _ => exact absurd rfl h
  | birsp _ _ => exact absurd rfl h
  | hostSnoop _ => exact absurd rfl h
  | hostLineFill _ _ => exact absurd rfl h
  | getCertificate _ _ => exact absurd rfl h
  | challenge _ => exact absurd rfl h
  | tickctlWrite _ => exact absurd rfl h
  | ctx0 _ => exact absurd rfl h
  | biascmdToHost _ => exact absurd rfl h
  | biascmdToDevice _ => exact absurd rfl h
  | flipComplete _ => exact absurd rfl h
  | loadFirmwareImage _ => exact absurd rfl h
  | startFirmware _ => exact absurd rfl h
  | readFirmwareVersion _ => exact absurd rfl h
  | readCounts _ => exact absurd rfl h
  | hostRegisterWrite _ _ => exact absurd rfl h
  | stackRead _ _ => exact absurd rfl h
  | stackWrite _ _ => exact absurd rfl h
  | stackStampRead _ _ => exact absurd rfl h
  | stackMailbox _ _ => exact absurd rfl h
  | timeBeat _ => exact absurd rfl h
  | stackResponse _ _ => exact absurd rfl h
  | flitReceive _ _ => exact absurd rfl h
  | replayRequest _ _ => exact absurd rfl h
  | linkDown _ => exact absurd rfl h
  | rekeyInterrupt _ _ => exact absurd rfl h
  | directionStall _ => exact absurd rfl h
  | timeSync _ => exact absurd rfl h
  | writePacket _ => exact absurd rfl h
  | writeAcknowledgement _ => exact absurd rfl h
  | readRequest _ => exact absurd rfl h
  | readData _ => exact absurd rfl h
  | atomicRequest _ => exact absurd rfl h
  | atomicResult _ => exact absurd rfl h
  | egressRecord _ => exact absurd rfl h
  | reject _ => exact absurd rfl h
  | leaseRequest _ _ _ _ => exact absurd rfl h
  | leaseGrant _ _ => exact absurd rfl h
  | dropSlotOffer _ => exact absurd rfl h
  | revocation _ => exact absurd rfl h
  | leaseRelease _ => exact absurd rfl h
  | channelSetChange _ _ _ _ _ => exact absurd rfl h
  | drainEnd _ _ _ => exact absurd rfl h
  | retuneSettled _ _ _ => exact absurd rfl h
  | tableidConfirm _ _ _ _ => exact absurd rfl h
  | unassignedOpcode _ => exact absurd rfl h
  | linkUp _ => exact absurd rfl h
  | unlistedOffsetRead _ => exact absurd rfl h
  | nop => exact issued_nop
  | ret => exact issued_ret
  | exit => exact issued_exit
  | fence => exact issued_fence
  | mswap => exact issued_mswap
  | tret => exact issued_tret
  | deviceTick => exact absurd rfl h
  | hostLinkReset => exact absurd rfl h
  | coldReset => exact absurd rfl h
  | getMeasurements => exact absurd rfl h
  | bootstGo => exact absurd rfl h
  | featctlLock => exact absurd rfl h
  | lkgo => exact absurd rfl h
  | guardStart => exact absurd rfl h
  | dataWindowStart => exact absurd rfl h
  | dataWindowEnd => exact absurd rfl h

end Sys2Proof.Machine
end

