-- ==== Sys2Proof/Tests/Slice0.lean ====
section
/-!
SUPPORT. Tests of the decoder and the checks against words and values that the spec writes out, and for every statement with
hypotheses a state and operands that meet them together.
-/

set_option Elab.async false

namespace Sys2Proof.Tests

open Sys2Proof Sys2Proof.Machine

/-- control: words written out from the rows of the opcode table, fields at distinct values (R148, R151). -/
theorem test_words_control : ∀ p ∈ [
    (0x01001A55#32, none, Instr.bra 6741#17),
    (0x022C1A55#32, none, Instr.bz 22#7 6741#17),
    (0x032C1A55#32, none, Instr.bnz 22#7 6741#17),
    (0x04001A55#32, none, Instr.call 6741#17),
    (0x06000B00#32, none, Instr.jmpr 22#7),
    (0x08000002#32, none, Instr.cjoin 2#3),
    (0x09000B02#32, none, Instr.bmask 22#7 2#3),
    (0x0A000002#32, none, Instr.cleave 2#3),
    (0x0B000005#32, none, Instr.winb 5#5),
    (0x0C200005#32, none, Instr.rep 1#3 5#7),
    (0x0D000005#32, none, Instr.trap 5#7),
    (0x0E000005#32, none, Instr.bkpt 5#7),
    (0x0F000B00#32, none, Instr.sleep 22#7),
    (0x00000000#32, none, Instr.nop),
    (0x05000000#32, none, Instr.ret),
    (0x07000000#32, none, Instr.exit)] ,
    (decodeWords p.1 p.2.1).toOption = some p.2.2 := by decide +kernel

/-- integer: words written out from the rows of the opcode table, fields at distinct values (R148, R151). -/
theorem test_words_integer_1 : ∀ p ∈ [
    (0x102A8B0C#32, none, Instr.add 1#3 42#7 22#7 12#7),
    (0x112A8B05#32, none, Instr.addi 1#3 42#7 22#7 5#7),
    (0x122A8B0C#32, none, Instr.sub 1#3 42#7 22#7 12#7),
    (0x132A8B0C#32, none, Instr.mul 1#3 42#7 22#7 12#7),
    (0x142A8B0C#32, none, Instr.mulhs 1#3 42#7 22#7 12#7),
    (0x152A8B0C#32, none, Instr.mulhn 1#3 42#7 22#7 12#7),
    (0x162A8B0C#32, some 0x9#32, Instr.mad 1#3 42#7 22#7 12#7 9#7),
    (0x172A8B0C#32, none, Instr.mins 1#3 42#7 22#7 12#7),
    (0x182A8B0C#32, none, Instr.minn 1#3 42#7 22#7 12#7),
    (0x192A8B0C#32, none, Instr.maxs 1#3 42#7 22#7 12#7),
    (0x1A2A8B0C#32, none, Instr.maxn 1#3 42#7 22#7 12#7),
    (0x1B2A8B00#32, none, Instr.abs 1#3 42#7 22#7),
    (0x1C2A8B00#32, none, Instr.neg 1#3 42#7 22#7),
    (0x1D0A8B0C#32, none, Instr.and 42#7 22#7 12#7),
    (0x1E0A8B0C#32, none, Instr.or 42#7 22#7 12#7),
    (0x1F0A8B0C#32, none, Instr.xor 42#7 22#7 12#7),
    (0x200A8B0C#32, none, Instr.andn 42#7 22#7 12#7),
    (0x210A8B00#32, none, Instr.not 42#7 22#7),
    (0x222A8B0C#32, none, Instr.shl 1#3 42#7 22#7 12#7),
    (0x232A8B0C#32, none, Instr.shr 1#3 42#7 22#7 12#7),
    (0x242A8B0C#32, none, Instr.sra 1#3 42#7 22#7 12#7),
    (0x252A8B05#32, none, Instr.shli 1#3 42#7 22#7 5#6),
    (0x262A8B05#32, none, Instr.shri 1#3 42#7 22#7 5#6),
    (0x272A8B05#32, none, Instr.srai 1#3 42#7 22#7 5#6)] ,
    (decodeWords p.1 p.2.1).toOption = some p.2.2 := by decide +kernel

/-- integer: words written out from the rows of the opcode table, fields at distinct values (R148, R151). -/
theorem test_words_integer_2 : ∀ p ∈ [
    (0x282A8B0C#32, none, Instr.rotl 1#3 42#7 22#7 12#7),
    (0x292A8B00#32, none, Instr.popc 1#3 42#7 22#7),
    (0x2A2A8B00#32, none, Instr.clz 1#3 42#7 22#7),
    (0x2B2A8B00#32, none, Instr.brev 1#3 42#7 22#7),
    (0x2C0A8B0C#32, none, Instr.bfx 42#7 22#7 12#7),
    (0x2D0A8B0C#32, some 0x9#32, Instr.bfi 42#7 22#7 12#7 9#7),
    (0x2E2A8B0C#32, none, Instr.cmpeq 1#3 42#7 22#7 12#7),
    (0x2F2A8B0C#32, none, Instr.cmplts 1#3 42#7 22#7 12#7),
    (0x302A8B0C#32, none, Instr.cmpltn 1#3 42#7 22#7 12#7),
    (0x312A8B0C#32, none, Instr.cmples 1#3 42#7 22#7 12#7),
    (0x322A8B0C#32, none, Instr.cmplen 1#3 42#7 22#7 12#7),
    (0x332A8B0C#32, some 0x9#32, Instr.sel 1#3 42#7 22#7 12#7 9#7),
    (0x340A8B00#32, none, Instr.mov 42#7 22#7),
    (0x350A8000#32, some 0x89ABCDEF#32, Instr.li 42#7 0x89ABCDEF#32),
    (0x360A8B00#32, some 0x89ABCDEF#32, Instr.lih 42#7 22#7 0x89ABCDEF#32),
    (0x370A8B0C#32, none, Instr.lea 42#7 22#7 12#7)] ,
    (decodeWords p.1 p.2.1).toOption = some p.2.2 := by decide +kernel

/-- float: words written out from the rows of the opcode table, fields at distinct values (R148, R151). -/
theorem test_words_float_1 : ∀ p ∈ [
    (0x402A8B0C#32, none, Instr.fadd 1#3 42#7 22#7 12#7),
    (0x412A8B0C#32, none, Instr.fsub 1#3 42#7 22#7 12#7),
    (0x422A8B0C#32, none, Instr.fmul 1#3 42#7 22#7 12#7),
    (0x432A8B0C#32, some 0x9#32, Instr.ffma 1#3 42#7 22#7 12#7 9#7),
    (0x442A8B0C#32, none, Instr.fmin 1#3 42#7 22#7 12#7),
    (0x452A8B0C#32, none, Instr.fmax 1#3 42#7 22#7 12#7),
    (0x462A8B00#32, none, Instr.fabs 1#3 42#7 22#7),
    (0x472A8B00#32, none, Instr.fneg 1#3 42#7 22#7),
    (0x482A8B0C#32, none, Instr.fcmpeq 1#3 42#7 22#7 12#7),
    (0x492A8B0C#32, none, Instr.fcmplt 1#3 42#7 22#7 12#7),
    (0x4A2A8B0C#32, none, Instr.fcmple 1#3 42#7 22#7 12#7),
    (0x4B2A8B0C#32, none, Instr.fcmpun 1#3 42#7 22#7 12#7),
    (0x4C2A8B00#32, none, Instr.frcp 1#3 42#7 22#7),
    (0x4D2A8B00#32, none, Instr.frsq 1#3 42#7 22#7),
    (0x4E2A8B00#32, none, Instr.fsqrt 1#3 42#7 22#7),
    (0x4F2A8B00#32, none, Instr.fexp2 1#3 42#7 22#7),
    (0x502A8B00#32, none, Instr.flog2 1#3 42#7 22#7),
    (0x512A8B00#32, none, Instr.fsin 1#3 42#7 22#7),
    (0x522A8B00#32, none, Instr.fcos 1#3 42#7 22#7),
    (0x532A8B0C#32, none, Instr.fscale 1#3 42#7 22#7 12#7),
    (0x542A8B00#32, none, Instr.fclass 1#3 42#7 22#7),
    (0x552A8B0C#32, none, Instr.fdot 1#3 42#7 22#7 12#7),
    (0x562A8B00#32, none, Instr.fsum 1#3 42#7 22#7),
    (0x572A8B02#32, none, Instr.fcvt 1#3 42#7 22#7 2#3)] ,
    (decodeWords p.1 p.2.1).toOption = some p.2.2 := by decide +kernel

/-- float: words written out from the rows of the opcode table, fields at distinct values (R148, R151). -/
theorem test_words_float_2 : ∀ p ∈ [
    (0x582A8B02#32, none, Instr.fcvtam 1#3 42#7 22#7 2#3),
    (0x592A8B02#32, none, Instr.f2i 1#3 42#7 22#7 2#3),
    (0x5A2A8B02#32, none, Instr.i2f 1#3 42#7 22#7 2#3),
    (0x5B2A8B0C#32, none, Instr.qpack 1#3 42#7 22#7 12#7),
    (0x5B8A8B00#32, none, Instr.qpackGs 42#7 22#7),
    (0x5BAA8B0C#32, none, Instr.qpackBs 42#7 22#7 12#7),
    (0x5C2A8B0C#32, none, Instr.qunpk 1#3 42#7 22#7 12#7),
    (0x5D2A8B0C#32, none, Instr.fpack 1#3 42#7 22#7 12#7),
    (0x5E2A8B00#32, none, Instr.funpk 1#3 42#7 22#7)] ,
    (decodeWords p.1 p.2.1).toOption = some p.2.2 := by decide +kernel

/-- cross lane: words written out from the rows of the opcode table, fields at distinct values (R148, R151). -/
theorem test_words_cross_lane : ∀ p ∈ [
    (0x600A8B0C#32, none, Instr.shfl 42#7 22#7 12#7),
    (0x610A8B05#32, none, Instr.shfliIdx 42#7 22#7 5#5),
    (0x610A8B25#32, none, Instr.shfliUp 42#7 22#7 5#5),
    (0x610A8B45#32, none, Instr.shfliDown 42#7 22#7 5#5),
    (0x610A8B65#32, none, Instr.shfliXor 42#7 22#7 5#5),
    (0x620A8B00#32, none, Instr.voteall 42#7 22#7),
    (0x630A8B00#32, none, Instr.voteany 42#7 22#7),
    (0x640A8B00#32, none, Instr.ballot 42#7 22#7),
    (0x650A8B00#32, none, Instr.matchA 42#7 22#7),
    (0x662A8B00#32, none, Instr.scanadd 1#3 42#7 22#7),
    (0x672A8B00#32, none, Instr.scanaddx 1#3 42#7 22#7),
    (0x682A8B00#32, none, Instr.redadd 1#3 42#7 22#7),
    (0x692A8B00#32, none, Instr.redmaxs 1#2 42#7 22#7),
    (0x69AA8B00#32, none, Instr.redmaxn 1#2 42#7 22#7),
    (0x6A2A8B00#32, none, Instr.redmins 1#2 42#7 22#7),
    (0x6AAA8B00#32, none, Instr.redminn 1#2 42#7 22#7),
    (0x6B2A8B00#32, none, Instr.redor 1#3 42#7 22#7),
    (0x6C2A8B00#32, none, Instr.fredadd 1#3 42#7 22#7),
    (0x6D2A8B00#32, none, Instr.fscanadd 1#3 42#7 22#7),
    (0x6E0A8000#32, none, Instr.elect 42#7),
    (0x6F0A8000#32, none, Instr.memb 42#7)] ,
    (decodeWords p.1 p.2.1).toOption = some p.2.2 := by decide +kernel

/-- memory: words written out from the rows of the opcode table, fields at distinct values (R148, R151). -/
theorem test_words_memory_1 : ∀ p ∈ [
    (0x706A8B55#32, none, Instr.ld8 3#3 42#7 22#7 85#7),
    (0x716A8B55#32, none, Instr.ld16 3#3 42#7 22#7 85#7),
    (0x726A8B55#32, none, Instr.ld32 3#3 42#7 22#7 85#7),
    (0x736A8B55#32, none, Instr.ld64 3#3 42#7 22#7 85#7),
    (0x746A8B55#32, none, Instr.ld128 3#3 42#7 22#7 85#7),
    (0x756A8B55#32, none, Instr.ldx8 3#3 42#7 22#7 85#7),
    (0x766A8B55#32, none, Instr.ldx16 3#3 42#7 22#7 85#7),
    (0x776A8B55#32, none, Instr.ldx32 3#3 42#7 22#7 85#7),
    (0x780A8B55#32, none, Instr.st8 42#7 22#7 85#7),
    (0x790A8B55#32, none, Instr.st16 42#7 22#7 85#7),
    (0x7A0A8B55#32, none, Instr.st32 42#7 22#7 85#7),
    (0x7B0A8B55#32, none, Instr.st64 42#7 22#7 85#7),
    (0x7C0A8B55#32, none, Instr.st128 42#7 22#7 85#7),
    (0x7D0A8B55#32, none, Instr.stg64 42#7 22#7 85#7),
    (0x7E0A8B55#32, none, Instr.stg128 42#7 22#7 85#7),
    (0x7F000B55#32, none, Instr.pref 22#7 85#7),
    (0x806A8B55#32, none, Instr.lds8 3#3 42#7 22#7 85#7),
    (0x816A8B55#32, none, Instr.lds16 3#3 42#7 22#7 85#7),
    (0x826A8B55#32, none, Instr.lds32 3#3 42#7 22#7 85#7),
    (0x836A8B55#32, none, Instr.lds64 3#3 42#7 22#7 85#7),
    (0x846A8B55#32, none, Instr.lds128 3#3 42#7 22#7 85#7),
    (0x850A8B55#32, none, Instr.sts8 42#7 22#7 85#7),
    (0x860A8B55#32, none, Instr.sts16 42#7 22#7 85#7),
    (0x870A8B55#32, none, Instr.sts32 42#7 22#7 85#7)] ,
    (decodeWords p.1 p.2.1).toOption = some p.2.2 := by decide +kernel

/-- memory: words written out from the rows of the opcode table, fields at distinct values (R148, R151). -/
theorem test_words_memory_2 : ∀ p ∈ [
    (0x880A8B55#32, none, Instr.sts64 42#7 22#7 85#7),
    (0x890A8B55#32, none, Instr.sts128 42#7 22#7 85#7)] ,
    (decodeWords p.1 p.2.1).toOption = some p.2.2 := by decide +kernel

/-- atomics: words written out from the rows of the opcode table, fields at distinct values (R148, R151). -/
theorem test_words_atomics : ∀ p ∈ [
    (0x8A2A8B0C#32, none, Instr.atadd32 1#2 42#7 22#7 12#7),
    (0x8B2A8B0C#32, none, Instr.atadd64 1#2 42#7 22#7 12#7),
    (0x8C2A8B0C#32, none, Instr.atmaxs32 1#2 42#7 22#7 12#7),
    (0x8D2A8B0C#32, none, Instr.atmaxn32 1#2 42#7 22#7 12#7),
    (0x8E2A8B0C#32, none, Instr.atmins32 1#2 42#7 22#7 12#7),
    (0x8F2A8B0C#32, none, Instr.atminn32 1#2 42#7 22#7 12#7),
    (0x902A8B0C#32, none, Instr.ator64 1#2 42#7 22#7 12#7),
    (0x912A8B0C#32, none, Instr.atand64 1#2 42#7 22#7 12#7),
    (0x922A8B0C#32, none, Instr.atxor64 1#2 42#7 22#7 12#7),
    (0x932A8B0C#32, none, Instr.atxch64 1#2 42#7 22#7 12#7),
    (0x942A8B0C#32, none, Instr.atcas64 1#2 42#7 22#7 12#7),
    (0x952A8B0C#32, none, Instr.fatadd32 1#2 42#7 22#7 12#7),
    (0x962A8B0C#32, none, Instr.fatmax32 1#2 42#7 22#7 12#7),
    (0x972A8B0C#32, none, Instr.waitv 1#3 42#7 22#7 12#7),
    (0x98000000#32, none, Instr.fence)] ,
    (decodeWords p.1 p.2.1).toOption = some p.2.2 := by decide +kernel

/-- capabilities: words written out from the rows of the opcode table, fields at distinct values (R148, R151). -/
theorem test_words_capabilities : ∀ p ∈ [
    (0x990A8B0C#32, none, Instr.capinc 42#7 22#7 12#7),
    (0x9A0A8B0C#32, none, Instr.capnrw 42#7 22#7 12#7),
    (0x9B0A8B0C#32, none, Instr.capperm 42#7 22#7 12#7),
    (0x9C0A8005#32, none, Instr.capget 42#7 5#4),
    (0x9D0A8B0C#32, none, Instr.capchk 42#7 22#7 12#7),
    (0x9E0A8B0C#32, none, Instr.capscr 42#7 22#7 12#7),
    (0x9F0A8B00#32, none, Instr.capmov 42#7 22#7)] ,
    (decodeWords p.1 p.2.1).toOption = some p.2.2 := by decide +kernel

/-- bulk: words written out from the rows of the opcode table, fields at distinct values (R148, R151). -/
theorem test_words_bulk : ∀ p ∈ [
    (0xA0000B00#32, none, Instr.bcopy 22#7),
    (0xA1000B00#32, none, Instr.bfill 22#7),
    (0xA2000B00#32, none, Instr.bput 22#7),
    (0xA3000B00#32, none, Instr.bget 22#7),
    (0xA40A8B00#32, none, Instr.batomAdd 42#7 22#7),
    (0xA42A8B00#32, none, Instr.batomOr 42#7 22#7),
    (0xA44A8B00#32, none, Instr.batomXch 42#7 22#7),
    (0xA46A8B00#32, none, Instr.batomCas 42#7 22#7),
    (0xA48A8B00#32, none, Instr.batomMaxn 42#7 22#7),
    (0xA4AA8B00#32, none, Instr.batomFadd 42#7 22#7),
    (0xA50A8B0C#32, none, Instr.actr 42#7 22#7 12#7),
    (0xA6000B0C#32, none, Instr.waitc 22#7 12#7),
    (0xA7000B0C#32, none, Instr.actrdBind 22#7 12#7),
    (0xA80A8B05#32, none, Instr.send 42#7 22#7 5#6),
    (0xA90A8005#32, none, Instr.leaseq 42#7 5#6)] ,
    (decodeWords p.1 p.2.1).toOption = some p.2.2 := by decide +kernel

/-- matrix: words written out from the rows of the opcode table, fields at distinct values (R148, R151). -/
theorem test_words_matrix : ∀ p ∈ [
    (0xB0000B00#32, none, Instr.mload 22#7),
    (0xB2000B00#32, none, Instr.mstream 22#7),
    (0xB3000B00#32, none, Instr.mzero 22#7),
    (0xB42A8B00#32, none, Instr.mread 1#3 42#7 22#7),
    (0xB5000B00#32, none, Instr.mscale 22#7),
    (0xB6000B00#32, none, Instr.mnorm 22#7),
    (0xB7000B01#32, none, Instr.mdrain 22#7 1#1),
    (0xB82A8000#32, none, Instr.mstat 1#1 42#7),
    (0xB1000000#32, none, Instr.mswap)] ,
    (decodeWords p.1 p.2.1).toOption = some p.2.2 := by decide +kernel

/-- barriers: words written out from the rows of the opcode table, fields at distinct values (R148, R151). -/
theorem test_words_barriers : ∀ p ∈ [
    (0xC0000005#32, none, Instr.bar 5#4),
    (0xC1000005#32, none, Instr.sbar 5#5),
    (0xC20A8005#32, none, Instr.arrive 42#7 5#4),
    (0xC3000B05#32, none, Instr.await 22#7 5#4)] ,
    (decodeWords p.1 p.2.1).toOption = some p.2.2 := by decide +kernel

/-- special: words written out from the rows of the opcode table, fields at distinct values (R148, R151). -/
theorem test_words_special : ∀ p ∈ [
    (0xE00A8005#32, none, Instr.movs 42#7 5#7),
    (0xE1000B0D#32, none, Instr.movsw 22#7 13#7),
    (0xE20A8B00#32, none, Instr.stampr 42#7 22#7),
    (0xE30A8B0C#32, none, Instr.agejoin 42#7 22#7 12#7),
    (0xE40A8B00#32, none, Instr.age 42#7 22#7),
    (0xE5600B00#32, none, Instr.agechk 3#3 22#7),
    (0xE6000B0C#32, none, Instr.pagedoneResume 22#7 12#7)] ,
    (decodeWords p.1 p.2.1).toOption = some p.2.2 := by decide +kernel

/-- privileged: words written out from the rows of the opcode table, fields at distinct values (R148, R151). -/
theorem test_words_privileged : ∀ p ∈ [
    (0xE90A8005#32, none, Instr.csrr 0#3 42#7 5#7),
    (0xEA000B05#32, none, Instr.csrw 0#3 22#7 5#7),
    (0xEB0A8B0C#32, none, Instr.stampsetReg 42#7 22#7 12#7),
    (0xEB200B0C#32, none, Instr.stampsetGranule 22#7 12#7),
    (0xEC0A8B0C#32, none, Instr.cmapw 42#7 22#7 12#7),
    (0xED000B0C#32, none, Instr.tlbinv 22#7 12#7),
    (0xEE000B0C#32, none, Instr.haltcHalt 22#7 12#7),
    (0xEF000B00#32, none, Instr.dbgstep 22#7),
    (0xE8000000#32, none, Instr.tret)] ,
    (decodeWords p.1 p.2.1).toOption = some p.2.2 := by decide +kernel
/-- The words that spec/05 (R152), 06 (R165 to R186), 07 and 08 write out with their instructions. -/
theorem test_words_of_the_examples : ∀ p ∈ [
    (0x73220101#32, none, Instr.ld64 1#3 8#7 2#7 1#7),
    (0x35028000#32, some 0x3F000000#32, Instr.li 10#7 0x3F000000#32),
    (0x4202C40A#32, none, Instr.fmul 0#3 11#7 8#7 10#7),
    (0x43030589#32, some 0x7F#32, Instr.ffma 0#3 12#7 11#7 9#7 127#7),
    (0x7A01037E#32, none, Instr.st32 4#7 6#7 126#7),
    (0x030BFFF4#32, none, Instr.bnz 5#7 0x1FFF4#17),
    (0x10C14307#32, none, Instr.add 6#3 5#7 6#7 7#7),
    (0x1120C1FF#32, none, Instr.addi 1#3 3#7 3#7 127#7),
    (0x26624203#32, none, Instr.shri 3#3 9#7 4#7 3#6),
    (0x3302858C#32, some 0xD#32, Instr.sel 0#3 10#7 11#7 12#7 13#7),
    (0x37010107#32, none, Instr.lea 4#7 2#7 7#7),
    (0x5582048A#32, none, Instr.fdot 4#3 8#7 9#7 10#7),
    (0x5B03050B#32, none, Instr.qpack 0#3 12#7 10#7 11#7),
    (0xE0014009#32, none, Instr.movs 5#7 9#7),
    (0xE100030C#32, none, Instr.movsw 6#7 12#7),
    (0xE3020403#32, none, Instr.agejoin 8#7 8#7 3#7),
    (0xE5400400#32, none, Instr.agechk 2#3 8#7),
    (0x0101FFFD#32, none, Instr.bra 0x1FFFD#17),
    (0x0A000001#32, none, Instr.cleave 1#3),
    (0x09000282#32, none, Instr.bmask 5#7 2#3),
    (0x0CC00003#32, none, Instr.rep 6#3 3#7),
    (0x61020421#32, none, Instr.shfliUp 8#7 8#7 1#5),
    (0x69A1C180#32, none, Instr.redmaxn 1#2 7#7 3#7),
    (0xC1000004#32, none, Instr.sbar 4#5),
    (0x7D010100#32, none, Instr.stg64 4#7 2#7 0#7),
    (0x76030303#32, none, Instr.ldx16 0#3 12#7 6#7 3#7)] ,
    (decodeWords p.1 p.2.1).toOption = some p.2.2 := by decide +kernel

/-- An L form whose second word is not there is no instruction (R148). -/
theorem test_half_of_a_long_form :
    (decodeWords 0x43030589#32 none).toOption = none ∧ (decodeWords 0x16000000#32 none).toOption = none := by decide +kernel

/-- R151: the opcodes of no instruction, MBZ bits, reserved TY values, odd pairs, immediates past their limit, unassigned numbers. -/
theorem test_words_refused : [0x38000000#32, 0x3F000000#32, 0x5F000000#32, 0xAA000000#32, 0xB9000000#32, 0xC4000000#32,
    0xDF000000#32, 0xE7000000#32, 0xF0000000#32, 0xFF000000#32, 0x00000001#32, 0x01020000#32, 0x40C00000#32, 0x71020080#32,
    0x74014000#32, 0x25600010#32, 0xE0000014#32, 0xE0000028#32, 0xE1000009#32, 0xA0000080#32, 0xE5000000#32].all
      (fun w => (decodeWords w none).toOption == none) = true := by decide +kernel

/-- A slot of a task with these flags and A, all its other words zero but for a predicate cell. -/
def slotA (flags : BitVec 8) (a : BitVec 32) (d : Word) : TaskSlot := { flags := flags, a := a, b := 0#64, c := 0#64, d := d }

/-- R69, R70: word 0 holds SEQ [63:48], OP [47:40], the flags [39:32] and A [31:0]. -/
theorem test_slots_decode : ∀ p ∈ [
    (0x0005010800000ABC#64, 0#64, some (Instr.tbuf (slotA 8#8 0xABC#32 0#64))),
    (0x0005020000000ABC#64, 0#64, some (Instr.tdrop (slotA 0#8 0xABC#32 0#64))),
    (0x0006030000000000#64, 0#64, some (Instr.tlaunch (slotA 0#8 0#32 0#64))),
    (0x0007040402000005#64, 0#64, some (Instr.tcopy (slotA 4#8 0x2000005#32 0#64))),
    (0x0008050000000001#64, 0#64, some (Instr.tfill (slotA 0#8 1#32 0#64))),
    (0x0009060000000000#64, 0#64, some (Instr.tstamp (slotA 0#8 0#32 0#64))),
    (0x000A070100000003#64, 8#64, some (Instr.tbr (slotA 1#8 3#32 8#64))),
    (0x000B082800000003#64, 0#64, some (Instr.tbrc (slotA 0x28#8 3#32 0#64))),
    (0x000C090000000000#64, 0#64, some (Instr.tcall (slotA 0#8 0#32 0#64))),
    (0x000D0A0200000000#64, 16#64, some (Instr.tretTask (slotA 2#8 0#32 16#64))),
    (0x000E0B1800000004#64, 0#64, some (Instr.twaitv (slotA 0x18#8 4#32 0#64))),
    (0x000F0C1000000123#64, 0#64, some (Instr.tsig (slotA 0x10#8 0x123#32 0#64))),
    (0x00100D0000000000#64, 0#64, some (Instr.tmark (slotA 0#8 0#32 0#64))),
    (0x00110E0800000000#64, 0#64, some (Instr.tfence (slotA 8#8 0#32 0#64))),
    (0x00120F0000010005#64, 0#64, some (Instr.tlease (slotA 0#8 0x10005#32 0#64))),
    (0x0013100000000000#64, 0#64, some (Instr.trotate (slotA 0#8 0#32 0#64))),
    (0x0014110000040005#64, 0#64, some (Instr.tport (slotA 0#8 0x40005#32 0#64))),
    (0x001512000000001F#64, 0#64, some (Instr.tscope (slotA 0#8 0x1F#32 0#64))),
    (0x001613080000000F#64, 0#64, some (Instr.tsetk (slotA 8#8 0xF#32 0#64))),
    (0x001714000000000F#64, 0#64, some (Instr.taddk (slotA 0#8 0xF#32 0#64))),
    (0x0018150000000002#64, 0#64, some (Instr.tbrk (slotA 0#8 2#32 0#64))),
    (0x0019160000010100#64, 0#64, some (Instr.tpagerRegister (slotA 0#8 0x10100#32 0#64))),
    (0x0019160000010110#64, 0#64, some (Instr.tpagerUnregister (slotA 0#8 0x10110#32 0#64))),
    (0x001A170000000100#64, 0#64, some (Instr.tctxCreate (slotA 0#8 0x100#32 0#64))),
    (0x001A170000000101#64, 0#64, some (Instr.tctxDestroy (slotA 0#8 0x101#32 0#64))),
    (0x001A170000000102#64, 0#64, some (Instr.tctxHalt (slotA 0#8 0x102#32 0#64))),
    (0x001A170000000103#64, 0#64, some (Instr.tctxResume (slotA 0#8 0x103#32 0#64))),
    (0x001A170000000104#64, 0#64, some (Instr.tctxSetPriority (slotA 0#8 0x104#32 0#64))),
    (0x001B180000000000#64, 0#64, some (Instr.tnop (slotA 0#8 0#32 0#64))),
    (0x001B000000000000#64, 0#64, none), (0x001B190000000000#64, 0#64, none), (0x001B180300000000#64, 0#64, none),
    (0x001B184000000000#64, 0#64, none), (0x001B180000000001#64, 0#64, none), (0x001A170000000105#64, 0#64, none)] ,
    decodeSlot p.1 0#64 0#64 p.2.1 = p.2.2 := by decide +kernel

/-! ### Ill-formed terms, one for each check -/

/-- R149, R150: reserved TY values and immediates outside their limits. -/
theorem test_illFormed_types : ∀ p ∈ [
    (Instr.fadd 6#3 1#7 2#7 3#7, IllFormed.reservedType), (Instr.fcvt 7#3 1#7 2#7 0#3, .reservedType),
    (Instr.fcvt 0#3 1#7 2#7 6#3, .immediateLimit), (Instr.qpack 3#3 1#7 2#7 3#7, .reservedType),
    (Instr.qunpk 3#3 1#7 2#7 3#7, .reservedType), (Instr.fpack 3#3 1#7 2#7 3#7, .reservedType),
    (Instr.funpk 6#3 1#7 2#7, .reservedType), (Instr.waitv 6#3 1#7 2#7 3#7, .reservedType), (Instr.mread 3#3 1#7 2#7, .reservedType),
    (Instr.agechk 0#3 1#7, .reservedType), (Instr.shli 3#3 1#7 2#7 8#6, .immediateLimit),
    (Instr.shri 2#3 1#7 2#7 16#6, .immediateLimit), (Instr.srai 1#3 1#7 2#7 32#6, .immediateLimit),
    (Instr.movs 1#7 20#7, .reservedNumber), (Instr.movsw 1#7 10#7, .reservedNumber), (Instr.csrr 0#3 1#7 8#7, .reservedNumber),
    (Instr.csrw 0#3 1#7 0#7, .reservedNumber)] ,
    p.1.illFormed = some p.2 ∧ p.1.wf = false := by decide +kernel

/-- R146, R251: odd pair fields and groups, and the pair field 126. -/
theorem test_illFormed_pairs : ∀ i ∈ [
    Instr.jmpr 3#7, Instr.lea 3#7 2#7 1#7, Instr.lea 2#7 126#7 1#7, Instr.ld8 0#3 1#7 3#7 0#7, Instr.ld128 0#3 1#7 2#7 0#7,
    Instr.ldx32 0#3 1#7 3#7 0#7, Instr.st64 1#7 3#7 0#7, Instr.st128 1#7 2#7 0#7, Instr.stg128 2#7 3#7 0#7, Instr.pref 3#7 0#7,
    Instr.lds128 0#3 1#7 2#7 0#7, Instr.sts128 1#7 2#7 0#7, Instr.atadd32 0#2 1#7 3#7 4#7, Instr.atcas64 0#2 1#7 2#7 3#7,
    Instr.waitv 0#3 1#7 3#7 4#7, Instr.capinc 1#7 2#7 3#7, Instr.capnrw 2#7 1#7 3#7, Instr.capget 1#7 0#4, Instr.capchk 1#7 3#7 2#7,
    Instr.capscr 1#7 2#7 3#7, Instr.capmov 2#7 1#7, Instr.bcopy 1#7, Instr.batomCas 2#7 1#7, Instr.send 1#7 3#7 0#6, Instr.mload 1#7,
    Instr.mnorm 1#7, Instr.mdrain 1#7 0#1, Instr.pagedoneResume 1#7 2#7, Instr.stampsetGranule 1#7 2#7] ,
    i.illFormed = some .oddPair ∧ i.wf = false := by decide +kernel

/-- R69, R70: a flag that the opcode does not define, both predicates, a cell without a predicate. -/
theorem test_illFormed_task_flags : ∀ i ∈ [
    Instr.tbuf (slotA 16#8 0#32 0#64), Instr.tsig (slotA 32#8 0#32 0#64), Instr.tcopy (slotA 8#8 0#32 0#64),
    Instr.tnop (slotA 4#8 0#32 0#64), Instr.tnop (slotA 64#8 0#32 0#64), Instr.tnop (slotA 128#8 0#32 0#64),
    Instr.tnop (slotA 3#8 0#32 8#64), Instr.tnop (slotA 0#8 0#32 8#64), Instr.tbrc (slotA 0x30#8 1#32 0#64)] ,
    i.illFormed = some .taskFlags ∧ i.wf = false := by decide +kernel

/-- The MBZ bits and limits of the task rows' operands. -/
theorem test_illFormed_task_operands : ∀ i ∈ [
    Instr.tbuf (slotA 0#8 0x1000#32 0#64), Instr.tdrop (slotA 0#8 0x1000#32 0#64), Instr.tlaunch (slotA 0#8 1#32 0#64),
    Instr.tcopy (slotA 0#8 0x40#32 0#64), Instr.tstamp (slotA 0#8 1#32 0#64), Instr.tbr (slotA 0#8 0#32 0#64),
    Instr.tbrc (slotA 0#8 0#32 0#64), Instr.tcall (slotA 0#8 1#32 0#64), Instr.tretTask (slotA 0#8 1#32 0#64),
    Instr.tsig (slotA 0#8 1#32 0#64), Instr.tmark (slotA 0#8 1#32 0#64), Instr.tfence (slotA 0#8 1#32 0#64),
    Instr.tlease (slotA 0#8 0x40#32 0#64), Instr.trotate (slotA 0#8 1#32 0#64), Instr.tport (slotA 0#8 0x50000#32 0#64),
    Instr.tscope (slotA 0#8 0x20#32 0#64), Instr.tsetk (slotA 0#8 0x10#32 0#64), Instr.taddk (slotA 0#8 0x10#32 0#64),
    Instr.tbrk (slotA 0#8 0#32 0#64), Instr.tpagerRegister (slotA 0#8 0x10#32 0#64), Instr.tpagerUnregister (slotA 0#8 0#32 0#64),
    Instr.tctxCreate (slotA 0#8 1#32 0#64), Instr.tctxDestroy (slotA 0#8 0#32 0#64), Instr.tctxHalt (slotA 0#8 0#32 0#64),
    Instr.tctxResume (slotA 0#8 0#32 0#64), Instr.tctxSetPriority (slotA 0#8 0#32 0#64), Instr.tnop (slotA 0#8 1#32 0#64)] ,
    i.illFormed = some .taskOperand ∧ i.wf = false := by decide +kernel
/-! ### A small machine: one thread of one crew, about to issue -/

/-- The machine of the probe, with every feature agreed and a second leaf that maps the next GiB to host memory. -/
def m0 : State :=
  let s := State.reset.placeWord 32 0
  { s with mem := s.mem.putBytes 0x20008 (toBytes 8 0xE2), parts := s.parts.map (fun p => { p with hwinlim := 0x100000#64, dies := 0xFF#64 }),
           hl := { s.hl with features := 0xFF } }

/-- A register with a DATA stamp of tick 0. -/
def reg (v : Word) : Reg := { v := v, s := 0#32 }

/-- A capability over the 4 KiB from 0x80000 with every permission, in the two words of a pair. -/
def capLo : Word := 0x80000FF#64
/-- Its odd word: BASE 0x80, E 0, M 0. -/
def capHi : Word := 0x8000000#64

/-- The thread: g2 and g3 hold the capability, tagged; g4 to g9 hold 5, 8, 1.0 in F32, 0x1003, 2 and 0; g12 and g13 a capability to
the host GiB, g14 and g15 one to the scratchpad window, tagged; the clause has one slot. -/
def t0 : Thread :=
  { Thread.start 0 (State.reset.nextUid + 2) 0 64 probeLaunch.code probeLaunch.args with
    regs := [⟨probeLaunch.code.lo, sTimeless⟩, ⟨probeLaunch.code.hi, sTimeless⟩, reg capLo, reg capHi, reg 5#64, reg 8#64, reg 0x3F800000#64,
      reg 0x1003#64, reg 2#64, reg 0#64, reg 0#64, reg 0#64, reg 0x40000000FF#64, reg 0x4000000000#64, reg 0xFFFFFFFFFC0000FF#64,
      reg 0xFFFFFFFFFC00003F#64] ++ List.replicate 48 (reg 0#64)
    tags := [true, true, false, false, false, false, true, true] ++ List.replicate 24 false
    clause := some { header := 0x07F80000#32, slots := [0#32] } }

/-- Its crew, with 1 KiB of scratchpad. -/
def c0 : Crew := { Crew.start t0.crew 0 State.reset.nextUid (State.reset.nextUid + 1) 0 0 0 probeLaunch 0#64 with scrSize := 1024 }

/-- The machine with this thread alone as its bundle, and this crew. -/
def mkC (c : Crew) (t : Thread) : State := { m0 with threads := [t], crews := [c], bundle := [(t.crew, t.tid)], agenda := [] }

/-- The machine with this thread. -/
def mk (t : Thread) : State := mkC c0 t

/-- The machine with its contexts changed. -/
def inCtx (f : Ctx → Ctx) (s : State) : State := { s with ctxs := s.ctxs.map f }

/-- What `Solo` asks of thread t in state s whatever the instruction, when no result of it is under way. -/
def soloBase (s : State) (t : Thread) : Bool :=
  decide (s.bundle = [(t.crew, t.tid)]) && decide (s.thread t.crew t.tid = some t) && decide (s.view (t.commit s.cycle) = (t, s))
    && decide (s.issuing = .now ∧ s.hasLate t = false ∧ s.readPast = none)

/-- Instructions whose hypotheses the machine meets. -/
theorem solos {s : State} {t : Thread} {l : List Instr} (h : (soloBase s t && l.all (fun i => decide (s.preCheck i t = none))) = true) :
    ∀ i ∈ l, Solo s i t t s := by
  intro i hi
  simp only [soloBase, Bool.and_eq_true, decide_eq_true_eq, List.all_eq_true] at h
  exact ⟨⟨h.1.1.1.1, h.1.1.1.2, h.1.1.2, h.1.2⟩, h.2 i hi⟩

theorem solo {s : State} {t : Thread} {i : Instr} (h : (soloBase s t && [i].all (fun i => decide (s.preCheck i t = none))) = true) : Solo s i t t s :=
  solos h i (List.mem_singleton.mpr rfl)

/-! ### Witnesses: integer and floating-point instructions -/

theorem witness_IntegerArithmetic : ∀ i ∈ [Instr.add 7#3 63#7 4#7 5#7, .addi 0#3 10#7 4#7 127#7, .sub 0#3 10#7 4#7 5#7, .mul 0#3 10#7 4#7 5#7,
    .mulhs 0#3 10#7 4#7 5#7, .mulhn 0#3 10#7 4#7 5#7, .mad 0#3 10#7 4#7 5#7 6#7, .mins 0#3 10#7 4#7 5#7, .minn 0#3 10#7 4#7 5#7,
    .maxs 0#3 10#7 4#7 5#7, .maxn 0#3 10#7 4#7 5#7, .abs 0#3 10#7 4#7, .neg 0#3 127#7 127#7], Solo (mk t0) i t0 t0 (mk t0) :=
  solos (by decide +kernel)

theorem witness_LogicShiftsAndBits : ∀ i ∈ [Instr.and 10#7 4#7 5#7, .or 10#7 4#7 5#7, .xor 10#7 4#7 5#7, .andn 10#7 4#7 5#7, .not 10#7 4#7,
    .shl 0#3 10#7 4#7 5#7, .shr 0#3 10#7 4#7 5#7, .sra 0#3 10#7 4#7 5#7, .shli 0#3 10#7 4#7 63#6, .shri 3#3 10#7 4#7 7#6,
    .srai 0#3 10#7 4#7 0#6, .rotl 0#3 10#7 4#7 9#7, .popc 0#3 10#7 4#7, .clz 0#3 10#7 9#7, .brev 0#3 10#7 4#7, .bfx 10#7 4#7 5#7,
    .bfi 10#7 4#7 5#7 6#7], Solo (mk t0) i t0 t0 (mk t0) := solos (by decide +kernel)

/-- The bounds of BITS_ONE_BY_ONE: the lowest and the highest bit. -/
theorem witness_BitsOneByOne : 0 < 8 ∧ 7 < 8 ∧ 63 < 64 ∧ bitReverse 8 1 = 0x80 ∧ bitReverse 64 (2 ^ 63) = 1 := by decide +kernel

theorem witness_ComparesSelectsAndMoves : ∀ i ∈ [Instr.cmpeq 0#3 10#7 4#7 5#7, .cmplts 0#3 10#7 4#7 5#7, .cmpltn 0#3 10#7 4#7 5#7,
    .cmples 0#3 10#7 4#7 5#7, .cmplen 0#3 10#7 4#7 5#7, .sel 0#3 10#7 4#7 5#7 6#7, .mov 10#7 4#7, .li 10#7 0xFFFFFFFF#32,
    .lih 10#7 4#7 0xFFFFFFFF#32, .lea 10#7 2#7 4#7], Solo (mk t0) i t0 t0 (mk t0) := solos (by decide +kernel)

theorem witness_FloatElementwise : ∀ i ∈ [Instr.fadd 0#3 10#7 6#7 6#7, .fsub 5#3 10#7 6#7 6#7, .fmul 0#3 10#7 6#7 6#7, .ffma 3#3 10#7 6#7 6#7 6#7,
    .fscale 0#3 10#7 6#7 4#7, .fmin 0#3 10#7 6#7 6#7, .fmax 0#3 10#7 6#7 6#7, .fabs 0#3 10#7 6#7, .fneg 0#3 10#7 6#7,
    .fcmpeq 0#3 10#7 6#7 6#7, .fcmplt 0#3 10#7 6#7 6#7, .fcmple 0#3 10#7 6#7 6#7, .fcmpun 0#3 10#7 6#7 6#7, .fclass 0#3 10#7 6#7],
    Solo (mk t0) i t0 t0 (mk t0) := solos (by decide +kernel)

theorem witness_FloatFunctions : ∀ i ∈ [Instr.frcp 0#3 10#7 6#7, .frsq 0#3 10#7 6#7, .fsqrt 1#3 10#7 6#7, .fexp2 0#3 10#7 6#7,
    .flog2 0#3 10#7 9#7, .fsin 0#3 10#7 6#7, .fcos 5#3 10#7 6#7], Solo (mk t0) i t0 t0 (mk t0) := solos (by decide +kernel)

theorem witness_DotsSumsAndConversions : ∀ i ∈ [Instr.fdot 0#3 10#7 6#7 6#7, .fdot 3#3 10#7 6#7 6#7, .fsum 0#3 10#7 6#7,
    .fcvt 0#3 10#7 6#7 5#3, .fcvtam 5#3 10#7 6#7 0#3, .f2i 0#3 10#7 6#7 7#3, .i2f 0#3 10#7 4#7 0#3, .fpack 1#3 10#7 6#7 6#7, .funpk 1#3 10#7 6#7],
    Solo (mk t0) i t0 t0 (mk t0) := solos (by decide +kernel)

theorem witness_BlockQuantisation : ∀ i ∈ [Instr.qpack 0#3 10#7 6#7 5#7, .qpackGs 10#7 6#7, .qpackBs 10#7 6#7 6#7, .qunpk 0#3 10#7 4#7 5#7],
    Solo (mk t0) i t0 t0 (mk t0) := solos (by decide +kernel)

/-- Rounding 5/2, a tie, in each mode: e below q, and the mode named. -/
theorem witness_RoundingOnce : (-1 : Int) < 0
    ∧ roundTo { mode := .rne, idx := 0, ovn := false } false 5 (-1) false 0 = (2, true)
    ∧ roundTo { mode := .rtz, idx := 0, ovn := false } false 5 (-1) false 0 = (2, true)
    ∧ roundTo { mode := .rdn, idx := 0, ovn := false } true 5 (-1) false 0 = (3, true)
    ∧ roundTo { mode := .rup, idx := 0, ovn := false } false 5 (-1) false 0 = (3, true)
    ∧ (roundTo { mode := .dither, idx := 0, ovn := false } false 5 (-1) false 0).2 = true
    ∧ roundTo { mode := .rne, idx := 0, ovn := false } false 6 (-1) false 0 = (3, false) := by decide +kernel

/-- 1.0 in F32: a pattern below 2^32, finite, not zero. -/
theorem witness_RepresentableValues : 0x3F800000 < 2 ^ (fmtOf 0).w ∧ (fmtOf 0).decode 0x3F800000 = .fin false (2 ^ 23) (-23) := by
  decide +kernel

/-- The examples after R185: scales, codes 9 and 7 in the code byte 0x79, and 1.28125 back. -/
theorem test_quantisation_example :
    (qnGroupScale 0x437F0000).v = 0x3F800000 ∧ (qnBlockScale 0x41000000 0x3F800000).v = 8
    ∧ (qnEncode { mode := .rne, idx := 2 + 7, ovn := false } (fmtF32.decode 0x3F800000) 8 0x3F800000).v = 9
    ∧ (qnEncode { mode := .rne, idx := 3 + 7, ovn := false } (fmtF32.decode 0) 8 0x3F800000).v = 7
    ∧ (qnDecode fmtF32 9 8 0x3F800000).v = 0x3FA40000 ∧ (qnDecode fmtF32 7 8 0x3F800000).v = 0 := by decide +kernel
/-! ### Witnesses: cross-lane instructions -/

/-- The thread with its lane alone in its mask, and with its lane left out of it. -/
theorem witness_CrossLaneInstructionsJoin : (mk t0).crew t0.crew = some c0
    ∧ (∀ i ∈ [Instr.shfl 10#7 4#7 5#7, .shfliIdx 10#7 4#7 31#5, .shfliUp 10#7 4#7 1#5, .shfliDown 10#7 4#7 1#5, .shfliXor 10#7 4#7 1#5,
        .voteall 10#7 4#7, .voteany 10#7 4#7, .ballot 10#7 4#7, .matchA 10#7 4#7, .scanadd 0#3 10#7 4#7, .scanaddx 0#3 10#7 4#7,
        .redadd 0#3 10#7 4#7, .redmaxs 0#2 10#7 4#7, .redmaxn 0#2 10#7 4#7, .redmins 0#2 10#7 4#7, .redminn 0#2 10#7 4#7,
        .redor 0#3 10#7 4#7, .fredadd 0#3 10#7 6#7, .fscanadd 0#3 10#7 6#7, .elect 127#7, .memb 10#7],
        Solo (mk t0) i t0 t0 (mk t0) ∧ (crossRegs i).isSome = true ∧ t0.xmask.getLsbD t0.lane = true)
    ∧ (let t := { t0 with xmask := 0xFFFFFFFE#32 }
       Solo (mk t) (.ballot 10#7 4#7) t t (mk t) ∧ t.xmask.getLsbD t.lane = false) := by
  refine ⟨by decide +kernel, fun i h => ⟨solos (by decide +kernel) i h, ?_, by decide +kernel⟩, solo (by decide +kernel), by decide +kernel⟩
  revert i h; decide +kernel

/-- A rendezvous of lane 0 alone, joined by the thread, which is Held. -/
theorem witness_CompleteRendezvousDelivers :
    let j : RJoin := { tid := 0, a := reg 1#64, b := Reg.zero, c := Reg.zero, bound := 0#64, d := some 10, flag := some 2 }
    let r : Rdv := { id := 7, team := 0, pc := t0.pc, mask := 1#32, instr := .ballot 10#7 4#7, joins := [j], born := 0, timer := 0, limit := 9 }
    let c := { c0 with rdvs := [r] }
    let t := { t0 with st := .held (.rendezvous 7) }
    (mkC c t).crew t0.crew = some c ∧ (mkC c t).rdvComplete t0.crew r = true ∧ (crossRegs r.instr).isSome = true
      ∧ (r.joins.map (fun x => x.tid)).Nodup ∧ (mkC c t).thread t0.crew j.tid = some t := by decide +kernel

/-- Two joined lanes, at the ends of the mask; lane 0 reads a joined lane and one that has not joined, and holds what VOTE asks or not. -/
theorem witness_CrossLaneResults :
    let j := fun (tid : Nat) (v : Word) => ({ tid := tid, a := reg v, b := Reg.zero, c := Reg.zero, bound := 0#64, d := some 10,
                                               flag := none } : RJoin)
    laneJoin [j 0 5#64, j 31 6#64] 31 = some (j 31 6#64) ∧ laneJoin [j 0 5#64, j 31 6#64] 30 = none
      ∧ (∀ x ∈ [j 0 5#64, j 31 6#64], x.a.v ≠ 0#64) ∧ ¬ (∀ x ∈ [j 0 0#64, j 31 6#64], x.a.v ≠ 0#64)
      ∧ (∃ x ∈ [j 0 0#64, j 31 6#64], x.a.v ≠ 0#64) ∧ ¬ (∃ x ∈ [j 0 0#64], x.a.v ≠ 0#64) := by decide +kernel

/-! ### Witnesses: control flow and traps -/

/-- The lowest offset, a pair whose cursor is the last instruction word of its range, and both values that BZ and BNZ look at. -/
theorem witness_BranchesAndJumps : (t0.commit (mk t0).cycle).clause.isSome = true
    ∧ (∀ i ∈ [Instr.bra 0x10000#17, .bz 4#7 0xFFFF#17, .bz 9#7 0#17, .bnz 4#7 0#17, .bnz 9#7 0#17, .nop], Solo (mk t0) i t0 t0 (mk t0))
    ∧ (let t := { t0 with regs := t0.regs.set 2 (reg 0x80FFC04#64) }
       Solo (mk t) (.jmpr 2#7) t t (mk t) ∧ t.tagAt 2#7 = true ∧ (t.capAt 2#7).has pExecute = true
         ∧ (t.capAt 2#7).covers (t.capAt 2#7).cursor 1 = true ∧ (t.capAt 2#7).cursor % 4 = 0) :=
  ⟨by decide +kernel, solos (by decide +kernel), solo (by decide +kernel), by decide +kernel⟩

/-- The thread with its pair g2 and a tag for it. -/
def tPair (lo : Word) (tag : Bool) : Thread := { t0 with regs := t0.regs.set 2 (reg lo), tags := t0.tags.set 1 tag }

/-- No tag; no EXECUTE; the end of the range; the last byte of the range, not aligned. -/
theorem witness_JumpRegisterTraps :
    (∀ lo ∈ [0x80000FF#64, 0x80000FB#64, 0x81000FF#64, 0x80FFFFF#64], ∀ tag : Bool,
      Solo (mk (tPair lo tag)) (.jmpr 2#7) (tPair lo tag) (tPair lo tag) (mk (tPair lo tag)))
    ∧ (tPair 0x80000FF#64 false).tagAt 2#7 = false
    ∧ ((tPair 0x80000FB#64 true).tagAt 2#7 = true ∧ ((tPair 0x80000FB#64 true).capAt 2#7).has pExecute = false)
    ∧ (let t := tPair 0x81000FF#64 true
       t.tagAt 2#7 = true ∧ (t.capAt 2#7).has pExecute = true ∧ (t.capAt 2#7).covers (t.capAt 2#7).cursor 1 = false)
    ∧ (let t := tPair 0x80FFFFF#64 true
       t.tagAt 2#7 = true ∧ (t.capAt 2#7).has pExecute = true ∧ (t.capAt 2#7).covers (t.capAt 2#7).cursor 1 = true
         ∧ (t.capAt 2#7).cursor % 4 ≠ 0) := by
  refine ⟨fun lo h tag => solo ?_, by decide +kernel⟩
  simp only [List.mem_cons, List.not_mem_nil, or_false] at h
  rcases h with rfl | rfl | rfl | rfl <;> cases tag <;> decide +kernel

/-- The thread with its stack pointer. -/
def tStack (p : Word) : Thread := { t0 with stkptr := p }

/-- The lowest word of the allocation for CALL, the highest for RET. -/
theorem witness_CallsAndReturns :
    (mk t0).crew t0.crew = some c0 ∧ (t0.commit (mk t0).cycle).clause.isSome = true
    ∧ (let t := tStack 8#64; Solo (mk t) (.call 1#17) t t (mk t) ∧ t.stkptr.toNat % 8 = 0 ∧ (t.stkptr - 8#64).toNat + 8 ≤ c0.scrSize)
    ∧ (let t := tStack 1016#64
       Solo (mk t) .ret t t (mk t) ∧ t.stkptr.toNat % 8 = 0 ∧ t.stkptr.toNat + 8 ≤ c0.scrSize ∧ c0.scr.anyPoison t.stkptr.toNat 8 = false
         ∧ c0.scr.readNat t.stkptr.toNat 8 % 2 ^ 56 % 4 = 0) :=
  ⟨by decide +kernel, by decide +kernel, ⟨solo (by decide +kernel), by decide +kernel⟩, solo (by decide +kernel), by decide +kernel⟩

/-- No multiple of 8; CALL below the allocation, RET at its end. -/
theorem witness_CallAndReturnTraps :
    (let t := tStack 4#64; Solo (mk t) (.call 1#17) t t (mk t) ∧ Solo (mk t) .ret t t (mk t) ∧ t.stkptr.toNat % 8 ≠ 0)
    ∧ (let t := tStack 0#64; Solo (mk t) (.call 1#17) t t (mk t) ∧ t.stkptr.toNat % 8 = 0 ∧ c0.scrSize < (t.stkptr - 8#64).toNat + 8)
    ∧ (let t := tStack 1024#64; Solo (mk t) .ret t t (mk t) ∧ t.stkptr.toNat % 8 = 0 ∧ c0.scrSize < t.stkptr.toNat + 8) :=
  ⟨⟨solo (by decide +kernel), solo (by decide +kernel), by decide +kernel⟩, ⟨solo (by decide +kernel), by decide +kernel⟩,
    solo (by decide +kernel), by decide +kernel⟩

/-- The last window base inside the allocation of 64 registers, and the first beyond it; a sleep of 0 and of 5 cycles; a sleep at its end. -/
theorem witness_WindowRepeatAndSleep :
    (∀ i ∈ [Instr.winb 7#5, .winb 8#5, .rep 0#3 63#7, .sleep 9#7, .sleep 4#7], Solo (mk t0) i t0 t0 (mk t0))
    ∧ 8 * (7#5).toNat < (t0.commit (mk t0).cycle).regs.length ∧ (t0.commit (mk t0).cycle).regs.length ≤ 8 * (8#5).toNat
    ∧ (let t := { t0 with st := .sleeping 0 }; (mk t).thread t.crew t.tid = some t ∧ t.st = .sleeping 0) :=
  ⟨solos (by decide +kernel), by decide +kernel⟩

/-- A repeat left; the last slot of the clause, and past it. -/
theorem witness_NextSlot : (∃ cl, t0.clause = some cl ∧ t0.pc.slot + 0 ≤ cl.header.toNat % 8 ∧ cl.header.toNat % 8 < t0.pc.slot + 1)
    ∧ t0.repctr.toNat ≤ 1 ∧ 1 < ({ t0 with repctr := 2#7 } : Thread).repctr.toNat := by
  exact ⟨⟨_, rfl, by decide +kernel⟩, by decide +kernel⟩

/-- BKPT with DBG clear and set. -/
theorem witness_TrapInstructions : (t0.commit (mk t0).cycle).clause.isSome = true
    ∧ Solo (mk t0) (.trap 127#7) t0 t0 (mk t0) ∧ Solo (mk t0) (.bkpt 0#7) t0 t0 (mk t0) ∧ (mk t0).dbgOf t0 = false
    ∧ (let s := inCtx (fun x => { x with ctl := 0x10000#64 }) (mk t0)
       Solo s (.bkpt 0#7) t0 t0 s ∧ s.dbgOf t0 = true) :=
  ⟨by decide +kernel, solo (by decide +kernel), solo (by decide +kernel), by decide +kernel, solo (by decide +kernel), by decide +kernel⟩

/-- A crew with handlers for causes 1 and 0x10, its handler window at the register given. -/
def cVec (w : Nat) : Crew := { c0 with tvec := BitVec.ofNat 64 (2 ^ 32 + 2 ^ 47 + w) }

/-- A trap with a handler for it, its window the last register of the allocation. -/
theorem witness_TrapEntry : (mkC (cVec 63) t0).crew t0.crew = some (cVec 63) ∧ (∃ x, (mkC (cVec 63) t0).ctx (cVec 63).ctx = some x)
    ∧ (cVec 63).pendTvec = [] ∧ t0.finish.hnd = false ∧ (∀ k ∈ [1, 16], k ≠ 0x13 ∧ k ≠ 0x14 ∧ (cVec 63).tvec.getLsbD (31 + k) = true)
    ∧ (cVec 63).tvec.toNat % 256 < t0.finish.regs.length := by
  refine ⟨by decide +kernel, ⟨_, by rfl⟩, by decide +kernel⟩

/-- A local freshness trap without a handler, a second trap in a handler, a cause without a handler, the causes 0x13 and 0x14, and a
handler window just beyond the allocation. -/
theorem witness_TrapEscalation : (mkC (cVec 64) t0).crew t0.crew = some (cVec 64) ∧ (∃ x, (mkC (cVec 64) t0).ctx (cVec 64).ctx = some x)
    ∧ (cVec 64).pendTvec = [] ∧ (cVec 64).tvec.getLsbD (31 + 0x0E) = false ∧ ({ t0 with hnd := true } : Thread).finish.hnd = true
    ∧ t0.finish.hnd = false ∧ (cVec 64).tvec.getLsbD (31 + 2) = false ∧ (cVec 64).tvec.getLsbD (31 + 1) = true
    ∧ t0.finish.regs.length ≤ (cVec 64).tvec.toNat % 256 := by
  refine ⟨by decide +kernel, ⟨_, by rfl⟩, by decide +kernel⟩

/-- A thread outside the privileged state, and an allocation of 64 registers of which an instruction names the 65th. -/
theorem witness_PrivilegeThenRange :
    (let s := inCtx (fun x => { x with priv := false }) (mk t0)
     s.bundle = [(t0.crew, t0.tid)] ∧ s.thread t0.crew t0.tid = some t0 ∧ s.view (t0.commit s.cycle) = (t0, s)
       ∧ encode .tret ≠ [] ∧ Instr.privileged .tret = true ∧ s.isPriv t0 = false)
    ∧ encode (.add 0#3 64#7 4#7 5#7) ≠ [] ∧ Instr.privileged (.add 0#3 64#7 4#7 5#7) = false
    ∧ rangeFault t0 (.add 0#3 64#7 4#7 5#7) = some 64 ∧ (∀ l, (mk t0).issuing ≠ .place l) ∧ (mk t0).hasLate t0 = false := by
  exact ⟨by decide +kernel, by decide +kernel, by decide +kernel, by decide +kernel, fun l h => (nomatch h), by decide +kernel⟩
/-! ### Witnesses: exit and barriers -/

theorem witness_ExitsAndMasks : (mk t0).crew t0.crew = some c0 ∧ (∀ i ∈ [Instr.exit, .cleave 7#3, .bmask 4#7 7#3], Solo (mk t0) i t0 t0 (mk t0))
    ∧ (7#3).toNat < (c0.cbs.getD (t0.tid / 32) []).length :=
  ⟨by decide +kernel, solos (by decide +kernel), by decide +kernel⟩

/-- The crew with barrier 0 of its team as given. -/
def cBar (b : CBar) : Crew := { c0 with cbs := [[b] ++ List.replicate 7 { mask := 0#32, arr := 0#32 }] }

/-- A member of barrier 0, and no member of barrier 7. -/
theorem witness_ConvergenceJoin : let c := cBar { mask := 1#32, arr := 0#32 }
    (mkC c t0).crew t0.crew = some c ∧ Solo (mkC c t0) (.cjoin 0#3) t0 t0 (mkC c t0) ∧ Solo (mkC c t0) (.cjoin 7#3) t0 t0 (mkC c t0)
      ∧ (c.cb (t0.tid / 32) 0).mask.getLsbD (t0.tid % 32) = true ∧ (c.cb (t0.tid / 32) 7).mask.getLsbD (t0.tid % 32) = false :=
  ⟨by decide +kernel, solo (by decide +kernel), solo (by decide +kernel), by decide +kernel⟩

/-- No arrival; one member of two; all members, one of them the thread, held. -/
theorem witness_ConvergenceRelease : (∀ b ∈ [({ mask := 1#32, arr := 0#32 } : CBar), { mask := 3#32, arr := 1#32 }, { mask := 1#32, arr := 1#32 }],
      (mkC (cBar b) t0).crew t0.crew = some (cBar b))
    ∧ (∃ l, l < 32 ∧ (3#32).getLsbD l = true ∧ (1#32).getLsbD l = false)
    ∧ (1#32 ≠ 0#32 ∧ (∀ l, l < 32 → (1#32).getLsbD l = true → (1#32).getLsbD l = true))
    ∧ (let t := { t0 with st := .held (.cjoin 0) }; (mk t).thread t0.crew t.tid = some t ∧ t.crew = t0.crew ∧ t.tid / 32 = 0)
    ∧ (mk t0).thread t0.crew t0.tid = some t0 ∧ t0.st = .running :=
  ⟨by decide +kernel, ⟨1, by decide +kernel⟩, ⟨by decide +kernel, fun _ _ h => h⟩, by decide +kernel⟩

/-- The crew with crew barrier 15 as given. -/
def cCrewBar (b : CrewBar) : Crew := { c0 with bars := c0.bars.set 15 b }

/-- The last barrier, at which the thread has not arrived, or has; its generation, 5, is what g4 holds and not what g5 holds. -/
theorem witness_CrewBarriers : ∀ l ∈ [[], [0]], let c := cCrewBar { gen := 5#32, arrived := l, released := none }
    (mkC c t0).crew t0.crew = some c ∧ c.bars[(15#4).toNat]? = some { gen := 5#32, arrived := l, released := none }
      ∧ (none : Option Nat) ≠ some (mkC c t0).cycle
      ∧ Solo (mkC c t0) (.arrive 10#7 15#4) t0 t0 (mkC c t0) ∧ Solo (mkC c t0) (.bar 15#4) t0 t0 (mkC c t0)
      ∧ Solo (mkC c t0) (.await 4#7 15#4) t0 t0 (mkC c t0) ∧ Solo (mkC c t0) (.await 5#7 15#4) t0 t0 (mkC c t0)
      ∧ 5#32 = (t0.rd 4#7).v.setWidth 32 ∧ 5#32 ≠ (t0.rd 5#7).v.setWidth 32 ∧ (t0.tid ∈ l ↔ l = [0]) := by
  intro l h
  simp only [List.mem_cons, List.not_mem_nil, or_false] at h
  rcases h with rfl | rfl <;>
    exact ⟨by decide +kernel, by decide +kernel, by decide +kernel, solo (by decide +kernel), solo (by decide +kernel),
      solo (by decide +kernel), solo (by decide +kernel), by decide +kernel⟩

/-- No arrival; a thread that has not arrived; every thread arrived, the one held. -/
theorem witness_CrewBarrierRelease : let b : CrewBar := { gen := 5#32, arrived := [0], released := none }
    let t := { t0 with st := .held (.bar 15 5#32) }
    (mkC (cCrewBar b) t).crew t0.crew = some (cCrewBar b) ∧ (cCrewBar b).bars[15]? = some b ∧ c0.bars[0]? = some { gen := 0#32, arrived := [], released := none }
      ∧ (∃ u ∈ (mk t0).threads, u.crew = t0.crew ∧ u.st ≠ .exited ∧ u.tid ∉ [31])
      ∧ (∀ u ∈ (mkC (cCrewBar b) t).threads, u.crew = t0.crew → u.st = .exited ∨ u.tid ∈ b.arrived)
      ∧ (mkC (cCrewBar b) t).thread t0.crew t.tid = some t ∧ t.st = .held (.bar 15 b.gen) := by
  refine ⟨by decide +kernel, by decide +kernel, by decide +kernel, ⟨t0, by decide +kernel⟩, by decide +kernel⟩

/-- The machine with scope group 31 of its context as given, and a barrier of the task for it. -/
def mGroup (cores : List Nat) (arrived : List (Nat × Nat)) : State :=
  inCtx (fun x => { x with groups := [(31, cores)], sbars := [{ task := State.reset.nextUid, group := 31, gen := 3, arrived := arrived, released := none }] })
    (mk t0)

/-- A group of another core; the thread arrived, and not arrived. -/
theorem witness_ScopeBarrier : (∀ p ∈ [([1], []), ([0], [(t0.crew, 0)]), ([0], [])],
      Solo (mGroup p.1 p.2) (.sbar 31#5) t0 t0 (mGroup p.1 p.2) ∧ (mGroup p.1 p.2).crew t0.crew = some c0)
    ∧ (((mGroup [1] []).ctx c0.ctx).map (fun x => decide (c0.core ∉ x.groupCores 31))) = some true
    ∧ (((mGroup [0] [(t0.crew, 0)]).ctx c0.ctx).map (fun x =>
        decide (c0.core ∈ x.groupCores 31 ∧ (t0.crew, t0.tid) ∈ (x.sbarOf c0.task 31).arrived))) = some true
    ∧ (((mGroup [0] []).ctx c0.ctx).map (fun x =>
        decide (c0.core ∈ x.groupCores 31 ∧ (t0.crew, t0.tid) ∉ (x.sbarOf c0.task 31).arrived ∧ (x.sbarOf c0.task 31).released = none))) = some true := by
  refine ⟨fun p h => ?_, by decide +kernel⟩
  simp only [List.mem_cons, List.not_mem_nil, or_false] at h
  rcases h with rfl | rfl | rfl <;> exact ⟨solo (by decide +kernel), by decide +kernel⟩

/-- No arrival; a thread that takes part and has not arrived; all arrived, the one held. -/
theorem witness_ScopeBarrierRelease :
    (∀ l ∈ [[], [(t0.crew, 31)], [(t0.crew, 0)]], ((mGroup [0] l).ctx 0).map (fun x => (x.num, x.sbars)) =
        some (0, [{ task := State.reset.nextUid, group := 31, gen := 3, arrived := l, released := none }]))
    ∧ (∃ c ∈ (mGroup [0] []).crews, c.uid = t0.crew ∧ c.ctx = 0 ∧ c.task = State.reset.nextUid ∧ c.core ∈ [0]) ∧ t0.st ≠ .exited
    ∧ (t0.crew, t0.tid) ∉ [(t0.crew, 31)] ∧ (∀ t ∈ (mGroup [0] []).threads, (t.crew, t.tid) ∈ [(t0.crew, 0)])
    ∧ (let t := { t0 with st := .held (.sbar 31 3) }; (mk t).thread t.crew t.tid = some t) :=
  ⟨by decide +kernel, ⟨c0, by decide +kernel⟩, by decide +kernel⟩
/-! ### Witnesses: memory -/

theorem ok_of {ε α : Type} {r : Except ε α} {x : α} (h : r.toOption = some x) : r = .ok x := by
  cases r with
  | error _ => exact absurd h (by simp [Except.toOption])
  | ok y => simp only [Except.toOption, Option.some.injEq] at h; rw [h]

/-- The error of a result. -/
def errOf {ε α : Type} : Except ε α → Option ε
  | .error e => some e
  | .ok _ => none

theorem error_of {ε α : Type} {r : Except ε α} {x : ε} (h : errOf r = some x) : r = .error x := by
  cases r with
  | error y => simp only [errOf, Option.some.injEq] at h; rw [h]
  | ok _ => exact absurd h (by simp [errOf])

/-- Where an access of the thread goes: the physical address, whether that is host memory, the state after. -/
def goal (s : State) (t : Thread) (k : AccKind) (va n : Nat) : Nat × Bool × State :=
  (s.reach (t.commit s.cycle) k va n true).toOption.getD (0, false, s)

theorem reaches_goal {s : State} {t : Thread} {k : AccKind} {va n : Nat}
    (h : (s.reach (t.commit s.cycle) k va n true).toOption.isSome = true) :
    s.reaches t k va n true (goal s t k va n).1 (goal s t k va n).2.1 (goal s t k va n).2.2 := by
  refine ok_of ?_
  simp only [goal]
  cases hr : (s.reach (t.commit s.cycle) k va n true).toOption with
  | none => rw [hr] at h; cases h
  | some x => rfl

/-- The machine in a context without PRIV. -/
def user (t : Thread) : State := inCtx (fun x => { x with priv := false }) (mk t)

/-- No tag outside the privileged state; no LOAD; the window; past the end of the range; misaligned; past the allocation; its last byte;
the last doubleword of the range. -/
theorem witness_AccessChecks : let v := t0
    let s := user t0
    (v.tagAt 4#7 = false ∧ s.isPriv v = false ∧ (mk v).isPriv v = true)
    ∧ (let v := tPair 0x80000FE#64 true; v.tagAt 2#7 = true ∧ (v.capAt 2#7).has pLoad = false)
    ∧ (v.tagAt 14#7 = true ∧ (v.capAt 14#7).has pLoad = true ∧ (v.capAt 14#7).base ≤ 0xFFFFFFFFFC0000)
    ∧ (v.tagAt 2#7 = true ∧ (v.capAt 2#7).has pLoad = true ∧ (v.capAt 2#7).base ≤ 0x80FF8 ∧ 0x80FF8 + 8 ≤ (v.capAt 2#7).limit
        ∧ ¬ (0x80FF9 + 8 ≤ (v.capAt 2#7).limit) ∧ 0x80001 % 8 ≠ 0 ∧ 0x80FF8 < 0xFFFFFFFFFC0000)
    ∧ 0xFFFFFFFFFC0000 + 1024 ≤ (v.capAt 14#7).limit ∧ s.scratchSize v < 1017 + 8 ∧ 1016 + 8 ≤ s.scratchSize v := by decide +kernel

/-- A load past the end of the range, a store of a misaligned address, a load of the window past the allocation, scratchpad accesses of
a misaligned offset and past the allocation. -/
theorem witness_AccessTraps :
    (∀ i ∈ [Instr.ld64 0#3 10#7 2#7 63#7, .st64 4#7 2#7 0#7, .ld128 0#3 10#7 14#7 63#7, .lds64 0#3 10#7 8#7 0#7, .sts8 4#7 7#7 0#7],
      Solo (mk t0) i t0 t0 (mk t0))
    ∧ loadCheck 4#7 0#7 8 (user t0) t0 = .error { code := 6, sub := 1, detail := 0 }
    ∧ storeCheck 2 2#7 0#7 8 (mk (tPair 0x80004FF#64 true)) (tPair 0x80004FF#64 true) = .error { code := 5, detail := 0x80004 }
    ∧ (let t := { t0 with regs := t0.regs.set 14 (reg 0xFFFFFFFFFC0400FF#64) }
       loadCheck 14#7 0#7 8 (mk t) t = .error { code := 7, detail := 1024 })
    ∧ ofSigned 64 (((t0.rd 8#7).v.toNat : Int) + toSigned 7 (0#7).toNat * 8) % 8 ≠ 0
    ∧ ofSigned 64 (((t0.rd 5#7).v.toNat : Int) + toSigned 7 (0#7).toNat * 8) % 8 = 0
    ∧ (let sum : Int := ((0#64).toNat : Int) + toSigned 7 (127#7).toNat * 8
       ofSigned 64 sum % 8 = 0 ∧ sum < 0)
    ∧ (let sum : Int := ((0xFFFFFFFFFFFFFFF8#64).toNat : Int) + toSigned 7 (1#7).toNat * 8
       ofSigned 64 sum % 8 = 0 ∧ 2 ^ 64 ≤ sum)
    ∧ (mkC { c0 with scrSize := 15 } t0).scratchSize t0 < ofSigned 64 (((t0.rd 5#7).v.toNat : Int) + toSigned 7 (0#7).toNat * 8) + 8 :=
  ⟨solos (by decide +kernel), error_of (by decide +kernel), error_of (by decide +kernel), error_of (by decide +kernel), by decide +kernel⟩

/-- A thread with age bound 1: 5 ticks, with CD, CW and CV as given, and an action. -/
def tBound (act cv cw cd : Nat) : Thread :=
  { t0 with abs := [BitVec.ofNat 64 (act * 2 ^ 33 + cv * 2 ^ 32 + cw * 2 ^ 31 + cd * 2 ^ 30 + 5)] ++ List.replicate 6 0#64 }

/-- Selector 0; a VACANT stamp with CV; DATA and WEIGHT stamps of age 6 with CD or CW, and of age 5; each action. -/
theorem witness_FreshnessCheck : let s := { mk t0 with now := 6 }
    (0 < 8 ∧ 7 < 8) ∧ (∀ act ∈ [0, 1, 2], ((tBound act 1 1 1).bound 1).toNat / 2 ^ 33 % 4 = act)
    ∧ ((tBound 0 1 0 0).bound 1).getLsbD 32 = true ∧ sVacant.toNat / 2 ^ 30 = 3
    ∧ ((tBound 0 0 0 1).bound 1).getLsbD 30 = true ∧ ((tBound 0 0 1 0).bound 1).getLsbD 31 = true
    ∧ ((tBound 0 1 1 1).bound 1).toNat % 2 ^ 29 < (s.now + 2 ^ 30 - (0#32).toNat % 2 ^ 30) % 2 ^ 30
    ∧ ¬ ((tBound 0 1 1 1).bound 1).toNat % 2 ^ 29 < (s.now + 2 ^ 30 - (1#32).toNat % 2 ^ 30) % 2 ^ 30 := by decide +kernel

/-- Loads of each size at the last place of the range, and of host memory. -/
theorem witness_LoadsComplete : ∀ p ∈ [
      (Instr.ld8 0#3 10#7 2#7 0#7, 0#3, 10#7, 2#7, 0#7, 1, 0x80000), (.ld16 0#3 10#7 2#7 63#7, 0#3, 10#7, 2#7, 63#7, 2, 0x8007E),
      (.ld32 0#3 10#7 2#7 0#7, 0#3, 10#7, 2#7, 0#7, 4, 0x80000), (.ld64 0#3 127#7 2#7 0#7, 0#3, 127#7, 2#7, 0#7, 8, 0x80000),
      (.ld128 0#3 10#7 2#7 63#7, 0#3, 10#7, 2#7, 63#7, 16, 0x803F0), (.ld64 0#3 10#7 12#7 0#7, 0#3, 10#7, 12#7, 0#7, 8, 0x40000000)] ,
    let g := goal (mk t0) t0 .load p.2.2.2.2.2.2 p.2.2.2.2.2.1
    Solo (mk t0) p.1 t0 t0 (mk t0) ∧ capLoad p.1 = some (p.2.1, p.2.2.1, p.2.2.2.1, p.2.2.2.2.1, p.2.2.2.2.2.1)
      ∧ loadCheck p.2.2.2.1 p.2.2.2.2.1 p.2.2.2.2.2.1 (mk t0) t0 = .ok (.virt p.2.2.2.2.2.2)
      ∧ (mk t0).reaches t0 .load p.2.2.2.2.2.2 p.2.2.2.2.2.1 true g.1 g.2.1 g.2.2
      ∧ (g.2.2.store g.2.1).anyPoison g.1 p.2.2.2.2.2.1 = false
      ∧ g.2.2.freshness t0 p.2.1.toNat ((g.2.2.store g.2.1).stampsOf g.1 p.2.2.2.2.2.1) p.2.2.2.2.2.2 = .ok 0#9 := by
  intro p h
  simp only [List.mem_cons, List.not_mem_nil, or_false] at h
  rcases h with rfl | rfl | rfl | rfl | rfl | rfl <;>
    exact ⟨solo (by decide +kernel), by decide +kernel, ok_of (by decide +kernel), reaches_goal (by decide +kernel), by decide +kernel⟩

/-- The access of a column, by a device page. -/
theorem witness_TransposedLoadsComplete : ∀ p ∈ [(Instr.ldx8 0#3 10#7 2#7 0#7, 1), (.ldx16 0#3 10#7 2#7 0#7, 2), (.ldx32 0#3 10#7 2#7 0#7, 4)] ,
    let g := goal (mk t0) t0 .load 0x80000 (32 * (8 / p.2 - 1) + p.2)
    Solo (mk t0) p.1 t0 t0 (mk t0) ∧ columnLoad p.1 = some (0#3, 10#7, 2#7, 0#7, p.2)
      ∧ 0x80000 = ofSigned 56 (((mk t0).addrBase t0 2#7 : Int) + toSigned 7 (0#7).toNat * p.2)
      ∧ (mk t0).memCheck t0 2#7 pLoad 0x80000 (32 * (8 / p.2 - 1) + p.2) p.2 false = .ok (.virt 0x80000)
      ∧ 0x80000 % 1024 / 32 % (8 / p.2) = 0 ∧ (mk t0).reach (t0.commit (mk t0).cycle) .load 0x80000 (32 * (8 / p.2 - 1) + p.2) false =
        .ok (g.1, false, g.2.2)
      ∧ g.2.2.mem.anyPoison (g.1 / 1024 * 1024) 1024 = false
      ∧ g.2.2.freshness t0 0 (g.2.2.mem.stampsOf (g.1 / 1024 * 1024) 1024) 0x80000 = .ok 0#9 := by
  intro p h
  simp only [List.mem_cons, List.not_mem_nil, or_false] at h
  rcases h with rfl | rfl | rfl <;>
    exact ⟨solo (by decide +kernel), by decide +kernel, by decide +kernel, ok_of (by decide +kernel), by decide +kernel,
      ok_of (by decide +kernel), by decide +kernel⟩

/-- The scratchpad window; the second row of a column of 8 elements; host memory. -/
theorem witness_TransposedLoadTraps :
    (∀ i ∈ [Instr.ldx8 0#3 10#7 14#7 0#7, .ldx8 0#3 10#7 2#7 0#7, .ldx32 0#3 10#7 12#7 0#7], Solo (mk t0) i t0 t0 (mk t0))
    ∧ (mk t0).memCheck t0 14#7 pLoad 0xFFFFFFFFFC0000 225 1 false = .error { code := 6, sub := 3, detail := 0xFFFFFFFFFC0000 }
    ∧ (mk t0).memCheck t0 2#7 pLoad 0x80020 225 1 false = .ok (.virt 0x80020) ∧ 0x80020 % 1024 / 32 % 8 ≠ 0
    ∧ (mk t0).memCheck t0 12#7 pLoad 0x40000000 36 4 false = .ok (.virt 0x40000000) ∧ 0x40000000 % 1024 / 32 % 2 = 0
    ∧ ((mk t0).translate ((mk t0).ctxOf (t0.commit 0)) .load 0x40000000 36).1 = .page 0 true :=
  ⟨solos (by decide +kernel), error_of (by decide +kernel), ok_of (by decide +kernel), by decide +kernel, ok_of (by decide +kernel),
    by decide +kernel⟩

/-- By offset and through the window, the first and the last bytes of the allocation. -/
theorem witness_ScratchpadLoadsComplete : (mk t0).crew t0.crew = some c0
    ∧ (∀ i ∈ [Instr.lds8 0#3 10#7 9#7 0#7, .lds16 0#3 10#7 9#7 0#7, .lds32 0#3 10#7 9#7 0#7, .lds64 0#3 10#7 9#7 0#7, .lds128 0#3 10#7 9#7 63#7,
        .ld128 0#3 10#7 14#7 63#7], Solo (mk t0) i t0 t0 (mk t0))
    ∧ scratchLoad (.lds128 0#3 10#7 9#7 63#7) = some (0#3, 10#7, 9#7, 63#7, 16)
    ∧ (1008 : Int) = ((t0.rd 9#7).v.toNat : Int) + toSigned 7 (63#7).toNat * 16 ∧ 1008 % 16 = 0 ∧ 1008 + 16 ≤ c0.scrSize
    ∧ capLoad (.ld128 0#3 10#7 14#7 63#7) = some (0#3, 10#7, 14#7, 63#7, 16) ∧ loadCheck 14#7 63#7 16 (mk t0) t0 = .ok (.scratch 1008)
    ∧ c0.scr.anyPoison 1008 16 = false ∧ (mk t0).freshness t0 0 (c0.scr.stampsOf 1008 16) 1008 = .ok 0#9 :=
  ⟨by decide +kernel, solos (by decide +kernel), by decide +kernel, by decide +kernel, by decide +kernel, by decide +kernel,
    by decide +kernel, ok_of (by decide +kernel), by decide +kernel⟩

/-- The machine with poison in the granule of the capability's first byte. -/
def mPoison : State := { mk t0 with mem := m0.mem.putPoison (0x80000 / 32) true }

theorem witness_PoisonedLoads : let g := goal mPoison t0 .load 0x80000 8
    Solo mPoison (.ld64 0#3 10#7 2#7 0#7) t0 t0 mPoison ∧ loadCheck 2#7 0#7 8 mPoison t0 = .ok (.virt 0x80000)
      ∧ mPoison.reaches t0 .load 0x80000 8 true g.1 g.2.1 g.2.2 ∧ (g.2.2.store g.2.1).anyPoison g.1 8 = true :=
  ⟨solo (by decide +kernel), ok_of (by decide +kernel), reaches_goal (by decide +kernel), by decide +kernel⟩

/-- One byte stored at the end of a granule. -/
theorem witness_StoreLeaves : Memory.empty.wf = true ∧ [0x5A#8] ≠ [] ∧ ((Memory.empty.store 0 31 [0x5A#8] 0#32).byte 31) = 0x5A#8 := by
  decide +kernel

/-- Stores of each size, and of host memory; a pair that is not tagged, and a tagged one with GLOBAL. -/
theorem witness_StoresComplete : ∀ p ∈ [
      (Instr.st8 4#7 2#7 0#7, 4#7, 2#7, 0#7, 1, false, 0x80000), (.st16 4#7 2#7 63#7, 4#7, 2#7, 63#7, 2, false, 0x8007E),
      (.st32 4#7 2#7 0#7, 4#7, 2#7, 0#7, 4, false, 0x80000), (.st64 4#7 12#7 0#7, 4#7, 12#7, 0#7, 8, false, 0x40000000),
      (.st128 2#7 2#7 0#7, 2#7, 2#7, 0#7, 16, false, 0x80000), (.stg64 4#7 2#7 0#7, 4#7, 2#7, 0#7, 8, true, 0x80000),
      (.stg128 4#7 2#7 63#7, 4#7, 2#7, 63#7, 16, true, 0x803F0)] ,
    let g := goal (mk t0) t0 .store p.2.2.2.2.2.2 p.2.2.2.2.1
    Solo (mk t0) p.1 t0 t0 (mk t0) ∧ capStore p.1 = some (p.2.1, p.2.2.1, p.2.2.2.1, p.2.2.2.2.1, p.2.2.2.2.2.1)
      ∧ storeCheck (if p.2.2.2.2.2.1 then pStore ||| pRestamp else pStore) p.2.2.1 p.2.2.2.1 p.2.2.2.2.1 (mk t0) t0 = .ok (.virt p.2.2.2.2.2.2)
      ∧ (t0.tagAt p.2.1 = true → (t0.capAt p.2.1).has pGlobal = true)
      ∧ (mk t0).reaches t0 .store p.2.2.2.2.2.2 p.2.2.2.2.1 true g.1 g.2.1 g.2.2 := by
  intro p h
  simp only [List.mem_cons, List.not_mem_nil, or_false] at h
  rcases h with rfl | rfl | rfl | rfl | rfl | rfl | rfl <;>
    exact ⟨solo (by decide +kernel), by decide +kernel, ok_of (by decide +kernel), by decide +kernel, reaches_goal (by decide +kernel)⟩

/-- The pair without GLOBAL, stored at its own address. -/
theorem witness_StoreGlobalTrap : let t := tPair 0x800007F#64 true
    Solo (mk t) (.st128 2#7 2#7 0#7) t t (mk t) ∧ storeCheck pStore 2#7 0#7 16 (mk t) t = .ok (.virt 0x80000)
      ∧ t.tagAt 2#7 = true ∧ (t.capAt 2#7).has pGlobal = false :=
  ⟨solo (by decide +kernel), ok_of (by decide +kernel), by decide +kernel⟩

theorem witness_ScratchpadStoresComplete : (mk t0).crew t0.crew = some c0
    ∧ (∀ i ∈ [Instr.sts8 4#7 9#7 0#7, .sts16 4#7 9#7 0#7, .sts32 4#7 9#7 0#7, .sts64 4#7 9#7 0#7, .sts128 2#7 9#7 63#7, .st128 4#7 14#7 63#7,
        .stg64 4#7 14#7 0#7], Solo (mk t0) i t0 t0 (mk t0))
    ∧ scratchStore (.sts128 2#7 9#7 63#7) = some (2#7, 9#7, 63#7, 16)
    ∧ (1008 : Int) = ((t0.rd 9#7).v.toNat : Int) + toSigned 7 (63#7).toNat * 16 ∧ 1008 % 16 = 0 ∧ 1008 + 16 ≤ c0.scrSize
    ∧ storeCheck pStore 14#7 63#7 16 (mk t0) t0 = .ok (.scratch 1008)
    ∧ storeCheck (pStore ||| pRestamp) 14#7 0#7 8 (mk t0) t0 = .ok (.scratch 0) :=
  ⟨by decide +kernel, solos (by decide +kernel), by decide +kernel, by decide +kernel, by decide +kernel, by decide +kernel,
    ok_of (by decide +kernel), ok_of (by decide +kernel)⟩

theorem witness_PrefetchAndFence : ∀ i ∈ [Instr.pref 2#7 0#7, .fence], Solo (mk t0) i t0 t0 (mk t0) := solos (by decide +kernel)

/-- Each atomic at the first word of the range; 64-bit ones in host memory too. -/
theorem witness_AtomicsComplete : ∀ p ∈ [
      (Instr.atadd32 0#2 10#7 2#7 4#7, 4), (.atadd64 3#2 10#7 2#7 4#7, 8), (.atmaxs32 0#2 10#7 2#7 4#7, 4), (.atmins32 0#2 10#7 2#7 4#7, 4),
      (.atmaxn32 0#2 10#7 2#7 4#7, 4), (.atminn32 0#2 10#7 2#7 4#7, 4), (.ator64 0#2 10#7 2#7 4#7, 8), (.atand64 0#2 10#7 2#7 4#7, 8),
      (.atxor64 0#2 10#7 2#7 4#7, 8), (.atxch64 0#2 127#7 2#7 4#7, 8), (.atcas64 0#2 10#7 2#7 4#7, 8), (.fatadd32 0#2 10#7 2#7 6#7, 4),
      (.fatmax32 0#2 10#7 2#7 6#7, 4)] ,
    let g := goal (mk t0) t0 .atomic 0x80000 p.2
    Solo (mk t0) p.1 t0 t0 (mk t0) ∧ ((atomic t0 p.1).map (fun q => (q.2.1, q.2.2.1))) = some (2#7, p.2)
      ∧ (mk t0).memCheck t0 2#7 pAtomic ((mk t0).addrBase t0 2#7) p.2 p.2 false = .ok (.virt 0x80000)
      ∧ (mk t0).reaches t0 .atomic 0x80000 p.2 true g.1 g.2.1 g.2.2 ∧ (g.2.2.store g.2.1).anyPoison g.1 p.2 = false := by
  intro p h
  simp only [List.mem_cons, List.not_mem_nil, or_false] at h
  rcases h with rfl | rfl | rfl | rfl | rfl | rfl | rfl | rfl | rfl | rfl | rfl | rfl | rfl <;>
    exact ⟨solo (by decide +kernel), by decide +kernel, ok_of (by decide +kernel), reaches_goal (by decide +kernel), by decide +kernel⟩

/-- Memory holds 0 at the address: a wait for EQ with 0 goes on, one for GES with 5 holds; a held thread that has not read yet. -/
theorem witness_WaitingOnAValue : let g := goal (mk t0) t0 .load 0x80000 8
    Solo (mk t0) (.waitv 0#3 10#7 2#7 9#7) t0 t0 (mk t0) ∧ Solo (mk t0) (.waitv 5#3 10#7 2#7 4#7) t0 t0 (mk t0) ∧ t0.st = .running
      ∧ (mk t0).memCheck t0 2#7 pLoad 0x80000 8 8 false = .ok (.virt 0x80000)
      ∧ (mk t0).reaches t0 .load 0x80000 8 true g.1 g.2.1 g.2.2 ∧ (g.2.2.store g.2.1).anyPoison g.1 8 = false
      ∧ (g.2.2.store g.2.1).readNat g.1 8 = 0 ∧ (t0.rd 9#7).v.toNat = 0 ∧ ¬ toSigned 64 5 ≤ toSigned 64 0
      ∧ (let t := { t0 with st := .held (.waitv (some 10) 0x80000 5 5#64 none) }
         (mk t).thread t.crew t.tid = some t ∧ (goal (mk t) t .load 0x80000 8).1 = 0x80000 ∧ (mk t).unwritten none = false
           ∧ (mk t).entriesUsed ((mk t).coreOf t) < 256) :=
  ⟨solo (by decide +kernel), solo (by decide +kernel), by decide +kernel, ok_of (by decide +kernel), reaches_goal (by decide +kernel),
    by decide +kernel⟩

/-- A load and a store of the thread in a bundle whose accesses take their places later. -/
theorem witness_AccessesMayComeLater : let s := { mk t0 with issuing := .late }
    let g := goal s t0 .load 0x80000 8
    let k := goal s t0 .store 0x80000 8
    (s.bundle = [(t0.crew, t0.tid)] ∧ s.thread t0.crew t0.tid = some t0 ∧ s.view (t0.commit s.cycle) = (t0, s)
      ∧ s.preCheck (.ld64 0#3 10#7 2#7 0#7) t0 = none ∧ s.preCheck (.st64 4#7 2#7 0#7) t0 = none
      ∧ s.hasLate t0 = false ∧ s.readPast = none
      ∧ capLoad (.ld64 0#3 10#7 2#7 0#7) = some (0#3, 10#7, 2#7, 0#7, 8) ∧ capStore (.st64 4#7 2#7 0#7) = some (4#7, 2#7, 0#7, 8, false))
      ∧ loadCheck 2#7 0#7 8 s t0 = .ok (.virt 0x80000) ∧ storeCheck pStore 2#7 0#7 8 s t0 = .ok (.virt 0x80000)
      ∧ s.reaches t0 .load 0x80000 8 true g.1 g.2.1 g.2.2 ∧ s.reaches t0 .store 0x80000 8 true k.1 k.2.1 k.2.2
      ∧ (g.2.2.store g.2.1).anyPoison g.1 8 = false
      ∧ g.2.2.freshness t0 0 ((g.2.2.store g.2.1).stampsOf g.1 8) 0x80000 = .ok 0#9 :=
  ⟨by decide +kernel, ok_of (by decide +kernel), ok_of (by decide +kernel), reaches_goal (by decide +kernel),
    reaches_goal (by decide +kernel), by decide +kernel, by decide +kernel⟩
/-! ### Witnesses: capabilities -/

/-- The thread with a value in g4. -/
def tVal (w : Word) : Thread := { t0 with regs := t0.regs.set 4 (reg w) }

theorem witness_CapabilityArithmetic : (∀ i ∈ [Instr.capinc 10#7 2#7 4#7, .capperm 10#7 2#7 5#7, .capmov 2#7 2#7, .capchk 127#7 2#7 4#7],
    Solo (mk t0) i t0 t0 (mk t0)) ∧ ¬ ((t0.capAt 2#7).base ≤ (t0.capAt 2#7).cursor ∧ (t0.capAt 2#7).cursor + 4097 ≤ (t0.capAt 2#7).limit) :=
  ⟨solos (by decide +kernel), by decide +kernel⟩

/-- A test of the least exponent. -/
def least (lo hi e : Nat) : Bool :=
  let units := fun (e : Nat) => (hi + 2 ^ (12 + e) - 1) / 2 ^ (12 + e) - lo / 2 ^ (12 + e)
  decide (e ≤ 15) && decide (units e ≤ 65536) && (List.range e).all (fun f => decide (65536 < units f))

theorem least_of {lo hi e : Nat} (h : least lo hi e = true) : LeastExponent lo hi e := by
  simp only [least, Bool.and_eq_true, decide_eq_true_eq, List.all_eq_true, List.mem_range] at h
  exact ⟨h.1.1, h.1.2, h.2⟩

/-- The whole range of the pair, and no more than that. -/
theorem witness_CapabilityNarrowing : let t := tVal 4096#64
    Solo (mk t) (.capnrw 10#7 2#7 4#7) t t (mk t) ∧ t.tagAt 2#7 = true ∧ 0 < (t.rd 4#7).v.toNat ∧ LeastExponent 0x80000 0x81000 0
      ∧ (t.capAt 2#7).cursor = 0x80000 ∧ (t.capAt 2#7).base ≤ 0x80000 / 2 ^ 12 * 2 ^ 12
      ∧ (0x81000 + 2 ^ 12 - 1) / 2 ^ 12 * 2 ^ 12 ≤ (t.capAt 2#7).limit :=
  ⟨solo (by decide +kernel), by decide +kernel, by decide +kernel, least_of (by decide +kernel), by decide +kernel⟩

/-- No tag; no bytes; bytes that no exponent covers; a byte past the range. -/
theorem witness_CapabilityNarrowingTraps :
    (∀ w ∈ [0#64, 0x1000000000000#64, 4097#64], Solo (mk (tVal w)) (.capnrw 10#7 2#7 4#7) (tVal w) (tVal w) (mk (tVal w)) ∧ (tVal w).tagAt 2#7 = true)
    ∧ Solo (mk t0) (.capnrw 10#7 4#7 4#7) t0 t0 (mk t0) ∧ t0.tagAt 4#7 = false ∧ ((tVal 0#64).rd 4#7).v.toNat = 0
    ∧ (∀ e, ¬LeastExponent 0x80000 (0x80000 + 0x1000000000000) e)
    ∧ LeastExponent 0x80000 (0x80000 + 4097) 0
    ∧ ((tVal 4097#64).capAt 2#7).limit < (0x80000 + 4097 + 2 ^ (12 + 0) - 1) / 2 ^ (12 + 0) * 2 ^ (12 + 0) := by
  refine ⟨fun w h => ?_, solo (by decide +kernel), by decide +kernel, by decide +kernel, fun e h => ?_, least_of (by decide +kernel), by decide +kernel⟩
  · simp only [List.mem_cons, List.not_mem_nil, or_false] at h
    rcases h with rfl | rfl | rfl <;> exact ⟨solo (by decide +kernel), by decide +kernel⟩
  · have h1 : e ≤ 15 := h.1
    have h2 := h.2.1
    have : ∀ f, f ≤ 15 → ¬ ((0x80000 + 0x1000000000000 + 2 ^ (12 + f) - 1) / 2 ^ (12 + f) - 0x80000 / 2 ^ (12 + f) ≤ 65536) := by decide +kernel
    exact this e h1 h2

/-- The last KiB of the allocation, by source 0; the first 4 KiB of the code, by source 1. -/
theorem witness_ScratchAndCodeCapabilities :
    (let t := { tVal 512#64 with regs := (tVal 512#64).regs.set 5 (reg 0#64) }
     Solo (mk t) (.capscr 10#7 5#7 4#7) t t (mk t) ∧ (t.rd 4#7).v.toNat / 2 ^ 62 = 0 ∧ (t.rd 4#7).v.toNat % 2 ^ 38 ≠ 0
       ∧ 0 + 512 ≤ (mk t).scratchSize t ∧ LeastExponent 0xFFFFFFFFFC0000 (0xFFFFFFFFFC0000 + 512) 0)
    ∧ (let t := tVal 0x4000000000001000#64
       Solo (mk t) (.capscr 10#7 9#7 4#7) t t (mk t) ∧ (t.rd 4#7).v.toNat / 2 ^ 62 = 1 ∧ ((mk t).codeCap t).limit ≤ 0xFFFFFFFFFC0000
         ∧ (t.rd 9#7).v.toNat + 0x1000 ≤ ((mk t).codeCap t).limit - ((mk t).codeCap t).base ∧ LeastExponent 0 0x1000 0
         ∧ ((mk t).codeCap t).base = 0) :=
  ⟨⟨solo (by decide +kernel), by decide +kernel, by decide +kernel, by decide +kernel, least_of (by decide +kernel)⟩,
    solo (by decide +kernel), by decide +kernel, by decide +kernel, by decide +kernel, least_of (by decide +kernel), by decide +kernel⟩

/-- Sources 2 and 3; no bytes; one byte past the allocation; one byte past the code. -/
theorem witness_ScratchAndCodeCapabilityTraps :
    (∀ w ∈ [0x8000000000000001#64, 0xC000000000000001#64, 0#64, 1025#64, 0x4000000000000000#64, 0x4000000000100001#64],
      Solo (mk (tVal w)) (.capscr 10#7 9#7 4#7) (tVal w) (tVal w) (mk (tVal w)))
    ∧ 2 ≤ ((tVal 0x8000000000000001#64).rd 4#7).v.toNat / 2 ^ 62 ∧ (mk t0).scratchSize t0 < (t0.rd 9#7).v.toNat + 1025
    ∧ ((mk t0).codeCap t0).limit - ((mk t0).codeCap t0).base < (t0.rd 9#7).v.toNat + 0x100001 := by
  refine ⟨fun w h => ?_, by decide +kernel⟩
  simp only [List.mem_cons, List.not_mem_nil, or_false] at h
  rcases h with rfl | rfl | rfl | rfl | rfl | rfl <;> exact solo (by decide +kernel)

/-- A region of 64 bytes of a version at 0x80000. -/
def region0 (kind : Nat) : Region :=
  { kind := kind, lb := 1, d2 := false, off := 0, rows := 1, rowb := 64, pitch := 64, size := 64, ver := { va := 0x80000, cls := 0, lobj := false } }

/-- The machine whose task has these regions. -/
def mRegions (l : List Region) : State := inCtx (fun x => { x with window := x.window.map (fun k => { k with regions := l }) }) (mk t0)

/-- Each kind of region, of a task with one region; no pager is registered. -/
theorem witness_RegionCapabilities : ∀ k ∈ [0, 1, 2, 3], let s := mRegions [region0 k]
    Solo s (.capget 10#7 0#4) t0 t0 s ∧ ((s.taskRec t0).map (fun x => x.regions[(0#4).toNat]?)) = some (some (region0 k))
      ∧ s.isPagerQueue (s.ctxOf t0) 1 = false ∧ LeastExponent 0x80000 0x80040 0 := by
  intro k h
  simp only [List.mem_cons, List.not_mem_nil, or_false] at h
  rcases h with rfl | rfl | rfl | rfl <;>
    exact ⟨solo (by decide +kernel), by decide +kernel, by decide +kernel, least_of (by decide +kernel)⟩

/-! ### Witnesses: special registers and stamps -/

theorem witness_SpecialRegisterReads : (∀ i ∈ [Instr.movs 10#7 0#7, .movs 10#7 6#7, .movs 10#7 9#7, .movs 10#7 19#7, .movs 10#7 33#7, .movs 127#7 39#7],
      Solo (mk t0) i t0 t0 (mk t0))
    ∧ (mk t0).crew t0.crew = some c0 ∧ ((mk t0).cohort c0.cohort).isSome = true :=
  ⟨solos (by decide +kernel), by decide +kernel⟩

/-- Values that `fpmode`, `amax` and an age bound take at the ends of their ranges, and the next ones, which they do not. -/
theorem witness_SpecialRegisterWrites :
    (∀ i ∈ [Instr.movsw 4#7 14#7, .movsw 5#7 17#7, .movsw 4#7 19#7, .movsw 4#7 11#7, .movsw 4#7 13#7, .movsw 4#7 33#7, .movsw 4#7 39#7,
      .movsw 4#7 12#7, .movsw 4#7 15#7], ∀ w ∈ [12#64, 13#64, 0x7F7FFFFF#64, 0x7F800000#64, 0x5D0000000#64, 0x5D0000001#64],
      Solo (mk (tVal w)) i (tVal w) (tVal w) (mk (tVal w)))
    ∧ ((12#64).toNat < 16 ∧ (12#64).toNat % 8 ≤ 4) ∧ ¬((13#64).toNat < 16 ∧ (13#64).toNat % 8 ≤ 4)
    ∧ ((0x7F7FFFFF#64).getLsbD 31 = false ∧ (0x7F7FFFFF#64).toNat / 2 ^ 23 % 2 ^ 8 ≠ 255) ∧ (0x7F800000#64).toNat / 2 ^ 23 % 2 ^ 8 = 255
    ∧ ((0x5D0000000#64).toNat / 2 ^ 35 = 0 ∧ (0x5D0000000#64).toNat / 2 ^ 33 % 4 ≠ 3 ∧ (0x5D0000000#64).getLsbD 29 = false
        ∧ (0x5D0000000#64).toNat % 2 ^ 29 ≤ 2 ^ 28) ∧ ¬ (0x5D0000001#64).toNat % 2 ^ 29 ≤ 2 ^ 28 := by
  refine ⟨fun i hi w hw => ?_, by decide +kernel⟩
  simp only [List.mem_cons, List.not_mem_nil, or_false] at hw
  rcases hw with rfl | rfl | rfl | rfl | rfl | rfl <;> exact solos (by decide +kernel) i hi

/-- A result due at cycle 4, before it and at it. -/
theorem witness_ResultsBecomeVisible : let p : Pend := { due := 4, regs := [(63, reg 5#64)], tags := [(31, true)], fset := 1#6 }
    let t := { t0 with pend := [p] }
    t.pend = [p] ∧ 3 < p.due ∧ p.due ≤ 4 ∧ p.sregs = [] ∧ 63 < t.regs.length ∧ 31 < t.tags.length := by decide +kernel

theorem witness_StampInstructions : ∀ i ∈ [Instr.stampr 10#7 4#7, .age 10#7 4#7, .agejoin 10#7 4#7 5#7], Solo (mk t0) i t0 t0 (mk t0) :=
  solos (by decide +kernel)

/-- The register VACANT, its bound with CV: the check passes under selector 0, and has each of its failing outcomes. -/
theorem witness_AgeCheck :
    (∀ act ∈ [0, 1, 2], let t := { tBound act 1 1 1 with regs := t0.regs.set 4 { v := 0#64, s := sVacant } }
      Solo (mk t) (.agechk 1#3 4#7) t t (mk t)
        ∧ (mk t).freshness t 1 [(t.rd 4#7).s] 0 =
          (if act = 0 then .escalate 2 else if act = 1 then .trap { code := 0x0E, sub := 2, arg := 1, detail := 0 } else .ok 0x102#9))
    ∧ Solo (mk t0) (.agechk 0#3 4#7) t0 t0 (mk t0) ∧ (mk t0).freshness t0 0 [(t0.rd 4#7).s] 0 = .ok 0#9 := by
  refine ⟨fun act h => ?_, solo (by decide +kernel), by decide +kernel⟩
  simp only [List.mem_cons, List.not_mem_nil, or_false] at h
  rcases h with rfl | rfl | rfl <;> exact ⟨solo (by decide +kernel), by decide +kernel⟩
/-! ### Witnesses: the privileged state -/

/-- The context's record of a machine, when it passes a test. -/
def ctxIs (s : State) (p : Ctx → Bool) : Bool := ((s.ctx 0).map p).getD false

theorem witness_PrivilegedState : (mk t0).crew t0.crew = some c0 ∧ ctxIs (mk t0) (fun x => x.priv) = true
    ∧ ctxIs (user t0) (fun x => !x.priv) = true ∧ Instr.wf .tret = true ∧ Instr.wf (.add 0#3 1#7 2#7 3#7) = true := by decide +kernel

/-- In a handler, and out of one in a context with PRIV. -/
theorem witness_ReturnFromTrap : (let t := { t0 with hnd := true, epc := 0x4000000#64 }; Solo (mk t) .tret t t (mk t) ∧ t.hnd = true)
    ∧ Solo (mk t0) .tret t0 t0 (mk t0) ∧ t0.hnd = false :=
  ⟨⟨solo (by decide +kernel), by decide +kernel⟩, solo (by decide +kernel), by decide +kernel⟩

/-- Registers of the thread, the crew, the context and the partition, with PRIV; of the last two in a handler without it; numbers at the
ends of the gaps. -/
theorem witness_ControlRegisterReads :
    (∀ i ∈ [Instr.csrr 0#3 10#7 0#7, .csrr 0#3 10#7 7#7, .csrr 0#3 10#7 0x10#7, .csrr 0#3 10#7 0x20#7, .csrr 0#3 10#7 0x23#7, .csrr 0#3 10#7 0x24#7,
      .csrr 0#3 10#7 0x40#7, .csrr 2#3 10#7 0#7, .csrr 0#3 10#7 8#7, .csrr 0#3 10#7 0x0F#7, .csrr 0#3 10#7 0x1F#7, .csrr 0#3 10#7 0x25#7,
      .csrr 0#3 10#7 0x3F#7, .csrr 0#3 10#7 0x43#7, .csrr 2#3 10#7 1#7], Solo (mk t0) i t0 t0 (mk t0))
    ∧ (mk t0).crew t0.crew = some c0 ∧ c0.pendTvec = [] ∧ ctxIs (mk t0) (fun x => x.pendCtl == [] && ((mk t0).part x.part).pendPol == [] && x.priv) = true
    ∧ (let t := { t0 with hnd := true }
       Solo (user t) (.csrr 2#3 10#7 0#7) t t (user t) ∧ ctxIs (user t) (fun x => !x.priv) = true) :=
  ⟨solos (by decide +kernel), by decide +kernel, by decide +kernel, by decide +kernel, solo (by decide +kernel), by decide +kernel⟩

/-- Values at the ends of the fields of `ewbase`, `erep`, `epc`, `tvec` and `ctxctl`, and the next ones; read-only numbers. -/
theorem witness_ControlRegisterWrites :
    (∀ i ∈ [Instr.csrw 0#3 4#7 1#7, .csrw 0#3 4#7 4#7, .csrw 0#3 4#7 5#7, .csrw 0#3 4#7 0x10#7, .csrw 0#3 4#7 0x20#7, .csrw 0#3 4#7 0#7,
      .csrw 0#3 4#7 7#7, .csrw 0#3 4#7 0x22#7],
      ∀ w ∈ [56#64, 64#64, 65#64, 0x100#64, 0xFFFFF000000F8#64, 0x10000000000000#64, 10#64, 30#64, 9#64, 31#64],
      Solo (mk (tVal w)) i (tVal w) (tVal w) (mk (tVal w)))
    ∧ (mk t0).crew t0.crew = some c0 ∧ ctxIs (mk t0) (fun x => x.pendCtl == [] && !x.ctl.getLsbD 16) = true
    ∧ 56 < 2 ^ 8 ∧ 56 % 8 = 0 ∧ 56 < t0.regs.length ∧ ¬ 64 < t0.regs.length ∧ 0x100 % 2 ^ 8 = 0 ∧ 9 < 10 ∧ 30 < 31
    ∧ (0xFFFFF000000F8 < 2 ^ 52 ∧ 0xFFFFF000000F8 / 2 ^ 8 % 2 ^ 24 = 0 ∧ 0xFFFFF000000F8 % 8 = 0) := by
  refine ⟨fun i hi w hw => ?_, by decide +kernel⟩
  simp only [List.mem_cons, List.not_mem_nil, or_false] at hw
  rcases hw with rfl | rfl | rfl | rfl | rfl | rfl | rfl | rfl | rfl | rfl <;> exact solos (by decide +kernel) i hi

/-- Writes due at cycle 3: one that waits, one that is due. -/
theorem witness_SharedRegisterWrites : (∀ p ∈ [(4 * 2 ^ 15, 7#64)], 3 < p.1 / 2 ^ 15) ∧ [(3 * 2 ^ 15 + 9, 7#64)] = [] ++ [(3 * 2 ^ 15 + 9, 7#64)]
    ∧ (3 * 2 ^ 15 + 9) / 2 ^ 15 ≤ 3 := by decide +kernel

/-- A granule of device memory, of the window, and of host memory; a pair without RESTAMP; stamps of each kind. -/
theorem witness_StampSetting : (mk t0).crew t0.crew = some c0
    ∧ (∀ i ∈ [Instr.stampsetReg 10#7 4#7 5#7, .stampsetGranule 2#7 5#7, .stampsetGranule 14#7 5#7, .stampsetGranule 12#7 5#7], Solo (mk t0) i t0 t0 (mk t0))
    ∧ (mk t0).memCheck t0 2#7 32 ((mk t0).addrBase t0 2#7) 1 1 true = .ok (.virt ((mk t0).addrBase t0 2#7))
    ∧ (mk t0).reaches t0 .store ((mk t0).addrBase t0 2#7) 1 false 0x80000 false (goal (mk t0) t0 .store 0x80000 1).2.2
    ∧ (mk t0).memCheck t0 14#7 32 ((mk t0).addrBase t0 14#7) 1 1 true = .ok (.scratch 0)
    ∧ ((mk t0).translate ((mk t0).ctxOf (t0.commit (mk t0).cycle)) .store 0x40000000 1).1 = .page 0 true
    ∧ (let t := tPair 0x80000DF#64 true
       Solo (mk t) (.stampsetGranule 2#7 5#7) t t (mk t)
         ∧ (mk t).memCheck t 2#7 32 ((mk t).addrBase t 2#7) 1 1 true = .error { code := 6, sub := 2, detail := 0x80000 })
    ∧ (2 ^ 29 ≤ stampAge 0 1#32 ∧ stampAge 0 0#32 < 2 ^ 29 ∧ (0xFFFFFFFF#32).toNat / 2 ^ 30 = 3 ∧ (0xBFFFFFFF#32).toNat / 2 ^ 30 = 2) :=
  ⟨by decide +kernel, solos (by decide +kernel), ok_of (by decide +kernel), ok_of (by decide +kernel), ok_of (by decide +kernel),
    by decide +kernel, ⟨solo (by decide +kernel), error_of (by decide +kernel)⟩, by decide +kernel⟩

/-- Each scope, with PRIV; scopes 2 and 3 without it, in a handler; MBZ bits 14, 2 and 7. -/
theorem witness_TranslationInvalidation :
    (∀ w ∈ [0#64, 1#64, 3#64, 2#64, 0x4000#64, 4#64, 0x80#64], Solo (mk (tVal w)) (.tlbinv 5#7 4#7) (tVal w) (tVal w) (mk (tVal w)))
    ∧ (mk t0).crew t0.crew = some c0 ∧ ctxIs (mk t0) (fun x => x.priv && ((mk t0).peerCtx t0 0 == some x)) = true
    ∧ (let t := { tVal 2#64 with hnd := true }
       Solo (user t) (.tlbinv 5#7 4#7) t t (user t) ∧ ctxIs (user t) (fun x => !x.priv) = true ∧ 2 % 4 ≥ 2 ∧ 2 / 2 ^ 14 = 0 ∧ 2 / 4 % 2 ^ 6 = 0)
    ∧ (0x4000 / 2 ^ 14 ≠ 0 ∧ 4 / 4 % 2 ^ 6 ≠ 0 ∧ 0x80 / 4 % 2 ^ 6 ≠ 0) := by
  refine ⟨fun w h => ?_, by decide +kernel, by decide +kernel, ⟨solo (by decide +kernel), by decide +kernel⟩, by decide +kernel⟩
  simp only [List.mem_cons, List.not_mem_nil, or_false] at h
  rcases h with rfl | rfl | rfl | rfl | rfl | rfl | rfl <;> exact solo (by decide +kernel)

/-- The thread with values in g4 and g5. -/
def tVals (w x : Word) : Thread := { t0 with regs := (t0.regs.set 4 (reg w)).set 5 (reg x) }

/-- The last core and the next number; RD set and clear; a handler without PRIV. -/
theorem witness_CoreMap :
    (∀ p ∈ [(3071#64, 0x8000000000000000#64), (3071#64, 0x100#64), (3072#64, 0#64)],
      Solo (mk (tVals p.1 p.2)) (.cmapw 10#7 4#7 5#7) (tVals p.1 p.2) (tVals p.1 p.2) (mk (tVals p.1 p.2)))
    ∧ (mk t0).crew t0.crew = some c0 ∧ ctxIs (mk t0) (fun x => x.priv && ((mk t0).part x.part).dies.getLsbD (3071 / 384)) = true
    ∧ (let t := { tVals 0#64 0#64 with hnd := true }; Solo (user t) (.cmapw 10#7 4#7 5#7) t t (user t) ∧ t.hnd = true) := by
  refine ⟨fun p h => ?_, by decide +kernel, by decide +kernel, solo (by decide +kernel), by decide +kernel⟩
  simp only [List.mem_cons, List.not_mem_nil, or_false] at h
  rcases h with rfl | rfl | rfl <;> exact solo (by decide +kernel)

/-- Each operation on the thread's own context, with DBG clear and set; operation 3; number 64; a context that is not there; another one
without S. -/
theorem witness_HaltControl :
    (∀ p ∈ [(0#64, 0#64), (0#64, 1#64), (0#64, 2#64), (0#64, 3#64), (64#64, 0#64), (63#64, 0#64)],
      ∀ i ∈ [Instr.haltcHalt 4#7 5#7, .haltcResume 4#7 5#7, .haltcDebugHalt 4#7 5#7],
      Solo (mk (tVals p.1 p.2)) i (tVals p.1 p.2) (tVals p.1 p.2) (mk (tVals p.1 p.2)))
    ∧ ctxIs (mk t0) (fun x => (mk t0).peerCtx t0 0 == some x && !x.halted && x.pendCtl == [] && !x.ctl.getLsbD 16) = true
    ∧ (mk t0).peerCtx t0 63 = none ∧ (mk t0).crew t0.crew = some c0 ∧ c0.ctx = 0
    ∧ ctxIs (mk (tVals 0#64 1#64)) (fun x => (((mk (tVals 0#64 1#64)).resumeCtx x).thread t0.crew t0.tid).isSome) = true
    ∧ (let s := inCtx (fun x => { x with ctl := 0x10000#64 }) (mk (tVals 0#64 2#64))
       Solo s (.haltcDebugHalt 4#7 5#7) (tVals 0#64 2#64) (tVals 0#64 2#64) s ∧ ctxIs s (fun x => x.pendCtl == [] && x.ctl.getLsbD 16) = true)
    ∧ (let t := { tVals 1#64 0#64 with hnd := true }
       let s := { user t with ctxs := (user t).ctxs ++ (user t).ctxs.map (fun x => { x with num := 1 }) }
       Solo s (.haltcHalt 4#7 5#7) t t s ∧ (s.peerCtx t 1).isSome = true ∧ 1 ≠ c0.ctx ∧ s.isS t = false)
    ∧ (∀ p ∈ [(0#64, false, true), (0#64, true, false), (1#64, true, true)], let t := tVals 1#64 p.1
       let s := { mk t with ctxs := (mk t).ctxs ++ (mk t).ctxs.map (fun x => { x with num := 1, halted := p.2.1, saved := p.2.2 }) }
       Solo s (.haltcHalt 4#7 5#7) t t s ∧ (s.peerCtx t 1).map (fun x => (x.halted, x.saved)) = some p.2 ∧ s.isS t = true) := by
  refine ⟨fun p h i hi => ?_, by decide +kernel, by decide +kernel, by decide +kernel, by decide +kernel, by decide +kernel,
    ⟨solo (by decide +kernel), by decide +kernel⟩, ⟨solo (by decide +kernel), by decide +kernel⟩, fun p h => ?_⟩
  rotate_left
  · simp only [List.mem_cons, List.not_mem_nil, or_false] at h
    rcases h with rfl | rfl | rfl <;> exact ⟨solo (by decide +kernel), by decide +kernel⟩
  simp only [List.mem_cons, List.not_mem_nil, or_false] at h
  rcases h with rfl | rfl | rfl | rfl | rfl | rfl <;> exact solos (by decide +kernel) i hi

/-- The machine with its context in a debug halt, stopping for a halt, halted, and running; its thread stopped. -/
theorem witness_ResumingAContext : let t := { t0 with st := .stopped, resume := .running }
    (∀ f ∈ [(fun x => { x with dhalt := true }), (fun x => { x with stop := some { kind := .halt, waiting := [], resumeAsked := false, tasks := [] } }),
        (fun x => { x with halted := true }), (fun x => x : Ctx → Ctx)], ctxIs (inCtx f (mk t)) (fun x => decide (x.num = 0)) = true)
    ∧ (mk t).thread t.crew t.tid = some t ∧ (mk t).ctxOf t = 0 ∧ ctxIs (mk t) (fun x => !x.dhalt && x.stop.isNone && !x.halted && !x.saved) = true := by
  refine ⟨fun f h => ?_, by decide +kernel⟩
  simp only [List.mem_cons, List.not_mem_nil, or_false] at h
  rcases h with rfl | rfl | rfl | rfl <;> decide +kernel

/-- The thread at slot 0 and at the last slot. -/
theorem witness_StoppingAtClauseBoundaries : ∀ n ∈ [0, 7], let t := { t0 with pc := { t0.pc with slot := n } }
    let s := inCtx (fun x => { x with dhalt := true }) (mk t)
    s.thread t.crew t.tid = some t ∧ ctxIs s (fun x => x.dhalt) = true ∧ s.ctxOf t = 0 ∧ t.st = .running := by decide +kernel

/-- Whether an instruction completes in a state. -/
def goes (i : Instr) (s : State) : Bool :=
  match exec i s with
  | .next _ => true
  | _ => false

/-- The machine with a second context, in a debug halt, and a thread of it that is stopped; `dbgsel` selects it or no thread. -/
def mDebug (w : Word) (u : Thread) : State :=
  let s := mk (tVal w)
  let x1 := s.ctxs.map (fun x => { x with num := 1, dhalt := true })
  { s with
    ctxs := s.ctxs ++ x1, threads := s.threads ++ [u], crews := s.crews ++ [{ c0 with uid := 900, ctx := 1, cohort := 901 }]
    cohorts := s.cohorts ++ s.cohorts.map (fun h => { h with uid := 901, ctx := 1 }) }

/-- A thread of it, stopped where it was in, and one that runs. -/
def tStopped (resume : TState) : Thread := { t0 with crew := 900, st := .stopped, resume := resume, clause := none, notBefore := 0 }

/-- The selected thread ready; not to be resumed; none selected. -/
theorem witness_DebugSteps : let w := 0x0400000000000000#64
    (∀ u ∈ [tStopped .running, tStopped .exited], Solo (mDebug w u) (.dbgstep 4#7) (tVal w) (tVal w) (mDebug w u)
      ∧ (mDebug w u).selected (tVal w) w = some u)
    ∧ Solo (mDebug (w + 1#64) t0) (.dbgstep 4#7) (tVal (w + 1#64)) (tVal (w + 1#64)) (mDebug (w + 1#64) t0)
    ∧ (mDebug (w + 1#64) t0).selected (tVal (w + 1#64)) (w + 1#64) = none
    ∧ w.toNat / 2 ^ 10 % 2 ^ 21 = 0 ∧ w.toNat / 2 ^ 58 = 1
    ∧ ((mDebug w (tStopped .running)).peerCtx (tVal w) 1).map (fun y => y.dhalt) = some true
    ∧ ((mDebug w (tStopped .running)).judge (tStopped .running) Thread.steppable).1.map (fun r => r.entry) = some false
    ∧ ((mDebug w (tStopped .exited)).judge (tStopped .exited) Thread.steppable).1 = none
    ∧ (mDebug w (tStopped .running)).inDebugHalt t0.crew = false
    ∧ (mDebug w (tStopped .running)).inDebugHalt 900 = true
    ∧ ((mDebug w (tStopped .exited)).pickStep 900 t0.tid).1 = none
    ∧ (let r := (mDebug w (tStopped .running)).pickStep 900 t0.tid
       (match r.1 with
        | some (seed :: b) =>
          let ks := bundleKeys (seed :: b)
          (match (r.2.letGo ks).openBundle ks seed.pc seed.rep seed.f with
           | .ok (i, s3) => goes i s3
           | .error _ => false)
        | _ => false) = true) := by
  refine ⟨fun u h => ?_, solo (by decide +kernel), by decide +kernel⟩
  simp only [List.mem_cons, List.not_mem_nil, or_false] at h
  rcases h with rfl | rfl <;> exact ⟨solo (by decide +kernel), by decide +kernel⟩

/-- Each check failing first, at the end of what it allows: action 3; no tag; no PAGER; the window; past the range; misaligned; and none. -/
theorem witness_PageDoneCompletes :
    (∀ i ∈ [Instr.pagedoneResume 2#7 8#7, .pagedoneMap 2#7 8#7, .pagedoneFail 2#7 8#7, .pagedoneResume 14#7 8#7, .pagedoneResume 4#7 8#7,
      .pagedoneResume 2#7 7#7], Solo (mk t0) i t0 t0 (mk t0))
    ∧ ((t0.rd 8#7).v.toNat ≤ 2 ∧ ¬ (t0.rd 7#7).v.toNat ≤ 2 ∧ t0.tagAt 4#7 = false ∧ t0.tagAt 2#7 = true ∧ (t0.capAt 2#7).has pPager = true
      ∧ (t0.capAt 14#7).has pPager = true ∧ ¬ (t0.capAt 14#7).cursor < 0xFFFFFFFFFC0000)
    ∧ (∀ lo ∈ [0x80000BF#64, 0x80FE1FF#64, 0x8000FFF#64, 0x80FE0FF#64], Solo (mk (tPair lo true)) (.pagedoneResume 2#7 8#7) (tPair lo true)
        (tPair lo true) (mk (tPair lo true)))
    ∧ ((tPair 0x80000BF#64 true).capAt 2#7).has pPager = false
    ∧ (¬ 0x80FE1 + 32 ≤ (t0.capAt 2#7).limit ∧ 0x80FE0 + 32 ≤ (t0.capAt 2#7).limit ∧ 0x8000F % 32 ≠ 0 ∧ 0x80FE0 % 32 = 0)
    ∧ (let g := goal (mk t0) t0 .atomic 0x80000 32
       (mk t0).reaches t0 .atomic 0x80000 32 true g.1 g.2.1 g.2.2 ∧ (g.2.2.store g.2.1).anyPoison g.1 32 = false
         ∧ (let r := g.2.2.pageDone (g.2.2.ctxOf (t0.commit (mk t0).cycle)) 0x80000 g.1 g.2.1 2
            r.1.toOption.isSome = true ∧ (r.2.thread t0.crew t0.tid).isSome = true)) := by
  refine ⟨solos (by decide +kernel), by decide +kernel, fun lo h => ?_, by decide +kernel, by decide +kernel, reaches_goal (by decide +kernel), by decide +kernel⟩
  simp only [List.mem_cons, List.not_mem_nil, or_false] at h
  rcases h with rfl | rfl | rfl | rfl <;> exact solo (by decide +kernel)

/-- The machine with a pager of its own context whose record 0 is outstanding at 0x80000, its TAG in memory. -/
def mPager (tag : Nat) : State :=
  let b : LBuf := { n := 1, size := 4096, lobj := false, ver := { va := 0x80000, cls := 0, lobj := false } }
  let p : Pager := { p := 0, base := 0, limit := 2 ^ 30, sctx := 0, qlb := 1, logq := 4, next := 1,
                     recs := [{ n := 0, unit := 2, joined := [(.thread t0.crew 0, 0x20010)] }], waiting := [] }
  let s := inCtx (fun x => { x with rmap := [b], pagers := [p] }) (mk { t0 with st := .parked (.pager 0 2) })
  { s with mem := s.mem.putBytes 0x80000 (toBytes 8 tag) }

/-- A record whose TAG is 0, and one that is outstanding. -/
theorem witness_PageDoneResolves : (mPager 0).mem.readNat 0x80000 8 = 0 ∧ (mPager 1).mem.readNat 0x80000 8 ≠ 0
    ∧ ((mPager 1).ctx ((mPager 1).mem.readNat 0x80008 8 / 2 ^ 48 % 2 ^ 6)).isSome = true
    ∧ ((mPager 1).recordAt 0 0x80000 1).isSome = true
    ∧ (mPager 5).mem.readNat 0x80000 8 = 5 ∧ (mPager 5).recordAt 0 0x80000 5 = none ∧ (mPager 5).orphanAt 0 0x80000 5 = none := by decide +kernel

theorem witness_ParkedThreads : let t := { t0 with st := .parked (.pager 0 2) }
    (mPager 1).thread t0.crew 0 = some t ∧ t.st = .parked (.pager 0 2) := by decide +kernel
/-! ### Witnesses: bulk, counters, egress -/

/-- The thread with a copy group from g16 on: two pairs over the 4 KiB at 0x80000, tagged, and the words given. -/
def tGroup (l : List Word) : Thread :=
  { t0 with
    regs := t0.regs.take 16 ++ ([capLo, capHi, capLo, capHi] ++ l).map reg ++ t0.regs.drop (20 + l.length)
    tags := (t0.tags.set 8 true).set 9 true }

/-- Words that pass the checks, and a shape of no bytes, for each of the instructions. -/
theorem witness_BulkInstructions : ∀ i ∈ [Instr.bcopy 16#7, .bfill 16#7, .bput 16#7, .bget 16#7, .batomAdd 10#7 16#7, .batomOr 10#7 16#7,
      .batomXch 10#7 16#7, .batomCas 127#7 16#7, .batomMaxn 10#7 16#7, .batomFadd 10#7 16#7],
    Solo (mk (tGroup [64#64, 0#64, 1#64])) i (tGroup [64#64, 0#64, 1#64]) (tGroup [64#64, 0#64, 1#64]) (mk (tGroup [64#64, 0#64, 1#64]))
    ∧ ((bulkInstr i).map (fun p => bulkCheck p.1 p.2.2.1 (mk (tGroup [64#64, 0#64, 1#64])) (tGroup [64#64, 0#64, 1#64]))) = some none
    ∧ Solo (mk (tGroup [64#64, 1#64, 1#64])) i (tGroup [64#64, 1#64, 1#64]) (tGroup [64#64, 1#64, 1#64]) (mk (tGroup [64#64, 1#64, 1#64]))
    ∧ ((bulkInstr i).map (fun p => bulkCheck p.1 p.2.2.1 (mk (tGroup [64#64, 1#64, 1#64])) (tGroup [64#64, 1#64, 1#64]))) =
        some (some { code := 0x11, detail := 1 }) := by
  intro i h
  refine ⟨solos (by decide +kernel) i h, ?_, solos (by decide +kernel) i h, ?_⟩ <;> (revert i h; decide +kernel)

/-- Shapes: of no bytes, of the most bytes, with a row pitch below the row; counter words at the ends; peer words one past; a pair one byte
short; a counter offset misaligned, past the allocation, and the last in it. -/
theorem witness_BulkOperandChecks : let s := mk t0
    (∀ p ∈ [(BulkOp.copy, 0#64, 0#64, 0#64, 0x11, 0), (.fill, 0x4000100800000000#64, 0#64, 0#64, 0x11, 0x4000100800000000),
        (.copy, 64#64, 0x80000#64, 0#64, 0x11, 0x80000), (.copy, 64#64, 1#64, 0#64, 0x11, 1), (.put, 64#64, 0#64, 0x20000#64, 0x11, 0x20000),
        (.get, 64#64, 0#64, 0x10000#64, 0x11, 0x10000), (.atom, 0#64, 0#64, 0x40#64, 0x11, 0x40), (.copy, 64#64, 0x40004#64, 0#64, 5, 4),
        (.copy, 64#64, 0x40400#64, 0#64, 7, 1024)],
      bulkCheck p.1 16#7 s (tGroup [p.2.1, p.2.2.1, p.2.2.2.1]) = some { code := p.2.2.2.2.1, detail := p.2.2.2.2.2 })
    ∧ (bulkCheck .fill 16#7 s (tGroup [4097#64, 0#64, 0#64])).map (fun tr => (tr.code, tr.sub)) = some (6, 4)
    ∧ bulkCheck .copy 16#7 s (tGroup [4096#64, 0x403F8#64, 0#64]) = none := by decide +kernel

/-- Rows of 8 KiB: their first packet, and a byte of their last. -/
theorem witness_PacketsDivideATransfer : let r : Rows := { va := 0x80800, rows := 2, rowb := 8192, pitch := 8192 }
    0 < r.rowb ∧ 0 < r.packets ∧ 1 < r.rows ∧ 8191 < r.rowb := by decide +kernel

/-- The state after an instruction of the machine. -/
def after (i : Instr) (s : State) : State :=
  match exec i s with
  | .next u => u
  | _ => s

/-- The machine after a BFILL of 64 bytes, and its engine thread. -/
def mFill : State := after (.bfill 16#7) (mk (tGroup [64#64, 0#64]))

theorem witness_EnginePackets : (mFill.engine m0.nextUid).map (fun x =>
    decide (mFill.packetReady x 0 = true ∧ (mFill.planOf x).dst = .memory ∧ x.kind = .bfill ∧ mFill.wrote = [])
      && (match (mFill.planOf x).src with | .taken _ => false | _ => true) && ((mFill.planOf x).rows.piece 0).any (fun q =>
      (mFill.pieceBytes x 0 (mFill.planOf x) q).1.toOption.any (fun l =>
        ((mFill.pieceBytes x 0 (mFill.planOf x) q).2.engPut x.ctx x.crew ((mFill.planOf x).rows.pieceVa q) l).1.toOption.isSome))) = some true := by
  decide +kernel

/-- An operation that may complete; the engine thread with its one packet done, and failed. -/
theorem witness_OperationsComplete :
    (let op : LOp := { id := 1, flag := none, entry := false, wait := .ready 0 }
     let t := { t0 with lops := [op] }
     (mk t).thread t.crew t.tid = some t ∧ t.lops.find? (fun x => x.id == 1) = some op ∧ (mk t).lopReady t op = true)
    ∧ (let op : LOp := { id := 1, flag := none, entry := false, wait := .ready 0, group := some 5 }
       let t := { t0 with lops := [op] }
       (mk t).lopReady t op = true ∧ ((mk t).threads.map (fun y => (y.crew, y.tid))).Nodup ∧ t.lops.filter (fun x => x.group == some 5) = [op])
    ∧ (mFill.engine m0.nextUid).map (fun x => decide (x.crew = some t0.crew ∧ x.tid = 0 ∧ x.lop = some (m0.nextUid + 1) ∧ x.failed = false
        ∧ (mFill.planOf x).rows.packets = 1 ∧ (mFill.planOf x).dst ≠ .staged)
        && ctxIs mFill (fun c => c.unitRuns x.unit)) = some true
    ∧ ((mFill.thread t0.crew 0).bind (fun t => t.lops.find? (fun x => x.id == m0.nextUid + 1))).isSome = true := by decide +kernel

/-- The thread with a counter offset in g4 and a value in g5. -/
theorem witness_ArrivalCounters :
    (∀ p ∈ [(1016#64, 0#64), (1016#64, 5#64), (4#64, 0#64), (1024#64, 0#64)], ∀ i ∈ [Instr.actr 10#7 4#7 5#7, .waitc 4#7 5#7],
      Solo (mk (tVals p.1 p.2)) i (tVals p.1 p.2) (tVals p.1 p.2) (mk (tVals p.1 p.2)))
    ∧ (mk t0).crew t0.crew = some c0 ∧ t0.st = .running
    ∧ (1016 % 8 = 0 ∧ 1016 + 8 ≤ c0.scrSize ∧ 4 % 8 ≠ 0 ∧ 1024 % 8 = 0 ∧ c0.scrSize < 1024 + 8) ∧ c0.scr.anyPoison 1016 8 = false
    ∧ (toSigned 64 (0#64).toNat ≤ toSigned 64 (c0.scr.readNat 1016 8) ∧ toSigned 64 (c0.scr.readNat 1016 8) < toSigned 64 (5#64).toNat)
    ∧ (let t := { t0 with st := .held (.waitc 1016 5#64 none) }
       (mk t).thread t.crew t.tid = some t ∧ (none : Option Nat) ≠ some (c0.scr.writeCount 1016 8)) := by
  refine ⟨fun p h i hi => ?_, by decide +kernel⟩
  simp only [List.mem_cons, List.not_mem_nil, or_false] at h
  rcases h with rfl | rfl | rfl | rfl <;> exact solos (by decide +kernel) i hi

/-- The machine with tag 5 bound by a crew. -/
def mTag (cr : Nat) (w x : Word) : State := inCtx (fun y => { y with dtags := [{ tag := 5, crew := cr, off := 0 }] }) (mk (tVals w x))

/-- A set MBZ bit; binding a free tag, one's own, another's; unbinding one's own, another's. -/
theorem witness_DeliveryTags : (∀ off ∈ [1020#64, 1024#64], Solo (mTag 900 off 6#64) (.actrdBind 4#7 5#7) (tVals off 6#64) (tVals off 6#64)
      (mTag 900 off 6#64) ∧ (off.toNat % 8 ≠ 0 ∨ c0.scrSize < off.toNat + 8))
    ∧ (∀ p ∈ [(900, 0x100#64), (900, 6#64), (t0.crew, 5#64), (900, 5#64), (t0.crew, 0x8000000000000005#64), (900, 0x8000000000000005#64)],
      Solo (mTag p.1 1016#64 p.2) (.actrdBind 4#7 5#7) (tVals 1016#64 p.2) (tVals 1016#64 p.2) (mTag p.1 1016#64 p.2)
      ∧ Solo (mTag p.1 1016#64 p.2) (.actrdUnbind 4#7 5#7) (tVals 1016#64 p.2) (tVals 1016#64 p.2) (mTag p.1 1016#64 p.2)
      ∧ (mTag p.1 1016#64 p.2).crew t0.crew = some c0
      ∧ ctxIs (mTag p.1 1016#64 p.2) (fun x => ((x.dtags.find? (fun g => g.tag == 5)).map (fun g => g.crew)) == some p.1
          && (x.dtags.find? (fun g => g.tag == 6)).isNone) = true)
    ∧ (0x100 / 2 ^ 8 % 2 ^ 55 ≠ 0 ∧ (6#64).getLsbD 63 = false ∧ (0x8000000000000005#64).getLsbD 63 = true ∧ 900 ≠ t0.crew) := by
  refine ⟨fun p h => ?_, fun p h => ?_, by decide +kernel⟩ <;> simp only [List.mem_cons, List.not_mem_nil, or_false] at h
  · rcases h with rfl | rfl <;> exact ⟨solo (by decide +kernel), by decide +kernel⟩
  · rcases h with rfl | rfl | rfl | rfl | rfl | rfl <;> exact ⟨solo (by decide +kernel), solo (by decide +kernel), by decide +kernel⟩

/-- The machine with port 5 of a kind, its ring of 2^log bytes. -/
def mPort (kind log : Nat) (w : Word) : State :=
  inCtx (fun y => { y with ports := [{ n := 5, kind := kind, bound := 0#64, desc := [0#64, BitVec.ofNat 64 log, 0#64, 0#64], prod := 0, cons := 0,
                                       remainder := [], back := [] }] }) (mk (tVal w))

/-- A length of 0 and of 4 KiB, an open port of each kind, a closed one, a ring one size short, a counter. -/
theorem witness_EgressSends :
    (∀ p ∈ [(1, 13, 0#64), (1, 13, 4096#64), (1, 12, 4096#64), (2, 0, 4096#64), (3, 13, 4096#64), (2, 0, 0x403F800001000#64)],
      Solo (mPort p.1 p.2.1 p.2.2) (.send 4#7 2#7 5#6) (tVal p.2.2) (tVal p.2.2) (mPort p.1 p.2.1 p.2.2)
      ∧ Solo (mPort p.1 p.2.1 p.2.2) (.send 4#7 2#7 6#6) (tVal p.2.2) (tVal p.2.2) (mPort p.1 p.2.1 p.2.2)
      ∧ (mPort p.1 p.2.1 p.2.2).crew t0.crew = some c0
      ∧ ctxIs (mPort p.1 p.2.1 p.2.2) (fun x => ((x.ports.find? (fun q => q.n == 5)).map (fun q => (q.kind, (q.desc.getD 1 0#64).toNat % 2 ^ 5)))
          == some (p.1, p.2.1) && (x.ports.find? (fun q => q.n == 6)).isNone) = true)
    ∧ (4096 < 2 ^ 51 ∧ 4096 / 2 ^ 25 % 2 ^ 7 = 0 ∧ 4096 / 2 ^ 32 % 2 ^ 18 = 0 ∧ 1 ≤ 4096 ∧ 4096 ≤ 2 ^ 24 ∧ ¬ 1 ≤ 0)
    ∧ (2 ^ 12 < (16 + 4096 + 31) / 32 * 32 ∧ (16 + 4096 + 31) / 32 * 32 ≤ 2 ^ 13)
    ∧ (t0.tagAt 2#7 = true ∧ (t0.capAt 2#7).has 17 = true ∧ (t0.capAt 2#7).cursor + 4096 ≤ (t0.capAt 2#7).limit)
    ∧ (0x403F800001000 < 2 ^ 51 ∧ 0x403F800001000 / 2 ^ 50 % 2 = 1 ∧ 0x403F800001000 / 2 ^ 32 % 2 ^ 18 = 1016) := by
  refine ⟨fun p h => ?_, by decide +kernel⟩
  simp only [List.mem_cons, List.not_mem_nil, or_false] at h
  rcases h with rfl | rfl | rfl | rfl | rfl | rfl <;> exact ⟨solo (by decide +kernel), solo (by decide +kernel), by decide +kernel⟩

/-- The machine whose fabric has package 1. -/
def mPeer : State := let s := mk t0; { s with fab := { s.fab with present := [1] } }

/-- The package itself, one that is not present, one that is. -/
theorem witness_LeaseCounts : (∀ i ∈ [Instr.leaseq 10#7 0#6, .leaseq 10#7 63#6, .leaseq 127#7 1#6], Solo mPeer i t0 t0 mPeer)
    ∧ mPeer.devid = 0 ∧ mPeer.fab.present.contains 63 = false ∧ mPeer.fab.present.contains 1 = true ∧ mPeer.agreed 2 = true
    ∧ mPeer.fab.rotating = false := ⟨solos (by decide +kernel), by decide +kernel⟩
/-! ### Witnesses: the matrix engine and the update unit -/

/-- The machine whose cohort has an accumulator allotment of n bytes. -/
def mAcc (n : Nat) (t : Thread) : State := let s := mk t; { s with cohorts := s.cohorts.map (fun h => { h with accBytes := n }) }

/-- The cohort's record of a machine, when it passes a test. -/
def accIs (s : State) (p : Cohort → Bool) : Bool := ((s.cohort c0.cohort).map p).getD false

/-- A tile of one row that ends with an allotment of 1 KiB, one of two rows, an EXP of -128; the last doubleword, the next, and a misaligned
one; no allotment. -/
theorem witness_MatrixCommands :
    (∀ w ∈ [0#64, 0x8000000000#64, 0x8000000000000000#64, 1016#64, 1024#64, 4#64], ∀ i ∈ [Instr.mswap, .mstat 1#1 10#7, .mzero 4#7, .mscale 4#7,
      .mread 0#3 10#7 4#7, .mread 1#3 127#7 4#7, .mread 5#3 10#7 4#7], Solo (mAcc 1024 (tVal w)) i (tVal w) (tVal w) (mAcc 1024 (tVal w)))
    ∧ (mAcc 1024 t0).crew t0.crew = some c0 ∧ accIs (mAcc 1024 t0) (fun h => h.accBytes == 1024) = true ∧ TileWordOk 0 1024
    ∧ ¬ TileWordOk 0x8000000000 1024 ∧ 0x8000000000000000 / 2 ^ 56 = 128
    ∧ (1016 % 8 = 0 ∧ 1016 + 8 ≤ 1024 ∧ ¬ 1024 + 8 ≤ 1024 ∧ 4 % 8 ≠ 0)
    ∧ (∀ i ∈ [Instr.mswap, .mstat 0#1 10#7, .mzero 4#7, .mscale 4#7, .mread 0#3 10#7 4#7, .mnorm 16#7], Solo (mk t0) i t0 t0 (mk t0))
    ∧ accIs (mk t0) (fun h => h.accBytes == 0) = true := by
  refine ⟨fun w h i hi => ?_, by decide +kernel, by decide +kernel, ?_, ?_, by decide +kernel, by decide +kernel, solos (by decide +kernel), by decide +kernel⟩
  · simp only [List.mem_cons, List.not_mem_nil, or_false] at h
    rcases h with rfl | rfl | rfl | rfl | rfl | rfl <;> exact solos (by decide +kernel) i hi
  · unfold TileWordOk; decide +kernel
  · unfold TileWordOk; decide +kernel

/-- One row of F32 weights at the shortest pitch; a pitch below it; two rows; an infinite step; a norm bound of 0; a pair without a tag. -/
theorem witness_UpdateCommands :
    (∀ l ∈ [[0#64, 0#64, 512#64], [0#64, 0#64, 480#64], [0#64, 0x8000000000#64, 512#64], [0x7F800000#64, 0#64, 512#64], [0#64, 0#64, 0x8000200#64]],
      ∀ i ∈ [Instr.mnorm 16#7, .mdrain 16#7 1#1, .mnorm 4#7], Solo (mAcc 1024 (tGroup l)) i (tGroup l) (tGroup l) (mAcc 1024 (tGroup l)))
    ∧ TileWordOk 0 1024 ∧ (512 % 32 = 0 ∧ 128 * 4 ≤ 512 ∧ ¬ 128 * 4 ≤ 480) ∧ 0x7F800000 / 2 ^ 23 % 2 ^ 8 = 255 ∧ 0x8000200 / 2 ^ 27 % 2 = 1
    ∧ (let v := tGroup [0#64, 0#64, 512#64]
       v.tagAt 16#7 = true ∧ (v.capAt 16#7).has 3 = true ∧ (v.capAt 16#7).cursor % 32 = 0 ∧ (v.capAt 16#7).cursor + 512 ≤ (v.capAt 16#7).limit
         ∧ v.tagAt 18#7 = true ∧ (v.capAt 18#7).has 9 = true ∧ (v.capAt 18#7).cursor % 16 = 0 ∧ v.tagAt 4#7 = false) := by
  refine ⟨fun l h i hi => ?_, by unfold TileWordOk; decide +kernel, by decide +kernel⟩
  simp only [List.mem_cons, List.not_mem_nil, or_false] at h
  rcases h with rfl | rfl | rfl | rfl | rfl <;> exact solos (by decide +kernel) i hi

/-- The thread with an MLOAD group at g16: the pair, and a format word for FP8 rows at the shortest pitch. -/
def tLoad (x : BitVec 32) : Thread := { tGroup [] with regs := (tGroup []).regs.set 18 (reg 0x404#64), xmask := x }

theorem witness_MatrixCollectivesJoin : ∀ x ∈ [1#32, 0xFFFFFFFE#32], (mAcc 1024 (tLoad x)).crew t0.crew = some c0
    ∧ accIs (mAcc 1024 (tLoad x)) (fun h => decide (0 < h.accBytes)) = true
    ∧ Solo (mAcc 1024 (tLoad x)) (.mload 16#7) (tLoad x) (tLoad x) (mAcc 1024 (tLoad x))
    ∧ Solo (mAcc 1024 (tLoad x)) (.mstream 16#7) (tLoad x) (tLoad x) (mAcc 1024 (tLoad x))
    ∧ (tLoad x).xmask.getLsbD (tLoad x).lane = (x == 1#32) ∧ mloadCheck 16#7 (mAcc 1024 (tLoad x)) (tLoad x) = none := by
  intro x h
  simp only [List.mem_cons, List.not_mem_nil, or_false] at h
  rcases h with rfl | rfl <;> exact ⟨by decide +kernel, by decide +kernel, solo (by decide +kernel), solo (by decide +kernel), by decide +kernel⟩

/-- Lanes 0 and 1 at an MLOAD or MSTREAM with the words given. -/
def rdvOf (i : Instr) (p q : Word × Word × Word) : Rdv :=
  let j := fun (n : Nat) (p : Word × Word × Word) => ({ tid := n, a := reg p.1, b := reg p.2.1, c := reg p.2.2, bound := 0#64, d := none, flag := none } : RJoin)
  { id := 7, team := 0, pc := t0.pc, mask := 3#32, instr := i, joins := [j 0 p, j 1 q], born := 0, timer := 0, limit := 9 }

/-- Lanes that disagree; that agree on a word past its limit; that agree on a good one. -/
theorem witness_MatrixCollectivesVote :
    (∀ r ∈ [rdvOf (.mload 16#7) (capLo, capHi, 0x404#64) (capLo, capHi, 0x405#64), rdvOf (.mload 16#7) (capLo, capHi, 0x304#64) (0#64, capHi, 0x304#64),
        rdvOf (.mload 16#7) (capLo, capHi, 0x404#64) (capLo, capHi, 0x404#64), rdvOf (.mstream 16#7) (0#64, 0x40000000000080#64, 0#64) (0#64, 0x40000000000080#64, 0#64)],
      (mAcc 1024 t0).rdvComplete t0.crew r = true ∧ (r.joins.find? (fun j => r.joins.all (fun k => decide (j.tid ≤ k.tid)))) = r.joins.head?)
    ∧ (mAcc 1024 t0).crew t0.crew = some c0 ∧ ((mAcc 1024 t0).cohort c0.cohort).isSome = true
    ∧ fmtWordBad 0x304#64 = true ∧ fmtWordBad 0x404#64 = false ∧ streamBad 0#64 0x40000000000080#64 1024 1024 = none := by decide +kernel

/-- A command at the head of the crew's queue. -/
def cmdOf (i : Instr) (ws : List Word) (srcs : List (Nat × CapW)) : MCmd :=
  { id := 9, instr := i, born := 0, tid := 0, issuers := [(0, 9)], words := ws.map reg, srcs := srcs, bounds := [], dreg := some 10, fpmode := 0#4,
    phase := 0, done := 0 }

/-- An allotment whose tile 0 is live with one row and exponent 0, or holds nothing. -/
def accOf (live : Bool) : Memory := if live then Memory.empty.putBytes 0 (toBytes 8 0x40000) else Memory.empty

/-- The crew with a command. -/
def cCmd (m : MCmd) : Crew := { c0 with mq := [m] }

/-- The machine at cycle 5 with a command queued since cycle 0. -/
def mCmd (m : MCmd) (acc : Memory) : State :=
  let s := mkC (cCmd m) t0
  { s with cycle := 5, cohorts := s.cohorts.map (fun h => { h with accBytes := 1024, acc := acc }) }

/-- No command; each command that can start, with a live tile for MSTREAM. -/
theorem witness_MatrixEngineSteps : (nextServed (AList.get 0 0 (mk t0).matNext) ((mk t0).served 0 false)).isNone = true
    ∧ (∀ m ∈ [cmdOf .mswap [0#64] [], cmdOf (.mstat 1#1 10#7) [0#64] [], cmdOf (.mread 0#3 10#7 4#7) [1016#64] [], cmdOf (.mzero 4#7) [0#64] [],
        cmdOf (.mstream 4#7) [0#64, 0x40000000000080#64] []],
      nextServed (AList.get 0 0 (mCmd m (accOf true)).matNext) ((mCmd m (accOf true)).served 0 false) = some (cCmd m, m)
      ∧ accIs (mCmd m (accOf true)) (fun h => h.acc == accOf true) = true ∧ (mCmd m (accOf true)).crew (cCmd m).uid = some (cCmd m))
    ∧ (accOf true).wf = true ∧ (accOf true).anyPoison 1016 8 = false ∧ (accOf true).anyPoison 0 1024 = false
    ∧ (let m := cmdOf (.mstream 4#7) [0#64, 0x40000000000080#64] []
       ((mCmd m (accOf true)).scrSeen (cCmd m) m.id).anyPoison 0 128 = false)
    ∧ ((accOf true).readNat 0 8 / 2 ^ 18 % 2 = 1 ∧ (accOf true).readNat 0 8 / 2 ^ 8 % 2 ^ 10 + 1 = wordRows 0x40000000000080#64
        ∧ (accOf true).readNat 0 8 % 2 ^ 8 = 0x40000000000080 / 2 ^ 56 ∧ 0x40000000000080 / 2 ^ 49 % 8 = 0) := by decide +kernel

/-- The machine once its matrix engine, or its update unit, has turned to the command's crew. -/
def turn (update : Bool) (m : MCmd) (s : State) : State :=
  let at_ := fun l => AList.put 0 0 (32 * (cCmd m).core + (cCmd m).slot + 1) l
  if update then { s with updNext := at_ s.updNext } else { s with matNext := at_ s.matNext }

theorem witness_WeightLoads : let m := cmdOf (.mload 16#7) [capLo, capHi, 0x404#64] [(0, { lo := capLo, hi := capHi })]
    nextServed (AList.get 0 0 (mCmd m (accOf true)).matNext) ((mCmd m (accOf true)).served 0 false) = some (cCmd m, m)
      ∧ ((mCmd m (accOf true)).cohort (cCmd m).cohort).isSome = true
      ∧ (let l := State.readLanes 0 t0.crew m.id 0x404#64 m.srcs (turn false m (mCmd m (accOf true)))
         l.1.toOption.map (fun rs => decide (l.2.crew t0.crew = some (cCmd m) ∧ (rs.map (fun r => r.lane)).Nodup ∧ ∀ r ∈ rs, r.lane < 32 ∧ r.rows.length = 4 ∧ ∀ l ∈ r.rows, l.length = 128))) = some true
      ∧ (0x404#64).toNat / 2 ^ 4 % 8 = 0 := by decide +kernel

/-- A live tile and a new exponent; a tile that is not live. -/
theorem witness_TileRescale : let m := cmdOf (.mscale 4#7) [0x0100000000000000#64] []
    (∀ live : Bool, nextServed (AList.get 0 0 (mCmd m (accOf live)).matNext) ((mCmd m (accOf live)).served 0 false) = some (cCmd m, m)
      ∧ accIs (mCmd m (accOf live)) (fun h => h.acc == accOf live) = true ∧ (accOf live).wf = true)
    ∧ (accOf true).readNat 0 8 / 2 ^ 18 % 2 = 1 ∧ (accOf true).readNat 0 8 / 2 ^ 8 % 2 ^ 10 + 1 = wordRows 0x0100000000000000#64
    ∧ (accOf true).anyPoison 0 1024 = false ∧ toSigned 8 (0x0100000000000000 / 2 ^ 56) - toSigned 8 ((accOf true).readNat 0 8 % 2 ^ 8) ≠ 0
    ∧ (accOf false).readNat 0 8 / 2 ^ 18 % 2 = 0 := by decide +kernel

/-- An update command over the 4 KiB at 0x80000, whose norm cells, after its one row of weights, are there as given. -/
def mUpd (i : Instr) (wn2 : Nat) : MCmd × State :=
  let cap : CapW := { lo := capLo, hi := capHi }
  let m := cmdOf i [capLo, capHi, capLo, capHi, 0#64, 0#64, 512#64] [(0, cap), (1, { lo := 0x80200FF#64, hi := capHi })]
  let s := mCmd m (accOf true)
  (m, { s with mem := s.mem.putBytes 0x80200 (toBytes 4 wn2) })

/-- What the claim asks of a command of the update unit: its rows are read and its norm cells found, without poison; for MDRAIN its rows are
mapped for a store as well. -/
def updGoes (q : MCmd × State) : Bool :=
  let runs := (weightRuns 0#64 512#64).map (fun r => (0x80000 + r.1, r.2))
  let good := fun (s : State) => decide (s.crew (cCmd q.1).uid = some (cCmd q.1)) && accIs s (fun h => h.acc == accOf true)
  let s1 := turn true q.1 q.2
  match q.1.instr with
  | .mnorm _ =>
    match State.cmdReadAll 0 t0.crew q.1.id runs s1 with
    | (.ok _, s2) =>
      match s2.devMap 0 .atomic 0x80200 8 with
      | (.ok cl, s3) => decide (s3.segPoison cl = none) && good s3
      | _ => false
    | _ => false
  | _ =>
    match s1.devMap 0 .load 0x80200 8 with
    | (.ok cl, s2) =>
      decide (s2.segPoison cl = none) && good s2 && ((cellBad (ofBytes ((s2.segBytes cl).take 4)) && !cellBad (ofBytes ((s2.segBytes cl).drop 4)))
        || (match State.cmdReadAll 0 t0.crew q.1.id runs s2 with
          | (.ok _, s3) =>
            match State.mapRows 0 .store runs s3 with
            | (.ok _, s4) => good s4 && !uwAbsmax 512#64
            | _ => false
          | _ => false))
    | _ => false

/-- No command; MNORM, MDRAIN with a NaN in a cell, and MDRAIN with cells of 1.0 and 0, whose rows and cells are mapped. -/
theorem witness_UpdateUnitSteps : (nextServed (AList.get 0 0 (mk t0).updNext) ((mk t0).served 0 true)).isNone = true
    ∧ (∀ p ∈ [(Instr.mnorm 16#7, 0), (.mdrain 16#7 1#1, 0x7FC00000), (.mdrain 16#7 0#1, 0x3F800000)],
      let q := mUpd p.1 p.2
      nextServed (AList.get 0 0 q.2.updNext) (q.2.served 0 true) = some (cCmd q.1, q.1)
        ∧ q.1.ready = false ∧ accIs q.2 (fun h => h.acc == accOf true) = true ∧ updGoes q = true
        ∧ (accOf true).anyPoison 0 1024 = false
        ∧ cellBad (q.2.mem.readNat 0x80200 4) = (p.2 == 0x7FC00000) ∧ cellBad (q.2.mem.readNat 0x80204 4) = false) := by decide +kernel
/-! ### Witnesses: tasks -/

/-- Put words into device memory. -/
def putWords (m : Memory) (a : Nat) (ws : List Nat) : Memory := m.putBytes a (ws.flatMap (toBytes 8))

/-- The first word of a region entry of buffer 1. -/
def regionWord (kind off : Nat) : Nat := kind * 2 ^ 62 + 2 ^ 50 + off

/-- A launch packet, a copy descriptor, port descriptors of a host ring and a peer, a core mask, a rotation header, a pager descriptor and
a context descriptor, from 0x88000 on, 4 KiB apart. -/
def seqMemory : Memory :=
  let m := m0.mem
  let m := putWords m 0x88000 [probeLaunch.code.lo.toNat, 0xFF, 0, 0, 15 * 2 ^ 40, 0, 0, 0]
  let m := putWords m 0x89000 [regionWord 0 0, 64, regionWord 2 2048, 64]
  let m := putWords m 0x8A000 [0x100000, 12, 0x80000, 0x80008, 0]
  let m := putWords m 0x8B178 [2 ^ 63]
  let m := putWords m 0x8C000 [0, 0]
  let m := putWords m 0x8D000 [0x10000, 0x20000, 0x40001]
  putWords m 0x8E000 [0x1000, 4, capLo.toNat, capHi.toNat, 0, 0, 0, 0, 0, 0, 0x10000, 0]

/-- Buffer 1, 4 KiB at 0x80000. -/
def buf1 : LBuf := { n := 1, size := 4096, lobj := false, ver := { va := 0x80000, cls := 0, lobj := false } }

/-- The machine whose context has an empty window, buffer 1, a free block of each of two sizes and quotas; f changes the context. -/
def mSeq (f : Ctx → Ctx) : State :=
  let s := inCtx (fun x => f { x with window := [], map := [buf1], rmap := [buf1],
                                      free := (List.range 20).map (fun k => { va := 0x90000 + 65536 * k, cls := k, lobj := false }) }) (mk t0)
  { s with mem := seqMemory, parts := s.parts.map (fun p => { p with lq := 961#64, cq := 8#64 }) }

/-- A slot. -/
def slotOf (flags : BitVec 8) (a : Nat) (b c d : Nat) : TaskSlot :=
  { flags := flags, a := BitVec.ofNat 32 a, b := BitVec.ofNat 64 b, c := BitVec.ofNat 64 c, d := BitVec.ofNat 64 d }

/-- What `Accepts` asks, and a test of the context. -/
def acceptsOk (s : State) (i : Instr) (p : Ctx → Bool) : Bool :=
  match i.task, s.ctx s.seqCtx with
  | some (op, sl), some x => i.wf && (x.task s.nextUid).isNone && x.canAccept && !s.slotIllegal x op sl
      && !sl.flags.getLsbD 0 && !sl.flags.getLsbD 1 && p x
  | _, _ => false

theorem accepts_of {s : State} {i : Instr} {p : Ctx → Bool} (h : acceptsOk s i p = true) :
    ∃ x op sl, Accepts s i x op sl ∧ p x = true := by
  unfold acceptsOk at h
  cases ht : i.task with
  | none => rw [ht] at h; cases h
  | some q =>
    cases hc : s.ctx s.seqCtx with
    | none => rw [ht, hc] at h; cases h
    | some x =>
      rw [ht, hc] at h
      simp only [Bool.and_eq_true, Bool.not_eq_true', Option.isNone_iff_eq_none] at h
      obtain ⟨⟨⟨⟨⟨⟨h1, h2⟩, h3⟩, h4⟩, h5⟩, h6⟩, h7⟩ := h
      exact ⟨x, q.1, q.2, ⟨ht, h1, hc, h2, h3, h4, h5, h6⟩, h7⟩

/-- Whether the window of a state s has made its writes of `ACCEPT` once it holds the task of a slot, read in state s0, with these words. -/
def paidAt (s0 s : State) (i : Instr) (ws : List Word) : Bool :=
  match i.task, s0.ctx s0.seqCtx with
  | some (op, sl), some x => (s.enterTask s0.seqCtx { Accepts.entry s0 x op sl with words := ws }).paid s0.seqCtx
  | _, _ => false

/-- Whether a cell reads as v. -/
def cellIs (s : State) (x : Ctx) (w : Word) (p : Word → Bool) : Bool :=
  match s.readCell x w with
  | .ok v _ => p v
  | _ => false

/-- Whether a window read gives bytes that pass a test, with the state after. -/
def winIs (s : State) (va n : Nat) (p : List Byte → State → Bool) : Bool :=
  match s.winRead 0 va n with
  | (.ok bs, t) => p bs t
  | _ => false

/-- A context that may not accept; slots that break their layout, or whose region or cell does, or are not allowed; predicates not met by the
cells at 0x80000 and at the code; the next slot of the ring; a ring slot whose `ACCEPT` can be written. -/
theorem witness_TaskAcceptance :
    ctxIs (mSeq (fun x => { x with faulted := true })) (fun x => !x.canAccept && (x.task m0.nextUid).isNone) = true
    ∧ (Instr.tnop (slotOf 0#8 1 0 0 0)).wf = false ∧ ctxIs (mSeq (fun x => { x with priv := false })) (fun x => x.canAccept && !x.priv) = true
    ∧ ctxIs (mSeq id) (fun x => x.canAccept && cellIs (mSeq id) x 0x8000000000080000#64 (fun v => v == 0#64)
        && cellIs (mSeq id) x 0x8000000000040000#64 (fun v => v != 0#64) && ((mSeq id).slotWords x).1.isSome) = true
    ∧ (Instr.tnop (slotOf 1#8 0 0 0 0x8000000000080000)).wf = true ∧ (Instr.tnop (slotOf 2#8 0 0 0 0x8000000000040000)).wf = true
    ∧ bufferSide (regionWord 0 0) 4096 [1, 2] = none ∧ decodeCell 0x8000000000080004#64 = none
    ∧ decodeCell 0x8000000000080008#64 = some (.addr 0x80008) ∧ 0x80008 % 16 ≠ 0
    ∧ (let u := (ctxOfDesc 0 0 0 (List.replicate 16 0#64)).newTask m0.nextUid 0 (slotOf 0#8 0 0 0 0)
       u.ringIdx = some 0 ∧ ctxIs (mSeq id) (fun x => x.owed.isEmpty
        && ((({ mSeq id with nextUid := m0.nextUid + 1 } : State).modCtx 0 (fun x => { x with
             window := x.window ++ [u], accept := u.after, map := u.afterMap })).engMap 0 .store x.stream 8).1.toOption.isSome) = true) := by
  decide +kernel

/-- In a procedure; two calls deep eight times; at the top. -/
def inProc (n : Nat) (x : Ctx) : Ctx := { x with accept := { x.accept with frames := List.replicate n 0x40000, ks := x.accept.ks.set 15 1#64 } }

/-- Each task inside a procedure, and where it is illegal: outside one, eight deep, a defined buffer, an undefined one. -/
theorem witness_StreamControlTasks :
    (∀ p ∈ [(1, Instr.tnop (slotOf 0#8 0 0 0 0)), (1, .tsetk (slotOf 0#8 15 7 0 0)), (1, .tsetk (slotOf 8#8 15 0x8000000000080000 0 0)),
        (1, .taddk (slotOf 0#8 15 7 0 0)), (1, .tbr (slotOf 0#8 1 0 0 0)), (0, .tbr (slotOf 0#8 1 0 0 0)),
        (1, .tbrc (slotOf 0#8 1 0x8000000000080000 0 0)), (1, .tbrc (slotOf 8#8 1 0x8000000000080000 0 0)), (0, .tbrc (slotOf 0#8 1 0 0 0)),
        (1, .tbrk (slotOf 0#8 1 15 0 0)), (1, .tbrk (slotOf 0#8 1 0 0 0)), (0, .tbrk (slotOf 0#8 1 15 0 0)), (7, .tcall (slotOf 0#8 0 0x80000 0 0)),
        (8, .tcall (slotOf 0#8 0 0x80000 0 0)), (1, .tretTask (slotOf 0#8 0 0 0 0)), (0, .tretTask (slotOf 0#8 0 0 0 0)),
        (0, .tbuf (slotOf 0#8 2 4096 0 0)), (0, .tbuf (slotOf 0#8 1 4096 0 0)), (0, .tdrop (slotOf 0#8 1 0 0 0)),
        (0, .tdrop (slotOf 0#8 2 0 0 0))], ∃ x op sl, Accepts (mSeq (inProc p.1)) p.2 x op sl ∧ (x.accept.frames.length == p.1) = true)
    ∧ ctxIs (mSeq (inProc 1)) (fun x => cellIs (mSeq (inProc 1)) x 0x8000000000080000#64 (fun v => condHolds 64 0 v.toNat 0 && !condHolds 64 1 v.toNat 0)
        && x.accept.ks.getD 15 0#64 == 1#64 && x.accept.ks.getD 0 0#64 == 0#64) = true
    ∧ ((mSeq id).freshVersion 0 4096 false).1.isSome = true ∧ ctxIs (mSeq id) (fun x => lbufOf x.map 1 == some buf1 && (lbufOf x.map 2).isNone) = true
    ∧ (mSeq id).isPagerQueue 0 1 = false := by
  refine ⟨fun p h => accepts_of (p := fun x => x.accept.frames.length == p.1) ?_, by decide +kernel⟩
  revert p h; decide +kernel

/-- A raw region of buffer 1. -/
def raw1 (kind off n : Nat) : RawRegion := { kind := kind, lb := 1, d2 := false, off := off, rows := 1, rowb := n, pitch := n }

/-- An extent that ends with the buffer, and one byte more; a read and a write that share a byte. -/
theorem witness_RegionsAndDependence : (resolveRegions [buf1] [raw1 0 4032 64]).isSome = true ∧ resolveRegions [buf1] [raw1 0 4032 65] = none
    ∧ ((region0 0).kind < 4 ∧ (region0 3).kind < 4 ∧ (region0 0).d2 = false ∧ (region0 0).rows = 1 ∧ 0 < (region0 0).rowb) := by decide +kernel

/-- Whether undo versions can be made of no region, or of one whose free block is the only one of its size. -/
def drawOk (s : State) (c : Nat) (rs : List Region) : Bool :=
  match rs with
  | [] => true
  | [r] =>
    match s.ctx c with
    | none => false
    | some x =>
      match x.free.filter (fun w => w.cls == r.undoClass) with
      | [v] => (State.copyRuns c r.ver.va v.va r.undoBase r.granuleRows (({ s with freeCtr := s.freeCtr + 1 } : State).modCtx c
          (fun x => { x with free := (takeFirst (· == v) x.free).elim x.free (fun r => r.2) }))).1.toOption.isSome
      | _ => false
  | _ => false

theorem drawn {s : State} {c : Nat} {rs : List Region} (h : drawOk s c rs = true) : ∃ u t, State.drawUndo c rs [] s = (.ok u, t) := by
  unfold drawOk at h
  split at h
  · exact ⟨[], s, rfl⟩
  · next r =>
    split at h
    · cases h
    · next x hx =>
      split at h
      · next v hf =>
        have hd : s.drawBlock c r.undoClass = (some v, ({ s with freeCtr := s.freeCtr + 1 } : State).modCtx c
            (fun x => { x with free := (takeFirst (· == v) x.free).elim x.free (fun r => r.2) })) := by
          unfold State.drawBlock State.choose
          rw [hx]
          simp only [hf, List.length_nil, Nat.zero_add, Nat.mod_one, List.getD_cons_zero]
        simp only [State.drawUndo, hd]
        generalize State.copyRuns _ _ _ _ _ _ = q at h ⊢
        obtain ⟨e, t⟩ := q
        cases e with
        | error e => cases h
        | ok a => exact ⟨_, t, rfl⟩
      · cases h
  · cases h

/-- Whether a task is accepted, and its undo versions can be made. -/
def issuesOk (s : State) (i : Instr) : Bool :=
  match i.task, s.ctx s.seqCtx with
  | some (op, sl), some x =>
    match acceptBody op sl s x (Accepts.entry s x op sl) with
    | .ok u s2 => (s2.enterTask s.seqCtx u).paid s.seqCtx && drawOk (s2.enterTask s.seqCtx u) x.num (if u.replayable then u.regions.filter (fun r => r.inPlace) else [])
    | _ => false
  | _, _ => false

/-- A launch; a fill, a stamp and a copy that change a part of buffer 1 in place, whose undo version is made. -/
theorem witness_LaunchAndCopyTasks :
    ∀ i ∈ [Instr.tlaunch (slotOf 0#8 0 0x88000 0 0), .tfill (slotOf 0#8 7 (regionWord 2 0) 64 0),
        .tstamp (slotOf 0#8 0 (regionWord 2 0) 64 0), .tcopy (slotOf 0#8 0 0x89000 0 0)],
      (∃ x op sl, Accepts (mSeq id) i x op sl ∧ decide (x.window = []) = true) ∧ issuesOk (mSeq id) i = true := by
  intro i h
  refine ⟨accepts_of (p := fun x => decide (x.window = [])) ?_, ?_⟩ <;> (revert i h; decide +kernel)

/-- A task of the window, older than none. -/
def taskOf0 (op : Nat) (sl : TaskSlot) (stat : TaskStat) (f : Option TFault) : Task :=
  let x := ctxOfDesc 0 0 0 (List.replicate 16 0#64)
  { x.newTask 77 op sl with stat := stat, fault := f, words := [0x80000#64] }

/-- A machine whose window holds these tasks. -/
def mWin (l : List Task) : State := mSeq (fun x => { x with window := l })

/-- Tasks that may issue, and one that holds a fault. -/
theorem witness_TaskIssue :
    (∀ op ∈ [0x03, 0x05, 0x06], ctxIs (mWin [taskOf0 op (slotOf 0#8 0 0 0 0) .waiting none]) (fun x => !x.faulted && x.unitRuns .window && x.owed.isEmpty
        && (x.window.takeWhile (fun y => y.uid != 77)).isEmpty && x.task 77 == some (taskOf0 op (slotOf 0#8 0 0 0 0) .waiting none)) = true
      ∧ (State.drawUndo 0 (if (taskOf0 op (slotOf 0#8 0 0 0 0) .waiting none).replayable then [] else []) []
          (mWin [taskOf0 op (slotOf 0#8 0 0 0 0) .waiting none])).1.toOption.isSome = true)
    ∧ (taskOf0 0x03 (slotOf 0#8 0 0 0 0) .waiting (some { code := 0x20, sub := 0, detail := 0 })).fault ≠ none := by decide +kernel

/-- TSIG, TMARK, TWAITV of an address cell, TFENCE; a waiting TWAITV whose cell holds 0, before its timeout and past it. -/
theorem witness_SignalsMarksAndWaits :
    (∀ i ∈ [Instr.tfence (slotOf 0#8 0 0 0 0), .tsig (slotOf 0x10#8 2047 0x8000000000080000 1 0), .tmark (slotOf 0#8 0 0x8000000000080000 1 0),
        .twaitv (slotOf 0#8 4 0x8000000000080000 0 0)], ∃ x op sl, Accepts (mSeq id) i x op sl
          ∧ (decide (x.window = []) && paidAt (mSeq id) (mSeq id) i [] && paidAt (mSeq id) (mSeq id) i [0x80000#64]) = true)
    ∧ (decodeCell 0x8000000000080000#64).bind (cellVa [buf1] 16) = some 0x80000 ∧ (decodeCell 0x8000000000080000#64).bind (cellVa [buf1] 8) = some 0x80000
    ∧ (let k := taskOf0 0x0B (slotOf 0#8 4 0x8000000000080000 0 0) .issued none
       ctxIs (mWin [k]) (fun x => x.task 77 == some k && x.unitRuns .window) = true ∧ (mWin [k]).now ≤ k.t0 + k.slot.a.toNat ∧ k.seen = none ∧ k.lastRead = false
         ∧ { k with lastRead := true }.lastRead = true
         ∧ winIs (mWin [k]) (k.word 0) 8 (fun bs _ => condHolds 64 0 (ofBytes bs) 0) = true
         ∧ k.slot.a ≠ 0 ∧ k.t0 + k.slot.a.toNat < ({ mWin [k] with now := 5 } : State).now) := by
  refine ⟨fun i h => accepts_of (p := fun x => decide (x.window = []) && paidAt (mSeq id) (mSeq id) i []
    && paidAt (mSeq id) (mSeq id) i [0x80000#64]) ?_, by decide +kernel⟩
  revert i h; decide +kernel

/-- Each of the setting tasks with the descriptor that it reads: ports of kinds 0, 2 and 1; the last core of the partition; the whole lease
quota; a table of no slots; a pager of a range, registered and ended. Each may issue at once, and the positions of the ports can be zeroed. -/
theorem witness_SettingTasks :
    (∀ i ∈ [Instr.tport (slotOf 0#8 5 0 0 0), .tport (slotOf 0#8 0x20005 0 0x8C000 0), .tport (slotOf 0#8 0x10005 0 0x8A000 0),
        .tport (slotOf 0#8 0x3003F 0 0x8A000 0), .tscope (slotOf 0#8 31 0x8B000 0 0), .tlease (slotOf 0#8 0x3F0001 0 0 0),
        .trotate (slotOf 0#8 0 0x8C000 0 0), .tpagerRegister (slotOf 0#8 0x00001 0x8D000 0 0)],
        ∃ x op sl, Accepts (mSeq id) i x op sl ∧ decide (x.window = []) = true)
    ∧ (∀ i ∈ [Instr.tport (slotOf 0#8 5 0 0 0), .tlease (slotOf 0#8 0x3F0001 0 0 0)], paidAt (mSeq id) (mSeq id) i [] = true)
    ∧ winIs (mSeq id) 0x8A000 64 (fun bs s => portDescOk 1 (wordsOf bs) && portDescOk 3 (wordsOf bs)
        && [(Instr.tport (slotOf 0#8 0x10005 0 0x8A000 0), 2), (.tport (slotOf 0#8 0x3003F 0 0x8A000 0), 3)].all (fun p =>
          paidAt (mSeq id) s p.1 (wordsOf bs) && (match p.1.task, (mSeq id).ctx 0 with
            | some (op, sl), some x => ((s.enterTask 0 { Accepts.entry (mSeq id) x op sl with words := wordsOf bs }).engWrite 0
                ((wordsOf bs).getD p.2 0#64).toNat (toBytes 8 0) (fun _ => sTimeless)).1.toOption.isSome
            | _, _ => false))) = true
    ∧ winIs (mSeq id) 0x8C000 64 (fun bs s => paidAt (mSeq id) s (.tport (slotOf 0#8 0x20005 0 0x8C000 0)) (wordsOf bs)
        && paidAt (mSeq id) s (.trotate (slotOf 0#8 0 0x8C000 0 0)) (wordsOf bs) && portDescOk 2 (wordsOf bs) && ofBytes ((bs.drop 8).take 8) % 2 ^ 5 == 0 && bs.length == 64
        && (decodeRotation (mSeq id).devid bs []).isSome && decide (961 ≤ (s.part 0).lq.toNat)) = true
    ∧ winIs (mSeq id) 0x8B000 384 (fun bs s => paidAt (mSeq id) s (.tscope (slotOf 0#8 31 0x8B000 0 0)) (wordsOf bs)
        && ((wordsOf bs).getD 47 0#64).getLsbD 63 && (s.part 0).dies.getLsbD (3071 / 384)) = true
    ∧ winIs (mSeq id) 0x8D000 64 (fun bs s => pagerDescOk 1 (wordsOf bs)
        && paidAt (mSeq id) s (.tpagerRegister (slotOf 0#8 0x00001 0x8D000 0 0)) (wordsOf bs)) = true
    ∧ (mSeq id).agreed 1 = true ∧ (mSeq id).agreed 2 = true ∧ (mSeq id).agreed 3 = true ∧ 1 ≠ (mSeq id).devid
    ∧ ctxIs (mSeq id) (fun x => x.pagers.isEmpty && lbufOf x.rmap 1 == some buf1) = true ∧ 32 * 2 ^ 4 ≤ buf1.size
    ∧ (let p : Pager := { p := 1, base := 0x10000, limit := 0x20000, sctx := 0, qlb := 1, logq := 4, next := 0, recs := [], waiting := [] }
       (∃ x op sl, Accepts (mSeq (fun x => { x with pagers := [p] })) (.tpagerUnregister (slotOf 0#8 0x00011 0 0 0)) x op sl ∧ decide (x.window = []) = true)
         ∧ paidAt (mSeq (fun x => { x with pagers := [p] })) (mSeq (fun x => { x with pagers := [p] })) (.tpagerUnregister (slotOf 0#8 0x00011 0 0 0)) [] = true
         ∧ [p].find? (fun q => q.p == 0x11 % 2 ^ 4) = some p) := by
  refine ⟨fun i h => accepts_of (p := fun x => decide (x.window = [])) ?_, by decide +kernel, by decide +kernel, by decide +kernel, by decide +kernel,
    by decide +kernel, by decide +kernel, by decide +kernel, by decide +kernel, by decide +kernel, by decide +kernel, by decide +kernel,
    accepts_of (by decide +kernel), by decide +kernel⟩
  revert i h; decide +kernel

/-- The machine with a second context of the partition. -/
def mTwo (f : Ctx → Ctx) : State := let s := mSeq id; { s with ctxs := s.ctxs ++ s.ctxs.map (fun x => f { x with num := 1 }) }

/-- Creation of a context of a free number; each operation on another context in each of its conditions, on the issuing one, on none. -/
theorem witness_ContextTasks :
    (∀ i ∈ [Instr.tctxCreate (slotOf 0#8 0x3F00 0x8E000 0 0), .tctxSetPriority (slotOf 0#8 0x104 7 0 0), .tctxDestroy (slotOf 0#8 0x101 0 0 0),
        .tctxDestroy (slotOf 0#8 0x001 0 0 0), .tctxHalt (slotOf 0#8 0x102 0 0 0), .tctxResume (slotOf 0#8 0x103 0 0 0),
        .tctxHalt (slotOf 0#8 0x002 0 0 0), .tctxSetPriority (slotOf 0#8 0x3F04 0 0 0)], ∃ x op sl, Accepts (mTwo id) i x op sl
          ∧ (decide (x.window = []) && paidAt (mTwo id) (mTwo id) i [] && !x.halted && !x.saved) = true)
    ∧ winIs (mTwo id) 0x8E000 128 (fun bs s => s.descOk 0 (wordsOf bs)
        && paidAt (mTwo id) s (.tctxCreate (slotOf 0#8 0x3F00 0x8E000 0 0)) (wordsOf bs)) = true ∧ (mTwo id).ctx 63 = none ∧ (mTwo id).partOpen 0 = true
    ∧ ((mTwo id).homeFor 0).isSome = true
    ∧ (∀ f ∈ [(fun x => { x with saved := true } : Ctx → Ctx), fun x => { x with halted := true }, id],
        (∀ i ∈ [Instr.tctxDestroy (slotOf 0#8 0x101 0 0 0), .tctxHalt (slotOf 0#8 0x102 0 0 0), .tctxResume (slotOf 0#8 0x103 0 0 0)],
          ∃ x op sl, Accepts (mTwo f) i x op sl ∧ (decide (x.window = []) && paidAt (mTwo f) (mTwo f) i []) = true)
        ∧ ((mTwo f).ctx 1).map (fun y => (y.part, y.stop.isNone, y.faulted, y.dhalt)) = some (0, true, false, false)) := by
  refine ⟨fun i h => accepts_of (p := fun x => decide (x.window = []) && paidAt (mTwo id) (mTwo id) i [] && !x.halted && !x.saved) ?_,
    by decide +kernel, by decide +kernel, by decide +kernel, by decide +kernel, ?_⟩
  · revert i h; decide +kernel
  · intro f h
    simp only [List.mem_cons, List.not_mem_nil, or_false] at h
    rcases h with rfl | rfl | rfl <;>
      exact ⟨fun i h => accepts_of (p := fun x => decide (x.window = []) && paidAt (mTwo _) (mTwo _) i []) (by revert i h; decide +kernel),
        by decide +kernel⟩
/-! ### Witnesses: retirement, faults, ports and the pool -/

/-- Whether an engine can reach n bytes. -/
def mapsOk (s : State) (k : AccKind) (va n : Nat) : Bool := (s.engMap 0 k va n).1.toOption.isSome

/-- Whether a ring read gives bytes that pass a test. -/
def ringIs (s : State) (va n : Nat) (p : List Byte → Bool) : Bool :=
  match (s.engRead 0 va n).1 with
  | .ok q => p q.1
  | .error _ => false

/-- A complete task with staged effects. -/
def taskDone (g : List StagedKind) : Task :=
  { taskOf0 0x0C (slotOf 0#8 0 0x8000000000080000 1 0) .complete none with staged := g.map (fun k => { seq := 0, progress := 0, kind := k }) }

/-- The same machine, with a valid journal of the task at its head. -/
def mJournal (l : List Task) : State := mSeq (fun x => { x with window := l, journal := some (77, 1) })

/-- A machine whose save area and stream lie in a page that is changing its bias. -/
def mTurning (l : List Task) : State :=
  let s := mSeq (fun x => { x with window := l, save := 0x80000 })
  { s with hl := { s.hl with flips := [{ page := 0x80, toHost := true, snoops := [], commanded := false }] } }

/-- A task that retires, with each kind of staged effect; one whose journal must wait; contexts and tasks that do not let it. -/
theorem witness_TaskRetirement :
    (∀ g ∈ [[], [StagedKind.signal 0x80FF8 1#64 false (some 2047)], [.mark 0x80FF0 1#64], [.destroySelf]],
        ctxIs (mJournal [taskDone g]) (fun x => !x.faulted && x.unitRuns .window && x.window == [taskDone g] && x.dropWrite.isNone
            && x.owed.isEmpty && decide (x.journal.map (fun j => j.1) = some 77))
          && ((mJournal [taskDone g]).beginRetire 0 (taskDone g)).paid 0 && decide ((taskDone g).stat = .complete) && decide ((taskDone g).fault = none) = true)
    ∧ (let t := taskDone [.mark 0x80FF0 1#64]
       let b := (mJournal [t]).beginRetire 0 t
       mapsOk b .store 0x80FF8 8 = true ∧ mapsOk b .store 0x80FF0 16 = true)
    ∧ (ctxIs (mTurning [taskDone []]) (fun x => x.owed.isEmpty && x.journal.isNone && x.unitRuns .window && !x.faulted) = true
        ∧ ((mTurning [taskDone []]).beginRetire 0 (taskDone [])).paid 0 = false)
    ∧ ctxIs (mSeq (fun x => { x with window := [taskDone []], faulted := true })) (fun x => x.faulted) = true
    ∧ ctxIs (mSeq (fun x => { x with window := [taskDone []], halted := true })) (fun x => !x.unitRuns .window) = true
    ∧ (taskOf0 0x03 (slotOf 0#8 0 0 0 0) .issued none).stat ≠ .complete := by decide +kernel

/-- A fault of the window's oldest task. -/
def taskFailed (code : Nat) (flags : BitVec 8) : Task :=
  { taskOf0 0x04 (slotOf flags 0 0 0 0) .issued (some { code := code, sub := 0, detail := 0 }) with regions := [region0 0] }

/-- A fault of another code, a freshness fault without producers, and one with a producer and one replay allowed. -/
theorem witness_TaskFaults :
    (∀ code ∈ [0x20, 0x26], ctxIs (mWin [taskFailed code 0#8]) (fun x => !x.faulted && x.stop.isNone && x.owed.isEmpty && x.unitRuns .window
        && x.window == [taskFailed code 0#8] && x.pendCtl.isEmpty && (x.producers (taskFailed code 0#8)).isEmpty) = true
      ∧ (taskFailed code 0#8).fault = some { code := code, sub := 0, detail := 0 }
      ∧ (let q := (mWin [taskFailed code 0#8]).squashWindow 0
         ctxIs q (fun y => y.owed.isEmpty
           && mapsOk (q.setCtx { y with faulted := true, journal := none, recovering := false }) .store y.faultAddr 32) = true))
    ∧ ctxIs (mSeq (fun x => { x with window := [taskFailed 0x26 0#8], ctl := 0x100#64, kept := [((region0 0).ver, taskDone [])] }))
        (fun x => (taskFailed 0x26 0#8).replayable && x.stop.isNone && x.owed.isEmpty && !(x.producers (taskFailed 0x26 0#8)).isEmpty && x.pendCtl.isEmpty
          && decide ((taskFailed 0x26 0#8).replays < x.ctl.toNat / 2 ^ 8 % 2 ^ 4)) = true
    ∧ ctxIs (mSeq (fun x => { x with window := [taskFailed 0x20 0#8], faulted := true })) (fun x => x.faulted) = true
    ∧ (taskDone []).fault = none := by decide +kernel

/-- A launch whose records go out at once, and one whose wait for its retirement. -/
def taskSends (imm : Bool) (stat : TaskStat) : Task :=
  { taskOf0 0x03 (slotOf 0#8 0 0 0 0) stat none with launch := some { probeLaunch with imm := imm } }

/-- A copy from port 5, which holds a piece. -/
def taskTakes : Task :=
  { taskOf0 0x04 (slotOf 0#8 0x20000005 0 0 0) .issued none with
    regions := [region0 1] }

/-- The port, with that piece left over, or given back. -/
def port5 (back : Bool) : Port :=
  let l := [[(1#8, some 0#32), (2#8, some 0#32)]]
  { n := 5, kind := 3, bound := 0#64, desc := [], prod := 0, cons := 0, remainder := if back then [] else l, back := if back then l else [] }

/-- A pool ring at 0x8F000 whose entry 0 has TAG 1 and a block of class 25, the largest. -/
def mPool : State := let s := mSeq (fun x => { x with stream := 0x8F000 - 0x120, logs := 0, poolIdx := 0 })
  { s with mem := putWords s.mem 0x8F000 [1, 2 ^ 37 + 25] }

theorem witness_PortsAndPool :
    (∀ q ∈ [(true, TaskStat.issued), (false, .complete), (false, .issued)], let t := taskSends q.1 q.2
        ctxIs (mJournal [t]) (fun x => x.unitRuns .window && !x.faulted && x.owed.isEmpty && ((mJournal [t]).beginRetire 0 t).paid 0
          && x.window.head? == some t && x.task t.uid == some t
          && decide ((x.window.map (fun k => k.uid)).Nodup)) = true ∧ t.fault = none)
    ∧ [1#8].length = [0#32].length
    ∧ ctxIs mPool (fun x => !x.saved && ringIs mPool x.poolAddr 16 (fun bs => ofBytes (bs.take 8) == (x.poolIdx + 1) % 2 ^ 64
        && (poolBlock (ofBytes (bs.drop 8))).any (fun v => v.cls == 25 && decide (x.ownedOf v.cls < 2 ^ 20)))) = true
    ∧ ctxIs (mSeq (fun x => { x with window := [taskTakes], ports := [port5 false] })) (fun x => x.unitRuns .window && x.task 77 == some taskTakes
        && x.port taskTakes.cport == some (port5 false)) = true ∧ (port5 false).back = []
    ∧ (let t := { taskTakes with order := 77 }
       ctxIs (mSeq (fun x => { x with window := [t], ports := [port5 true] })) (fun x => x.task 77 == some t && x.port t.cport == some (port5 true)) = true
         ∧ t.order = t.uid ∧ t.wants = 64)
    ∧ (taskTakes.op = 4 ∧ taskTakes.srck = 2 ∧ taskTakes.stat = .issued ∧ taskTakes.fault = none ∧ taskTakes.wants = 64) := by decide +kernel
/-! ### Witnesses: scheduling -/

/-- The machine at cycle 5. -/
def mFive (f : State → State) : State := f { mk t0 with cycle := 5 }

theorem witness_CrewsAndThreadsAtStart : 2 ≤ probeLaunch.regs ∧ probeLaunch.regs % 2 = 0 ∧ 2 ≤ ({ probeLaunch with regs := 2 } : Launch).regs
    ∧ ({ probeLaunch with regs := 2 } : Launch).regs % 2 = 0 := by decide +kernel

/-- The machine whose cohort is admitted and has not started, on an island that is up or down. -/
def mStart (on : Bool) : State := mFive (fun s => { s with
  cohorts := s.cohorts.map (fun h => { h with started := none }), islands := s.islands.map (fun i => { i with on := on }) })

/-- The machine whose thread has exited, with copies of its crew under other numbers. -/
def mOver (more : List Nat) (st : TState) : State :=
  let s := mk { t0 with st := st }
  { s with crews := s.crews ++ more.map (fun n => { c0 with uid := n }) }

theorem witness_StartReleaseAndIslands :
    ((mStart true).nextStart 0).isSome = true ∧ ((mStart true).cohort c0.cohort).isSome = true ∧ (mStart true).nextStart 0 = (mStart true).cohort c0.cohort
    ∧ (mStart false).nextStart 0 = none ∧ ((mStart false).cohort c0.cohort).isSome = true
    ∧ (∀ s ∈ [mOver [] .exited, mOver [99] .exited, mOver [] .running], s.crew t0.crew = some c0 ∧ (s.cohort c0.cohort).isSome = true
        ∧ (s.ctx c0.ctx).isSome = true ∧ c0.mq = [] ∧ s.engines = [] ∧ (s.cohort c0.cohort).all (fun k => !k.saved) = true)
    ∧ (mOver [] .exited).threads.all (fun t => t.st == .exited) = true ∧ (mOver [99] .exited).crews.any (fun d => d.uid == 99 && d.cohort == c0.cohort) = true
    ∧ (mStart false).island 0 = { (mStart false).island 0 with on := false } ∧ (mStart true).island 31 = { (mStart true).island 31 with on := true }
    ∧ (mStart true).cohorts.all (fun h => decide (h.cluster / 12 = 0)) = true
    ∧ (let s := mFive (fun s => { s with now := 3, parts := s.parts.map (fun p => { p with sched := 0x1003#64 }), islands := s.islands.map (fun i =>
          { i with on := true, idleSince := 0 }) })
       (s.part (s.partOfDie (31 / 4))).sched.toNat / 2 ^ 12 % 2 = 1 ∧ (s.part (s.partOfDie (31 / 4))).sched.toNat % 2 ^ 12 ≤ s.now - (s.island 31).idleSince
         ∧ (s.island 31).on = true) := by decide +kernel

/-- The machine whose context stops, with these units still to acknowledge, its thread at a slot. -/
def mStop (l : List StopUnit) (slot : Nat) : State :=
  inCtx (fun x => { x with stop := some { kind := .preempt, waiting := l, resumeAsked := false, tasks := [] } }) (mk { t0 with
    pc := { t0.pc with slot := slot }, clause := some { header := 0x07F80000#32, slots := List.replicate (slot + 1) 0#32 } })

/-- The machine whose context is saved, with its cohort. -/
def mSaved (bytes : List Byte) : State :=
  let s := inCtx (fun x => { x with saved := true, sealBytes := bytes, save := 0x88000 }) (mFive id)
  { s with cohorts := s.cohorts.map (fun h => { h with saved := true }) }

/-- A head cohort that die 0 admits; a context that it restores; no item for die 7; a die that has admitted in this cycle. -/
theorem witness_CohortAdmission : (let s := mFive id
    (match (s.arbitersBelow 0).dieChoice 0 with
      | some (_, .cohort t l) => (s.fitDie (s.load (fun _ => false)) (l.need t) 0).isSome
      | _ => false) = true)
    ∧ (match ((mSaved []).arbitersBelow 0).dieChoice 0 with
      | some (_, .restore) => true
      | _ => false) = true
    ∧ (((mk t0).arbitersBelow 7).dieChoice 7).isNone = true ∧ 0 ∈ ({ mk t0 with admits := [0] } : State).admits := by decide +kernel

/-- A stop that still waits for a core, with others, and last; a thread in the middle of a clause; a context to be restored with a good
seal, with a bad one, and with one that cannot be read yet; none to be restored. -/
theorem witness_StopAndRestore :
    ctxIs (mk t0) (fun x => x.stop.isNone) = true
    ∧ (∀ l ∈ [[StopUnit.core 0], [.core 0, .window], [.window, .copy 7]], ∀ u ∈ l, ctxIs (mStop l 0) (fun x => ((mStop l 0).stopUnit x u |>.ctx 0).isSome
        && (mStop l 0).atBoundary 0 u && (x.stop.map (fun st => st.waiting.contains u)) == some true) = true)
    ∧ (mStop [.core 0] 1).atBoundary 0 (.core 0) = false
    ∧ ctxIs (mSaved []) (fun x => ((mSaved []).arbitersBelow ((mSaved []).restoreDie x)).dieChoice ((mSaved []).restoreDie x) == some (x, .restore)
        && ((mSaved []).placeAll ((mSaved []).savedOf 0) ((mSaved []).load (fun _ => false))).isSome && ((mSaved []).homeFor x.part).isSome
        && ((mSaved []).sealOk x).1 == some true) = true
    ∧ ctxIs (mSaved [1#8]) (fun x => ((mSaved [1#8]).sealOk x).1 == some false) = true
    ∧ (let s := { mSaved [1#8] with hl := { (mSaved [1#8]).hl with flips := [{ page := 0x89, toHost := true, snoops := [], commanded := false }] } }
       ctxIs s (fun x => (s.sealOk x).1.isNone) = true)
    ∧ ctxIs (mk t0) (fun x => (match ((mk t0).arbitersBelow ((mk t0).restoreDie x)).dieChoice ((mk t0).restoreDie x) with
        | some (_, .restore) => false
        | _ => true)) = true := by decide +kernel

/-- A rendezvous of limit 4, with lane 0 joined. -/
def rdv0 (timer : Nat) : Rdv :=
  { id := 9, team := 0, pc := t0.pc, mask := 3#32, instr := .nop, joins := [{ tid := 0, a := reg 0#64, b := reg 0#64, c := reg 0#64, bound := 0#64, d := none, flag := none }],
    born := 0, timer := timer, limit := 4 }

/-- A cycle with no issue yet, and one with an issue, where the timer is below the limit and at it. -/
theorem witness_CyclesAndStalls : (mk t0).cycleIssued = false ∧ ∀ n ∈ [3, 4], let c := { c0 with rdvs := [rdv0 n] }
    let s := { mkC c t0 with bundle := [], issuedNow := (List.range 4).map (fun p => (c0.core, p)) }
    s.cycleIssued = true ∧ s.settle.crew t0.crew = some c
      ∧ c.rdvs.find? (fun r => r.id == 9 && decide (r.limit ≤ r.timer)) = (if n = 4 then some (rdv0 n) else none) := by
  decide +kernel

theorem witness_DeviceTime : (mk t0).hl.tickctl.getLsbD 8 = false
    ∧ (let s := { mk t0 with hl := { (mk t0).hl with tickctl := 0x100#64 } }; s.hl.tickctl.getLsbD 8 = true ∧ s.hl.waitTime = false)
    ∧ (let s := { mk t0 with hl := { (mk t0).hl with tickctl := 0x100#64, waitTime := true } }; s.hl.waitTime = true) := by decide +kernel

/-- Stamps at the ends of the clauses; the last register of the allocation; the last line of the last stack. -/
theorem witness_ClampAndScan :
    ((0x80000000#32).toNat / 2 ^ 30 = 2 ∧ (0xFFFFFFFF#32).toNat / 2 ^ 30 = 3 ∧ (0x7FFFFFFF#32).toNat / 2 ^ 30 < 2)
    ∧ (2 ^ 28 + 5 + 2 ^ 30 - (5#32).toNat % 2 ^ 30) % 2 ^ 30 ≤ 2 ^ 28 ∧ 2 ^ 28 < (2 ^ 28 + 6 + 2 ^ 30 - (5#32).toNat % 2 ^ 30) % 2 ^ 30
    ∧ (mk t0).mem.wf = true ∧ (mk t0).crew t0.crew = some c0 ∧ c0.scr.wf = true ∧ (mk t0).thread t0.crew t0.tid = some t0
    ∧ t0.regs[63]? = some (reg 0#64)
    ∧ (let s := { mk t0 with memStacks := (mk t0).memStacks.map (fun (k : Stack) => { k with started := true }) }
       (s.memStacks.getD 15 Stack.reset).started = true ∧ 64 * (s.height * 2 ^ 26 - 1) < s.height * 2 ^ 32)
    ∧ ((mk t0).memStacks.getD 0 Stack.reset).started = false := by decide +kernel

/-- A pager of buffer 1 with a fault that waits, its next record at a position. -/
def pager1 (next : Nat) : Pager :=
  { p := 1, base := 0x10000, limit := 0x20000, sctx := 0, qlb := 1, logq := 4, next := next, recs := [],
    waiting := [{ unit := 1, kind := 1, acc := 2, time := 3, joined := [(.thread 0 0, 0x10008)] }] }

/-- A position that is free, at the last record; one that is not. -/
theorem witness_PagerRecords : (∀ n ∈ [15, 16], let s := let s := mSeq (fun x => { x with pagers := [pager1 n] }); { s with mem := putWords s.mem 0x80000 [7] }
      ctxIs s (fun x => x.pagers.find? (fun q => q.p == 1) == some (pager1 n) && x.rmap.find? (fun b => b.n == 1) == some buf1
        && ringIs s (buf1.ver.va + 32 * (n % 2 ^ 4)) 8 (fun bs => (ofBytes bs == 0) == (n == 15))) = true) := by decide +kernel

/-- An error count up to CETH and one past it; a syndrome of each position; a crew. -/
theorem witness_ErrorsAreCountedAndPoison :
    (∀ n ∈ [1, 0], let s : State := { mk t0 with parts := (mk t0).parts.map (fun (p : Part) => { p with cpol := BitVec.ofNat 64 (n * 256) }) }
      (s.part (s.partOfDie (3071 / 384))).pendPol = [] ∧ (((s.coreEntry 3071).errors + 1 ≤ (s.part (s.partOfDie (3071 / 384))).cpol.toNat / 2 ^ 8 % 2 ^ 8)
        ↔ n = 1))
    ∧ (mk t0).crew t0.crew = some c0 ∧ c0.scr.wf = true ∧ (mk t0).mem.wf = true := by decide +kernel

/-- An engine thread of the context. -/
def engine0 : Engine :=
  { uid := 50, ctx := 0, task := State.reset.nextUid, crew := none, tid := 0, lop := none, kind := .tcopy, words := [], done := [], held := [], sent := [],
    failed := false, buffer := [], block := none, staged := false, seq := 0 }

theorem witness_FaultsAndResetsOfParts :
    ((mk t0).part ((mk t0).partOfDie (0 / 384))).pendPol = [] ∧ (mk t0).crewsOn 0 ≠ [] ∧ (mk t0).crewsOn 3071 = []
    ∧ ((mk t0).part ((mk t0).partOfDie (3071 / 384))).pendPol = [] ∧ ((mk t0).part ((mk t0).partOfDie (383 / 48))).pendPol = []
    ∧ ({ mk t0 with engines := [engine0] } : State).engine 50 = some engine0 ∧ ({ mk t0 with engines := [engine0] } : State).ctx engine0.ctx ≠ none := by
  decide +kernel
/-! ### Witnesses: the host link -/

/-- The machine with its host link changed. -/
def mHost (f : HostLink → HostLink) : State := { mk t0 with hl := f (mk t0).hl }

/-- A flip of a page. -/
def flip1 (page : Nat) (snoops : List Nat) : Flip := { page := page, toHost := true, snoops := snoops, commanded := true }

/-- The bias table set, with page 1 in transition: its bytes lie at 0x70000. -/
def mBias (snoops : List Nat) : State := mHost (fun h => { h with biasSet := true, biasbase := 0x70000#64, flips := [flip1 1 snoops] })

/-- A boot failure; the first byte past usable memory and the last line before it; page 1 in transition; page 2 of device bias, and of host
bias when no table is set. -/
theorem witness_HostReads : (mHost (fun h => { h with fail := 6 })).hl.fail ≠ 0
    ∧ (mBias []).hl.fail = 0 ∧ (mBias []).height * 2 ^ 36 ≤ (mBias []).height * 2 ^ 36 ∧ (mBias []).height * 2 ^ 36 - 64 < (mBias []).height * 2 ^ 36
    ∧ (mBias []).hl.flips.any (fun f => f.page == 0x1FC0 / 4096) = true ∧ (mBias []).hl.flips.all (fun f => f.page != 0x2000 / 4096) = true
    ∧ (mBias []).hl.biasSet = true ∧ (mBias []).hostBias 0x2000 = false ∧ (mk t0).hl.biasSet = false ∧ (mk t0).hl.flips = []
    ∧ 0x2000 < (mBias []).height * 2 ^ 36 := by decide +kernel

/-- The stream header of the context, which a host may not write. -/
theorem witness_HostWrites : (mHost (fun h => { h with fail := 6 })).hl.fail ≠ 0 ∧ (mBias []).hl.fail = 0
    ∧ (mBias []).writeForbidden 0x70000 = true ∧ (mBias []).writeForbidden 0x2000000 = false ∧ (mBias []).hl.swold = (mBias []).hl.swins
    ∧ (mBias []).mem.wf = true ∧ 0x2000000 < (mBias []).height * 2 ^ 36 ∧ (mBias []).hl.flips.all (fun f => f.page != 0x2000000 / 4096) = true
    ∧ (mBias []).hl.flips.all (fun f => f.page != 0x70000 / 4096) = true ∧ (mBias []).hl.flips.any (fun f => f.page == 0x1000 / 4096) = true := by
  decide +kernel

/-- A disabled window before an enabled one of each mode, at the first and the last address. -/
theorem witness_StampWindows : (∀ m ∈ [1, 2], let w : StampWin := { base := 0x1000#64, lim := 0x2000#64, stamp := BitVec.ofNat 64 (m * 2 ^ 32) }
      w.stamp.toNat / 2 ^ 32 % 4 = m ∧ w.base.toNat ≤ 0x1000 ∧ 0x1FFF < w.lim.toNat ∧ ¬ 0x2000 < w.lim.toNat)
    ∧ (0x0#64).toNat / 2 ^ 32 % 4 = 0 := by decide +kernel

theorem witness_UnsupportedAndUnlisted : (mk t0).readRegister 0x118 = none ∧ (mk t0).readRegister 0x10 = some (mk t0).hl.tickctl
    ∧ 0x118 < 2 ^ 32 := by decide +kernel

/-- The first line of a page in transition, outstanding and not. -/
theorem witness_SnoopAnswers : (mBias [64]).hl.flips.any (fun f => f.snoops.contains (0x1000 / 64)) = true
    ∧ (mBias []).hl.flips.all (fun f => !f.snoops.contains (0x1000 / 64)) = true ∧ (mBias []).hl.snoops = [] ∧ (mBias [64]).mem.wf = true
    ∧ (mBias [64]).writeForbidden 0x1000 = false
    ∧ (let s := mHost (fun h => { h with biasSet := true, biasbase := 0x70000#64, snoops := [0x70000 / 64] })
       s.hl.snoops.contains (0x70000 / 64) = true ∧ s.writeForbidden 0x70000 = true ∧ s.hl.hlogSet = false) := by
  decide +kernel

theorem witness_HostLines : (mk t0).hmem.wf = true ∧ (mk t0).hl.features.getLsbD 5 = true ∧ 0x1000 / 64 ∉ (mk t0).hl.lines
    ∧ (mHost (fun h => { h with features := 0 })).hl.features.getLsbD 5 = false ∧ (mHost (fun h => { h with lines := [64] })).hl.lines = [64] := by
  decide +kernel

/-- BUSY; the first page past usable memory; page 1 in transition; page 2 of device bias. -/
theorem witness_BiasCommands : (mHost (fun h => { h with busy := true })).hl.busy = true ∧ (mBias []).height * 2 ^ 36 ≤ 2 ^ 24 * (mBias []).height * 4096
    ∧ (mBias []).hl.busy = false ∧ (mBias []).hl.biasSet = true ∧ 2 * 4096 < (mBias []).height * 2 ^ 36
    ∧ (mBias []).hl.flips.any (fun f => f.page == 1) = true ∧ (mBias []).hl.flips.all (fun f => f.page != 2) = true
    ∧ (mBias []).hostBias (2 * 4096) = false := by decide +kernel

theorem witness_FlipsComplete : (mBias []).hl.flips.find? (fun f => f.page == 1) = some (flip1 1 []) ∧ (mBias []).hl.held = []
    ∧ (mBias []).hl.pendingCmd = none ∧ (mBias []).mem.wf = true ∧ (mBias [64]).hl.flips.find? (fun f => f.page == 1) = some (flip1 1 [64])
    ∧ (mBias []).hl.flips.all (fun f => f.page != 2) = true := by decide +kernel

theorem witness_Boot : (mk t0).hl.go = false ∧ (mk t0).hl.stage = 0 ∧ (mHost (fun h => { h with go := true })).hl.go = true
    ∧ (mHost (fun h => { h with stage := 4 })).hl.stage ≠ 0 := by decide +kernel

/-- Exponents 6, 20 and 21; RUN set and clear, of a time master and of another package. -/
theorem witness_TimeControl :
    (∀ v ∈ [0x106, 0x114, 0x006], let w := BitVec.ofNat 64 v
      w.toNat / 2 ^ 9 = 0 ∧ w.toNat / 32 % 8 = 0 ∧ 6 ≤ w.toNat % 32 ∧ w.toNat % 32 ≤ 20)
    ∧ ¬ (0x115#64).toNat % 32 ≤ 20 ∧ (0x106#64).getLsbD 8 = true ∧ (0x006#64).getLsbD 8 = false
    ∧ (mk t0).hl.tickctl.getLsbD 8 = false ∧ (mHost (fun h => { h with tickctl := 0x106#64 })).hl.tickctl.getLsbD 8 = true
    ∧ (mk t0).hl.features.getLsbD 2 = true
    ∧ (let s := { mk t0 with devid := 1, fab := { (mk t0).fab with domain := [0], left := [] } }
       s.fab.domain.any (fun q => !s.fab.left.contains q && decide (q < s.devid)) = true)
    ∧ (let s := { mk t0 with devid := 1, fab := { (mk t0).fab with domain := [0], left := [0] } }
       s.fab.domain.all (fun q => s.fab.left.contains q || decide (s.devid ≤ q)) = true) := by decide +kernel

/-- A descriptor at the last place of usable memory that holds it and an empty device: the command is taken; each thing missing. -/
def mFirst (f : HostLink → HostLink) : State :=
  let s := mHost (fun h => f { h with stage := 4, lock := true, biasSet := true, biasbase := 0x10000000#64, tickctl := 0x106#64 })
  { s with ctxs := [], parts := s.parts.map (fun p => { p with cq := 8#64 }), mem := putWords s.mem 0x88000 [0x1000, 4, capLo.toNat, capHi.toNat, 0, 0, 0, 0, 0, 0, 0x10000, 0] }

theorem witness_FirstContext : ((mFirst id).hl.stage = 4 ∧ (mFirst id).hl.fail = 0 ∧ (mFirst id).hl.lock = true ∧ (mFirst id).hl.biasSet = true
      ∧ (mFirst id).hl.tickctl.getLsbD 8 = true)
    ∧ (0x88000 % 128 = 0 ∧ 0x88000 + 128 ≤ (mFirst id).height * 2 ^ 36 ∧ (mFirst id).mem.poison = [] ∧ (mFirst id).ctx 0 = none
      ∧ (mFirst id).partOpen 0 = true ∧ (mFirst id).descOk 0 (wordsOf ((mFirst id).mem.read 0x88000 128)) = true)
    ∧ ((mFirst id).homeFor 0).isSome = true
    ∧ (mFirst (fun h => { h with stage := 3 })).hl.stage ≠ 4 ∧ (mFirst (fun h => { h with lock := false })).hl.lock = false := by decide +kernel

theorem witness_RegisterWrites : (0x100#64).toNat = 2 ^ 8
    ∧ (let x := (0x7FF07FF07FF#64).toNat; x / 2 ^ 43 = 0 ∧ x / 2 ^ 27 % 2 ^ 5 = 0 ∧ x / 2 ^ 11 % 2 ^ 5 = 0) ∧ (0x80000000000#64).toNat / 2 ^ 43 ≠ 0
    ∧ (mk t0).schedOk 0x40000 = true ∧ (mk t0).schedOk 0x30000 = false ∧ (mk t0).ctxs.any (fun y => y.part == 0) = true
    ∧ (mk t0).ctxs.all (fun y => y.part != 7) = true ∧ AList.wf 0#8 (mk t0).hl.image = true ∧ (mk t0).hl.lock = false
    ∧ (mHost (fun h => { h with lock := true })).hl.lock = true ∧ 2 ^ 26 - 8 < 2 ^ 26 := by decide +kernel

/-- The link to peer 1 with keys of epoch 4 in use, stalled or not, the key registers with an epoch; a direction selected. -/
def mKeys (rx keyed stall : Bool) (epoch : Nat) : State :=
  let s := mHost (fun h => { h with lksel := BitVec.ofNat 64 (0x100 + b2n rx), lkepoch := BitVec.ofNat 64 epoch })
  let k := if keyed then some { key := 1#256, epoch := 4 } else none
  { s with fab := { s.fab with links := [{ s.fab.linkOr 1 with tx := k, rx := k, stall := stall }] } }

theorem witness_LinkKeys :
    (∀ rx ∈ [true, false], ∀ keyed ∈ [true, false], ∀ stall ∈ [true, false], ∀ n ∈ [5, 6], let s := mKeys rx keyed stall n
      s.hl.lksel.toNat / 2 ^ 8 % 2 ^ 6 = 1 ∧ 1 ≠ s.devid ∧ s.hl.lksel.getLsbD 0 = rx ∧ (s.fab.linkOr 1).stall = stall ∧ s.hl.keyIn.epoch = n
        ∧ (s.fab.linkOr 1).rxNext = none ∧ (s.fab.linkOr 1).txNext = none
        ∧ (if keyed then ((s.fab.linkOr 1).tx.map (fun c => c.epoch)) = some 4 else (s.fab.linkOr 1).tx = none))
    ∧ (mHost id).hl.lksel.toNat / 2 ^ 8 % 2 ^ 6 = (mHost id).devid := by decide +kernel

/-! ### Witnesses: stack links -/

/-- A request on a stack's link. -/
def request (cmd tag addr : Nat) : StackReq :=
  { cmd := cmd, tag := tag, gmask := 3, addr := addr, stamps := 0#64, data := List.replicate 64 1#8 }

/-- The last stack, started or not, with requests and responses on its link. -/
def mStack (started : Bool) (reqs : List StackReq) (resps : List StackResp) : State :=
  { mk t0 with memStacks := modifyAt (fun k => { k with started := started, reqs := reqs, resps := resps }) 15 (mk t0).memStacks }

theorem witness_MailboxCommands : ((mk t0).memStacks.getD 15 Stack.reset).busy = false ∧ 15 < 16
    ∧ (({ mk t0 with memStacks := (mk t0).memStacks.map (fun (k : Stack) => { k with busy := true }) } : State).memStacks.getD 15 Stack.reset).busy = true := by
  decide +kernel

/-- The first of two mailbox requests. -/
theorem witness_MailboxPerformed : 15 < (mStack true [request 1 0 0, request 5 0 0, request 5 0 1] []).memStacks.length
    ∧ ((mStack true [request 1 0 0, request 5 0 0, request 5 0 1] []).memStacks.getD 15 Stack.reset).reqs
        = [request 1 0 0] ++ request 5 0 0 :: [request 5 0 1]
    ∧ ¬((request 1 0 0).cmd = 5 ∧ (request 1 0 0).tag = 0) ∧ (request 5 0 0).cmd = 5 := by decide +kernel

/-- The last line of the stack; an address that is no line's; one past the end; a request behind another to its line. -/
theorem witness_StackLineRequests : ∀ p ∈ [((true, 2 ^ 35 - 64), true), ((true, 1), false), ((false, 0), true), ((true, 2 ^ 35), false)],
    ∀ cmd ∈ [1, 2, 3], let s := mStack p.1.1 ([request 4 0 0] ++ request cmd 0 p.1.2 :: []) []
      let k := s.memStacks.getD 15 Stack.reset
      k.reqs = [request 4 0 0] ++ request cmd 0 p.1.2 :: [] ∧ (request cmd 0 p.1.2).cmd = cmd ∧ k.started = p.1.1 ∧ s.mem.wf = true
        ∧ (decide (p.1.2 % 64 = 0) && decide (p.1.2 + 64 ≤ s.height * 2 ^ 32)) = p.2 ∧ (request cmd 0 p.1.2).data.length = 64
        ∧ ¬((request 4 0 0).cmd = cmd ∧ (request 4 0 0).tag = 0) ∧ s.mem.poison = [] := by decide +kernel

theorem witness_TimeBeats : ((mStack true [request 1 0 0, request 6 0 0] []).memStacks.getD 15 Stack.reset).reqs = [request 1 0 0] ++ request 6 0 0 :: []
    ∧ ((mStack true [request 1 0 0] []).memStacks.getD 15 Stack.reset).reqs = [request 1 0 0] ∧ (request 1 0 0).cmd ≠ 6 := by decide +kernel

/-- A response of each status. -/
theorem witness_StackResponses : ∀ st ∈ [0, 1, 2, 3],
    let r : StackResp := { cmd := 1, tag := 7, addr := 0, status := st, gpois := 3, synd := 0, stamps := 0#64, data := [] }
    ((mStack true [] [{ r with tag := 6 }, r]).memStacks.getD 15 Stack.reset).resps = [{ r with tag := 6 }] ++ r :: []
      ∧ (mStack true [] [{ r with tag := 6 }, r]).mem.wf = true := by decide +kernel
/-! ### Witnesses: the fabric -/

/-- A key. -/
def key0 : LinkKey := { key := 1#256, epoch := 0 }

/-- Bytes of a flit with a given tag, whose checksum is right. -/
def flitOf (n : Nat) (head cipher : List Byte) (tag : Nat) : List Byte :=
  (head ++ cipher ++ toBytes 8 tag) ++ toBytes 4 (Config.crc32 (n % 2 ^ 32) (head ++ cipher ++ toBytes 8 tag)).toNat

theorem checkFlit_of (k : LinkKey) (src dst n tag : Nat) (head cipher : List Byte) (hh : head.length = 4) (hc : cipher.length = 240) :
    checkFlit k src dst n (flitOf n head cipher tag) =
      if Config.gcmTag k.key (nonceOf src dst k.epoch n) head cipher ≠ BitVec.ofNat 64 tag then .badTag
      else .good { type := bits (ofBytes head) 31 28, valid := bits (ofBytes head) 27 20, mbz := bits (ofBytes head) 19 16, ack := bits (ofBytes head) 15 0
                   payload := (xorBytes cipher (keyStream k (nonceOf src dst k.epoch n))).take (bits (ofBytes head) 27 20) } := by
  have h1 : (flitOf n head cipher tag).take 252 = head ++ cipher ++ toBytes 8 tag := List.take_left' (by simp [hh, hc])
  have h2 : (flitOf n head cipher tag).drop 252 = toBytes 4 (Config.crc32 (n % 2 ^ 32) (head ++ cipher ++ toBytes 8 tag)).toNat :=
    List.drop_left' (by simp [hh, hc])
  have h3 : (flitOf n head cipher tag).take 4 = head := by simp [flitOf, List.append_assoc, List.take_left' hh]
  have h4 : ((flitOf n head cipher tag).drop 4).take 240 = cipher := by
    simp [flitOf, List.append_assoc, List.drop_left' hh, List.take_left' hc]
  have h5 : ((flitOf n head cipher tag).drop 244).take 8 = toBytes 8 tag := by
    have : (flitOf n head cipher tag).drop 244 = toBytes 8 tag ++ toBytes 4 (Config.crc32 (n % 2 ^ 32) (head ++ cipher ++ toBytes 8 tag)).toNat := by
      rw [flitOf, List.append_assoc (head ++ cipher)]
      exact List.drop_left' (by simp [hh, hc])
    rw [this]
    exact List.take_left' (by simp)
  have h6 : (flitOf n head cipher tag).length = 256 := by simp [flitOf, hh, hc]
  have h7 := ofNat_ofBytes_toBytes 4 (Config.crc32 (n % 2 ^ 32) (head ++ cipher ++ toBytes 8 tag))
  have h8 : BitVec.ofNat 64 (ofBytes (toBytes 8 tag)) = BitVec.ofNat 64 tag := by
    apply BitVec.eq_of_toNat_eq
    simp only [BitVec.toNat_ofNat, ofBytes_toBytes]
    omega
  have h9 : crcGood n (flitOf n head cipher tag) = true := by
    unfold crcGood
    rw [h1, h2, h6, h7]
    simp
  unfold checkFlit
  rw [if_neg (by simp [h9])]
  simp only [h3, h4, h5, h8]

/-- A flit of a TYPE with 240 data bytes, its tag right, is good. -/
theorem goodFlit_of (n type : Nat) : checkFlit key0 1 0 n (flitOf n (flitHead type 240 5) (List.replicate 240 0#8)
      (Config.gcmTag key0.key (nonceOf 1 0 key0.epoch n) (flitHead type 240 5) (List.replicate 240 0#8)).toNat)
    = .good { type := bits (ofBytes (flitHead type 240 5)) 31 28, valid := bits (ofBytes (flitHead type 240 5)) 27 20
              mbz := bits (ofBytes (flitHead type 240 5)) 19 16, ack := bits (ofBytes (flitHead type 240 5)) 15 0
              payload := (xorBytes (List.replicate 240 0#8) (keyStream key0 (nonceOf 1 0 key0.epoch n))).take
                (bits (ofBytes (flitHead type 240 5)) 27 20) } := by
  rw [checkFlit_of _ _ _ _ _ _ _ (by simp [flitHead]) List.length_replicate,
    if_neg (by rw [BitVec.ofNat_toNat, BitVec.setWidth_eq]; exact fun h => h rfl)]

/-- The link to peer 1, up, with keys; f changes it. -/
def mLink (f : Link → Link) : State :=
  { mPeer with fab := { mPeer.fab with links := [f { Link.fresh 1 with up := true, tx := some key0, rx := some key0 }] } }

/-- The last number of a key, expected on the base plane, and none on another; a flit that is awaited again, before, at and after it; a
number ahead on a second plane; flits of a wrong length, with a wrong tag, and good, of a type and without one. -/
theorem witness_FlitsArrive : (∀ bad ∈ [none, some (2 ^ 48 - 2), some (2 ^ 48 - 1), some (2 ^ 48)],
      let s := mLink (fun l => { l with rxN := 2 ^ 48 - 1, rxBad := bad })
      let l := s.fab.linkOr 1
      l.rxN < 2 ^ 48 ∧ s.fab.link 1 = some l ∧ l.up = true ∧ l.rx = some key0 ∧ l.rxBad = bad ∧ l.rxHeld = [] ∧ l.waiting = []
        ∧ s.expectOn 1 1 = some (2 ^ 48 - 1) ∧ s.expectOn 1 2 = none)
    ∧ (let s := mLink (fun l => { l with rxN := 8, planesRx := [5] }); s.expectOn 1 1 = some 8 ∧ s.expectOn 1 5 = some 9)
    ∧ (¬∃ i, i < 4096 ∧ crcGood (2 ^ 48 + i) [] = true) ∧ checkFlit key0 1 0 (2 ^ 48 - 1) [] = .bad
    ∧ checkFlit key0 1 0 (2 ^ 48 - 1) (flitOf (2 ^ 48 - 1) (flitHead 3 0 5) (List.replicate 240 0#8)
        ((Config.gcmTag key0.key (nonceOf 1 0 key0.epoch (2 ^ 48 - 1)) (flitHead 3 0 5) (List.replicate 240 0#8)).toNat + 1)) = .badTag
    ∧ ∀ type ∈ [3, 4], ∃ bs f, checkFlit key0 1 0 (2 ^ 48 - 1) bs = .good f ∧ f.type = type ∧ f.valid = 240 ∧ f.mbz = 0 ∧ f.ack = 5 := by
  refine ⟨by decide +kernel, by decide +kernel, ?_, by decide +kernel, ?_, fun type h => ?_⟩
  · rintro ⟨i, -, h⟩
    simp [crcGood] at h
  · rw [checkFlit_of _ _ _ _ _ _ _ (by decide +kernel) (by decide +kernel), if_pos]
    intro h
    have := congrArg BitVec.toNat h
    have hl := (Config.gcmTag key0.key (nonceOf 1 0 key0.epoch (2 ^ 48 - 1)) (flitHead 3 0 5) (List.replicate 240 0#8)).isLt
    simp only [BitVec.toNat_ofNat] at this
    omega
  · refine ⟨_, _, goodFlit_of _ type, ?_⟩
    revert type h
    decide +kernel

theorem witness_FlitsComeBack : (List.replicate 240 1#8).length ≤ 240 ∧ 15 < 16 := by decide +kernel

/-- A kept data flit. -/
def kept1 : SentFlit := { n := 7, epoch := 0, out := { type := 1, payload := [1#8] }, bytes := [1#8] }

/-- A table of two slots. -/
def table2 : RotTable :=
  { start := 10, begins := 1000000000, id := 5#32, slots := [{ guard := 1, dur := 1, txn := [], rxn := [] }, { guard := 1, dur := 1, txn := [], rxn := [] }] }

/-- A link that keeps flit 7, where rotation does not hold data back and where it does; one with more than REPLIM failures at either end. -/
theorem witness_ReplayAndLinkDown :
    (∀ rot ∈ [none, some { table2 with slots := [{ guard := 1, dur := 1, txn := [0, 1], rxn := [0, 1] }] }], let s := mLink (fun l => { l with replay := [{ kept1 with n := 6 }, kept1] })
     let s := { s with fab := { s.fab with
       rot := rot, rotPhase := .guard 0, confirms := [{ peer := 1, id := 5#32, txn := [1], rxn := [1] }] } }
     let l := s.fab.linkOr 1
     s.fab.link 1 = some l ∧ l.up = true ∧ l.replay.any (fun f => f.n == 7) = true ∧ l.replay.all (fun f => f.n != 8) = true
       ∧ (l.replay.dropWhile (fun f => f.n != 7)).all (fun f => s.mayCarry 1 f.out.type == rot.isNone) = true
       ∧ l.fails ≤ s.fab.fabctl.toNat / 2 ^ 20 % 2 ^ 4 ∧ l.rxFails < s.fab.fabctl.toNat / 2 ^ 20 % 2 ^ 4)
    ∧ (let s := mLink (fun l => { l with fails := 9 })
       s.fab.link 1 = some (s.fab.linkOr 1) ∧ (s.fab.linkOr 1).up = true ∧ s.fab.fabctl.toNat / 2 ^ 20 % 2 ^ 4 < (s.fab.linkOr 1).fails)
    ∧ (let s := mLink (fun l => { l with rxFails := 8 })
       s.fab.link 1 = some (s.fab.linkOr 1) ∧ (s.fab.linkOr 1).up = true ∧ s.fab.fabctl.toNat / 2 ^ 20 % 2 ^ 4 ≤ (s.fab.linkOr 1).rxFails)
    ∧ (let s := { mLink id with engines := [{ engine0 with kind := .send 5, sent := [0], crew := some t0.crew }] }
       s.engines.all (fun e => s.engine e.uid == some e && e.sent != []) = true)
    ∧ (let s := mLink (fun l => { l with up := false }); s.fab.link 1 = some (s.fab.linkOr 1) ∧ (s.fab.linkOr 1).up = false) := by decide +kernel

theorem witness_LinkUpAndRekey :
    (let s := mLink (fun l => { l with up := false })
     s.hl.features.getLsbD 2 = true ∧ 1 ≠ s.devid ∧ 1 < 64 ∧ (s.fab.linkOr 1).up = false ∧ (s.fab.linkOr 1).tx ≠ none ∧ (s.fab.linkOr 1).rx ≠ none
       ∧ s.fab.link 1 = some (s.fab.linkOr 1) ∧ s.baseTuned 1 = true)
    ∧ (let s := mLink (fun l => { l with up := false })
       let s := { s with fab := { s.fab with domain := [], rxc := (List.range 16).map (fun k => { plane := 1, peer := k + 2, st := .active }) } }
       s.fab.link 1 = some (s.fab.linkOr 1) ∧ s.baseTuned 1 = false)
    ∧ (∀ n ∈ [2 ^ 48 - 2 ^ 20 - 1, 2 ^ 48 - 2 ^ 20, 2 ^ 48], ∀ next ∈ [none, some key0],
        let s := mLink (fun l => { l with txN := n, rxN := n, txNext := next })
        s.fab.link 1 = some (s.fab.linkOr 1) ∧ (s.fab.linkOr 1).txRekey = false ∧ (s.fab.linkOr 1).rxRekey = false ∧ (s.fab.linkOr 1).stall = false
          ∧ (s.fab.linkOr 1).txNext = next ∧ (s.fab.linkOr 1).waiting = [] ∧ (s.fab.linkOr 1).txN = n ∧ (s.fab.linkOr 1).rxN = n)
    ∧ (mLink id).fab.link 1 = some ((mLink id).fab.linkOr 1) ∧ ((mLink id).fab.linkOr 1).up = true := by decide +kernel

/-- A package that follows package 0, before and after its first exchange, and at the TSYNC tick and before it. -/
def mFollows (wait : Bool) (now : Nat) : State :=
  let s := mHost (fun h => { h with waitTime := wait, tickctl := 0x10A#64 })
  { s with devid := 1, now := now, fab := { s.fab with domain := [0], left := [], fabctl := 1024#64 } }

/-- Those, and the master, asked by a package that is present and one that is not. -/
theorem witness_TimeExchange : (∀ wait ∈ [true, false], ∀ now ∈ [1023, 1024], let s := mFollows wait now
      s.hl.features.getLsbD 2 = true ∧ s.fab.domain.any (fun q => !s.fab.left.contains q && decide (q < s.devid)) = true ∧ s.hl.waitTime = wait
        ∧ s.hl.tickctl.getLsbD 8 = true ∧ (s.now < s.fab.tsyncAt + s.fab.fabctl.toNat % 2 ^ 16 ↔ now = 1023))
    ∧ mPeer.hl.features.getLsbD 2 = true ∧ mPeer.fab.domain.all (fun q => mPeer.fab.left.contains q || !decide (q < mPeer.devid)) = true
    ∧ 1 ∈ mPeer.fab.present ∧ 2 ∉ mPeer.fab.present := by decide +kernel

/-- A packet of 4 bytes at the capability's last word. -/
def packet0 (kind : Nat) : Packet :=
  { id := 70, kind := kind, src := 1, dst := 0, xfer := 0, dalign := 0, sport := 5, dcn := 0, tag := 3, ten := false, aop := 1, length := 8,
    cap := { lo := capLo, hi := capHi }, offset := 0xFF8, runs := [(1, 0#32)], data := List.replicate 8 1#8 }

/-- The machine that has received a packet. -/
def mGot (p : Packet) : State := { mPeer with fab := { mPeer.fab with inPk := [p] } }

/-- Whether device memory alone is reached. -/
def devOk (s : State) (k : AccKind) (va n : Nat) : Bool := (s.devMap 0 k va n).1.toOption.isSome

/-- An open write to the last bytes; one without a paired context; one whose tag is bound, and not bound. -/
theorem witness_WriteRequests :
    (∀ p ∈ [packet0 1, { packet0 1 with ten := true }], let s := mGot p
      s.readyPacket 70 1 = some p ∧ ctxIs s (fun x => s.ctxs.find? (fun x => x.dcn == p.dcn) == some x && x.dtags.isEmpty) = true ∧ p.cap.has pStore = true
        ∧ p.cap.covers p.va p.data.length = true ∧ p.va + p.data.length = 0x81000 ∧ devOk s .store p.va p.data.length = true)
    ∧ (let s := inCtx (fun x => { x with dtags := [{ tag := 3, crew := t0.crew, off := 0 }] }) (mGot { packet0 1 with ten := true })
       ctxIs s (fun x => (x.dtags.find? (fun g => g.tag == 3)).isSome && s.ctxs.find? (fun x => x.dcn == 0) == some x) = true
         ∧ s.readyPacket 70 1 = some { packet0 1 with ten := true } ∧ devOk s .store (packet0 1).va 8 = true)
    ∧ (let p := { packet0 1 with dcn := 63 }; (mGot p).readyPacket 70 1 = some p ∧ (mGot p).ctxs.find? (fun x => x.dcn == p.dcn) = none) := by
  decide +kernel

/-- The same machine, with a poisoned granule at the place read. -/
def poisoned (s : State) : State := { s with mem := s.mem.putPoison (0x80FF8 / 32) true }

/-- Whether the source of a read is poisoned. -/
def srcPoison (s : State) (va n : Nat) : Bool :=
  match s.devMap 0 .load va n with
  | (.ok l, s1) => (s1.segPoison l).isSome
  | _ => false

theorem witness_ReadAndAtomicRequests :
    (∀ b ∈ [true, false], let s := if b then poisoned (mGot (packet0 3)) else mGot (packet0 3)
      s.readyPacket 70 3 = some (packet0 3) ∧ (packet0 3).cap.has pLoad = true ∧ (packet0 3).cap.covers (packet0 3).va 8 = true
        ∧ devOk s .load (packet0 3).va 8 = true ∧ srcPoison s (packet0 3).va 8 = b)
    ∧ (∀ op ∈ [0, 1, 2, 3, 4, 5], let p := { packet0 5 with aop := op, data := List.replicate 16 0#8 }
        let w := if op = 5 then 4 else 8
        (mGot p).readyPacket 70 5 = some p ∧ p.cap.has pAtomic = true ∧ p.cap.covers p.va w = true ∧ p.va % w = 0
          ∧ (match (mGot p).devMap 0 .atomic p.va w with
              | (.ok [g], s1) => decide (g = { pa := g.pa, n := w, host := false }) && !s1.mem.isPoison (g.pa / 32) && decide (g.pa % w = 0)
              | _ => false) = true)
    ∧ (let p := { packet0 5 with offset := 0xFF4, aop := 0 }; (mGot p).readyPacket 70 5 = some p ∧ p.va % 8 ≠ 0 ∧ p.cap.covers p.va 8 = true)
    ∧ ctxIs (mGot (packet0 3)) (fun x => (mGot (packet0 3)).ctxs.find? (fun y => y.dcn == 0) == some x) = true := by decide +kernel

/-- An engine thread of a fabric operation with its one packet sent, towards 32 bytes at 0x80000. -/
def sender0 (k : EngineKind) (failed : Bool) : Engine :=
  { engine0 with kind := k, words := [reg capLo, reg capHi, reg capLo, reg capHi, reg (31#64 <<< 1), reg 0#64, reg 1#64], sent := [0], failed := failed }

/-- The machine with this engine thread, which has received a reply to it. -/
def mReply (k : EngineKind) (failed : Bool) (kind : Nat) : State :=
  { mGot { packet0 kind with xfer := (sender0 k failed).xfer 0 } with engines := [sender0 k failed] }

/-- A piece of an engine thread's plan. -/
def pieceOk (s : State) (e : Engine) : Bool := ((s.planOf e).rows.piece 0).isSome

/-- Each reply, to an engine thread that is in order and to one that has failed. -/
theorem witness_FabricReplies :
    (∀ q ∈ [(EngineKind.bput, 2), (.bget, 4), (.batom 0, 6), (.bput, 8)], ∀ failed ∈ [true, false], let s := mReply q.1 failed q.2
      let e := sender0 q.1 failed
      let p := { packet0 q.2 with xfer := e.xfer 0 }
      s.readyPacket 70 q.2 = some p ∧ s.replyTo p = some (e, 0) ∧ s.engine e.uid = some e ∧ pieceOk s e = true ∧ 0 ∉ e.held)
    ∧ (let s := mReply .bget false 4
       let e := sender0 .bget false
       (match (s.planOf e).rows.piece 0 with
        | some q =>
          let p := { packet0 4 with xfer := e.xfer 0 }
          match s.engPut e.ctx e.crew ((s.planOf e).rows.pieceVa q) (numbered (fun i b => (b, (p.stamps s.now).getD
              (((s.planOf e).rows.pieceVa q % 32 + i) / 32) sVacant)) p.data) with
          | (.ok _, s1) => s1.engine e.uid == some e
          | _ => false
        | none => false) = true) := by decide +kernel

/-- A kind-4 port with a ring of 32 bytes at 0x80000. -/
def port4 (cons : Nat) : Port :=
  { n := 3, kind := 4, bound := 0#64, desc := [0x80000#64, 5#64, 0x501#64], prod := 32, cons := cons, remainder := [], back := [] }

/-- A ring with no room, and with room for 32 bytes; no port; a record that is not the first. -/
theorem witness_EgressRecordsArrive : let p := { packet0 7 with data := List.replicate 32 1#8 }
    (∀ cons ∈ [0, 32], let s := inCtx (fun x => { x with ports := [port4 cons] }) (mGot p)
      s.readyPacket 70 7 = some p ∧ s.localPort p.dcn p.src p.sport p.tag = some (0, port4 cons)
        ∧ (2 ^ (port4 cons).log2 < ((port4 cons).prod + 2 ^ 64 - (port4 cons).cons) % 2 ^ 64 + p.data.length ↔ cons = 0)
        ∧ (State.ringWrite 0 (ringSplit 0x80000 32 32 (p.data.map (fun b => (b, dataAt s.now)))) s).1.toOption.isSome = true)
    ∧ (mGot p).localPort p.dcn p.src p.sport p.tag = none ∧ (mGot p).readyPacket 70 7 = some p
    ∧ (let s := { mPeer with fab := { mPeer.fab with inPk := [{ p with id := 69 }, p] } }
       s.readyPacket 70 7 = some p ∧ (s.fab.inPk.find? (fun k => k.kind == 7 && k.src == p.src && k.dcn == p.dcn && k.tag == p.tag)).map (fun k => k.id) = some 69) := by decide +kernel

/-! ### Witnesses: leases and rotation -/

/-- The machine whose fabric is changed. -/
def mFab (f : Fabric → Fabric) : State := { mPeer with fab := f mPeer.fab }

/-- A channel of a plane. -/
def chan (plane : Nat) (st : SlotState) : Chan := { plane := plane, peer := 1, st := st }

/-- A request of package 1; a rotating package; a grant of two reserved planes, one of them the last. -/
theorem witness_RequestsAndGrants : mPeer.leasesSuspended = false ∧ 1 ∈ mPeer.fab.present ∧ 1 ≠ mPeer.devid
    ∧ (mFab (fun f => { f with rot := some table2, rotPhase := .guard 0 })).leasesSuspended = true ∧ 2 ∉ mPeer.fab.present
    ∧ (let s := mFab (fun f => { f with txc := [chan 5 .reserved, chan 63 .reserved] })
       (List.range 64).all (fun j => !(0x8000000000000020#64).getLsbD j || s.fab.txc.any (fun c => c.peer == 1 && c.plane == j && c.st == .reserved)) = true) := by
  decide +kernel

/-- A queued request of package 2, while package 1 holds two channels, and one. -/
def mStarve (n now : Nat) : State :=
  let s := mFab (fun f => { f with rxc := (List.range n).map (fun k => chan (60 + k) .active), queued := [{ peer := 2, want := 1, tick := 0 }] })
  { s with now := now }

theorem witness_OffersAndRevocation : mPeer.leasesSuspended = false ∧ mPeer.freeDrop 63 = true ∧ 63 ∉ mPeer.fab.freed
    ∧ (let s := mFab (fun f => { f with freed := [63], queued := [{ peer := 2, want := 1, tick := 0 }] }); s.leasesSuspended = false ∧ 63 ∈ s.fab.freed)
    ∧ (mFab (fun f => { f with rot := some table2, rotPhase := .guard 0 })).leasesSuspended = true
    ∧ (let s := mFab (fun f => { f with rxc := (List.range 16).map (fun k => { plane := 63, peer := k + 2, st := .active }) }); s.freeDrop 63 = false)
    ∧ mPeer.fab.queued.find? (fun r => r.peer == 2) = none
    ∧ (∀ q ∈ [(2, 256), (1, 256), (2, 255)], let s := mStarve q.1 q.2
        s.fab.queued.find? (fun r => r.peer == 2) = some { peer := 2, want := 1, tick := 0 } ∧ s.leasesSuspended = false
          ∧ s.mostLeased = 1 ∧ s.fab.revokedAt ≠ some s.now
          ∧ ((0 + s.fab.fabctl.toNat / 2 ^ 32 % 2 ^ 16 ≤ s.now ∧ (s.fab.leasedFrom 2).length + 2 ≤ (s.fab.leasedFrom s.mostLeased).length) ↔ q = (2, 256)))
    := by decide +kernel

/-- A link whose channel on the last plane has a state, which leads to a peer that a context wants n channels to, with announced changes. -/
def mChan (st : SlotState) (inSet : Bool) (want : Nat) (changes : List (Nat × Bool × Nat)) : State :=
  let planes := if inSet then [63] else []
  let s := mLink (fun l => { l with txN := 8, rxN := 8, planesTx := planes, planesRx := planes, changes := changes })
  inCtx (fun x => { x with leases := [(1, want)] }) { s with fab := { s.fab with txc := [chan 63 st], rxc := [chan 63 st] } }

/-- Each state of a channel, in the set and not, with a target below, at and above it; an announced change that is due, one that is not. -/
theorem witness_ChannelStates :
    (∀ st ∈ [SlotState.active, .retune true, .retune false, .reserved, .drain none, .drain (some 8), .drain (some 9)], ∀ inSet ∈ [true, false],
      ∀ want ∈ [0, 1, 2], ∀ ch ∈ [[], [(63, true, 8)], [(63, false, 8)], [(63, true, 9)]], let s := mChan st inSet want ch
      let l := s.fab.linkOr 1
      s.fab.link 1 = some l ∧ s.leasesSuspended = false ∧ s.fab.rotating = false ∧ l.up = true ∧ l.txN = 8 ∧ l.rxN = 8 ∧ s.fab.slot 1 63 true = some st
        ∧ s.fab.slot 1 63 false = some st ∧ l.planesTx.contains 63 = inSet ∧ l.planesRx.contains 63 = inSet ∧ l.changes = ch
        ∧ min 63 ((s.ctxs.map (fun x => ((x.leases.find? (fun p => p.1 == 1)).map (fun p => p.2)).getD 0)).foldl (· + ·) 0) = want)
    ∧ (let s := mLink (fun l => { l with up := false }); s.fab.link 1 = some (s.fab.linkOr 1) ∧ (s.fab.linkOr 1).up = false)
    ∧ (let s := mLink id; let s := { s with fab := { s.fab with rot := some table2, rotPhase := .guard 0 } }
       s.fab.link 1 = some (s.fab.linkOr 1) ∧ s.leasesSuspended = true ∧ s.fab.rotating = true) := by decide +kernel

/-- A rotation in a phase at a time, with a next table. -/
def mRot (ph : RotPhase) (now : Nat) (next : Option RotTable) (chans : List Chan) : State :=
  let s := mFab (fun f => { f with rot := some table2, rotPhase := ph, rotNext := next, txc := chans, rotBase := 10000 })
  { s with now := now }

/-- A rotation in each phase, at its last slot, before and after the time at which it ends; a next table that may begin, one that may not
yet, and one without slots; before the first table, with leased channels that must drain, and too early for that. -/
theorem witness_RotationPhases :
    (∀ now ∈ [0, 1000], ∀ ph ∈ [RotPhase.guard 1, .window 1, .between 0, .between 1, .before],
      ∀ next ∈ [none, some { table2 with begins := 0 }, some table2, some { table2 with slots := [] }], ∀ l ∈ [[], [chan 5 .active]],
      let s := mRot ph now next l
      s.fab.rot = some table2 ∧ s.fab.rotPhase = ph ∧ s.fab.rotNext = next ∧ s.fab.txc = l
        ∧ (∀ k, k < 2 → (s.fab.guardAt (k + 1) ≤ s.nsHigh ↔ now = 1000) ∧ (s.fab.windowAt 1 ≤ s.nsHigh ↔ now = 1000))
        ∧ s.nsHigh < table2.begins ∧ 0 ≤ s.nsHigh ∧ (now = 1000 → s.fab.rotBase + 400 ≤ s.nsHigh))
    ∧ 0 + 1 < table2.slots.length ∧ table2.slots.length ≤ 1 + 1 ∧ table2.slots ≠ [] ∧ table2.period = 400
    ∧ (mRot .before 0 (some table2) [chan 5 .active]).leasesSuspended = false
    ∧ (mRot .before 0 (some { table2 with begins := 0 }) [chan 5 .active]).leasesSuspended = true := by decide +kernel
/-! ### Witnesses: frames, steps and whole-machine rules -/

/-- Whether an instruction answers a next state. -/
def goesOn (i : Instr) (s : State) : Bool :=
  match exec i s with
  | .next _ => true
  | _ => false

theorem next_of {i : Instr} {s : State} (h : goesOn i s = true) : ∃ u, exec i s = .next u := by
  unfold goesOn at h
  split at h
  · exact ⟨_, by assumption⟩
  · cases h

/-- Results in one register, in a pair, of a floating-point instruction, in gz, and later. -/
theorem witness_RegisterResultFrame : ∀ i ∈ [Instr.add 0#3 10#7 4#7 5#7, .add 0#3 127#7 4#7 5#7, .fadd 0#3 10#7 6#7 6#7, .capinc 10#7 2#7 4#7,
    .frcp 0#3 10#7 6#7], Solo (mk t0) i t0 t0 (mk t0) ∧ (∃ u, exec i (mk t0) = .next u) ∧ ((fixedResult i).isSome || (laterResult i).isSome) = true := by
  intro i h
  refine ⟨solo ?_, next_of ?_, ?_⟩ <;> (revert i h; decide +kernel)

/-- A pair loaded from the last place that its offset names. -/
theorem witness_LoadFrame : let g := goal (mk t0) t0 .load 0x803F0 16
    Solo (mk t0) (.ld128 0#3 10#7 2#7 63#7) t0 t0 (mk t0) ∧ capLoad (.ld128 0#3 10#7 2#7 63#7) = some (0#3, 10#7, 2#7, 63#7, 16)
      ∧ loadCheck 2#7 63#7 16 (mk t0) t0 = .ok (.virt 0x803F0) ∧ (mk t0).reaches t0 .load 0x803F0 16 true g.1 g.2.1 g.2.2
      ∧ (g.2.2.store g.2.1).anyPoison g.1 16 = false ∧ g.2.2.freshness t0 0 ((g.2.2.store g.2.1).stampsOf g.1 16) 0x803F0 = .ok 0#9 :=
  ⟨solo (by decide +kernel), by decide +kernel, ok_of (by decide +kernel), reaches_goal (by decide +kernel), by decide +kernel, by decide +kernel⟩

/-- A store to device memory, one to host memory, and one of the last bytes of the scratchpad. -/
theorem witness_StoreFrame : (mk t0).memWf = true
    ∧ (∀ p ∈ [((2#7, 0#7), (0x80000, false)), ((12#7, 0#7), (0x40000000, true))], let g := goal (mk t0) t0 .store p.2.1 8
      Solo (mk t0) (.st64 4#7 p.1.1 p.1.2) t0 t0 (mk t0) ∧ capStore (.st64 4#7 p.1.1 p.1.2) = some (4#7, p.1.1, p.1.2, 8, false)
        ∧ storeCheck pStore p.1.1 p.1.2 8 (mk t0) t0 = .ok (.virt p.2.1) ∧ (mk t0).reaches t0 .store p.2.1 8 true g.1 g.2.1 g.2.2 ∧ g.2.1 = p.2.2)
    ∧ Solo (mk t0) (.sts128 2#7 9#7 63#7) t0 t0 (mk t0) ∧ scratchStore (.sts128 2#7 9#7 63#7) = some (2#7, 9#7, 63#7, 16)
    ∧ (mk t0).crew t0.crew = some c0 ∧ 1008 = ofSigned 64 (((t0.rd 9#7).v.toNat : Int) + toSigned 7 (63#7).toNat * 16) ∧ 1008 + 16 = c0.scrSize := by
  refine ⟨by decide +kernel, fun p h => ?_, solo (by decide +kernel), by decide +kernel⟩
  simp only [List.mem_cons, List.not_mem_nil, or_false] at h
  rcases h with rfl | rfl <;>
    exact ⟨solo (by decide +kernel), by decide +kernel, ok_of (by decide +kernel), reaches_goal (by decide +kernel), by decide +kernel⟩

/-- An atomic of device memory and one of host memory. -/
theorem witness_AtomicFrame : (mk t0).memWf = true
    ∧ (∀ p ∈ [(2#7, (0x80000, false)), (12#7, (0x40000000, true))], let g := goal (mk t0) t0 .atomic p.2.1 8
      Solo (mk t0) (.atadd64 0#2 10#7 p.1 4#7) t0 t0 (mk t0) ∧ (mk t0).addrBase t0 p.1 = p.2.1 ∧ (atomic t0 (.atadd64 0#2 10#7 p.1 4#7)).isSome = true
        ∧ (mk t0).memCheck t0 p.1 pAtomic ((mk t0).addrBase t0 p.1) 8 8 false = .ok (.virt ((mk t0).addrBase t0 p.1))
        ∧ (mk t0).reaches t0 .atomic ((mk t0).addrBase t0 p.1) 8 true g.1 g.2.1 g.2.2
        ∧ (g.2.2.store g.2.1).anyPoison g.1 8 = false ∧ g.2.1 = p.2.2) := by
  refine ⟨by decide +kernel, fun p h => ?_⟩
  simp only [List.mem_cons, List.not_mem_nil, or_false] at h
  rcases h with rfl | rfl <;>
    exact ⟨solo (by decide +kernel), by decide +kernel, by decide +kernel, ok_of (by decide +kernel), reaches_goal (by decide +kernel), by decide +kernel⟩

/-- A short form, a long form, and one of a shared word; the last decodes to the first row. -/
theorem witness_DecodeEncode : (∀ i ∈ [Instr.add 7#3 127#7 127#7 127#7, .li 127#7 0xFFFFFFFF#32, .haltcResume 4#7 5#7, .pagedoneFail 4#7 5#7,
      .actrdUnbind 4#7 5#7], i.wf = true ∧ (encode i).isEmpty = false)
    ∧ (decodeWords 0x104C3305#32 none).toOption.isSome = true := by decide +kernel

/-- A slot with all its fields at their ends; opcodes at the ends of the gaps. -/
theorem witness_SlotsDecodeEncode : (Instr.tsig (slotOf 0x18#8 2047 (2 ^ 63) (2 ^ 64 - 1) 0)).wf = true
    ∧ (encodeSlot 0xFFFF#16 (.tsig (slotOf 0x18#8 2047 (2 ^ 63) (2 ^ 64 - 1) 0))).isSome = true
    ∧ (0#64).toNat / 2 ^ 40 % 2 ^ 8 = 0 ∧ 24 < (0x190000000000#64).toNat / 2 ^ 40 % 2 ^ 8 ∧ ¬ 24 < (0x180000000000#64).toNat / 2 ^ 40 % 2 ^ 8 := by
  decide +kernel

/-- The thread that a core would issue, judged. -/
def picked (s : State) (core part : Nat) : Bool :=
  match s.pick core part with
  | (some (seed :: _, _), _) =>
    match seed.f with
    | .code c => clauseOk c && decide (seed.rep = 0) && decide (seed.pc.slot ≤ hdrLen c.header) && isInstrSlot c seed.pc.slot
        && decide ((decodeWords (c.slots.getD seed.pc.slot 0#32) (if seed.pc.slot < hdrLen c.header then c.slots[seed.pc.slot + 1]? else none)).toOption
            = some (.add 2#3 48#7 102#7 5#7))
    | _ => false
  | _ => false

/-- An event; a core whose thread issues ADD; a context whose next slot is TNOP; an empty agenda. -/
theorem witness_StepRunsTheInstruction :
    ({ mk t0 with agenda := [.event .deviceTick] } : State).agenda = [.event .deviceTick]
    ∧ (let s := State.reset.withFetchWord 32 0x104C3305
       s.agenda = [.issue 0] ∧ ({ s with agenda := [] } : State).nextPart 0 = some 0 ∧ picked { s with agenda := [] } 0 0 = true)
    ∧ (let s : State := { mSeq (fun x => { x with stream := 0x8F000 - 0x100, logs := 0 }) with agenda := [.accept 0] }
       let s := { s with mem := putWords s.mem 0x8F000 [0x180000000000, 0, 0, 0] }
       ctxIs s (fun x => x.canAccept && (match (s.slotWords x).1 with
         | some w => decide (decodeSlot (w.getD 0 0#64) (w.getD 1 0#64) (w.getD 2 0#64) (w.getD 3 0#64) = some (.tnop (slotOf 0#8 0 0 0 0)))
         | none => false)) = true)
    ∧ (mk t0).agenda = [] := by decide +kernel

/-- Whether a code read is one piece of device memory without poison. -/
def codeOk (s : State) (h n : Nat) : Bool :=
  match s.engMap 0 .fetch h n with
  | (.ok [g], s1) => decide (g = { pa := h, n := n, host := false }) && !s1.mem.anyPoison h n
  | _ => false

/-- The header and its slots inside the range; an address that is no multiple of 4; the first past the range; slots past the range. -/
theorem witness_ClauseReads : probeLaunch.code.covers 0x40000 4 = true ∧ codeOk (mk t0) 0x40000 4 = true ∧ codeOk (mk t0) 0x40004 4 = true
    ∧ probeLaunch.code.covers 0x40004 4 = true ∧ 0x40002 % 4 ≠ 0 ∧ probeLaunch.code.covers 0x100000 4 = false
    ∧ probeLaunch.code.covers 0xFFFFC 4 = true ∧ codeOk (mk t0) 0xFFFFC 4 = true ∧ probeLaunch.code.covers 0x100000 64 = false := by decide +kernel

/-- Unassigned codes at the ends of the gaps, and a word with a reserved TY; a clause with such a word at its only slot. -/
theorem witness_IllegalWordsTrap :
    (∀ op ∈ [0x38, 0x3F, 0x5F, 0xAA, 0xAF, 0xB9, 0xBF, 0xC4, 0xDF, 0xE7, 0xF0, 0xFF], (BitVec.ofNat 32 (op * 2 ^ 24)).toNat / 2 ^ 24 = op)
    ∧ (mk t0).lates = [] ∧ (mk t0).thread t0.crew t0.tid = some t0
    ∧ (let c : Clause := { header := 0x07F80000#32, slots := [0x38000000#32] }
       clauseOk c = true ∧ t0.pc.slot ≤ hdrLen c.header ∧ isInstrSlot c t0.pc.slot = true
         ∧ (decodeWords (c.slots.getD 0 0#32) none).toOption = none)
    ∧ Solo (mk t0) .nop t0 t0 (mk t0) := ⟨by decide +kernel, by decide +kernel, by decide +kernel, by decide +kernel, solo (by decide +kernel)⟩

/-- A privileged instruction of a user thread; the register just past the allocation. -/
theorem witness_ChecksComeFirst :
    (∀ q ∈ [(Instr.tret, false), (.add 0#3 64#7 4#7 5#7, true)], let s := if q.2 then mk t0 else user t0
      s.bundle = [(t0.crew, t0.tid)] ∧ s.thread t0.crew t0.tid = some t0 ∧ s.view (t0.commit s.cycle) = (t0, s) ∧ (s.preCheck q.1 t0).isSome = true
        ∧ s.issuing = .now ∧ s.hasLate t0 = false ∧ encode q.1 ≠ [] ∧ goesOn q.1 s = true) := by
  intro q h
  simp only [List.mem_cons, List.not_mem_nil, or_false] at h
  rcases h with rfl | rfl <;> decide +kernel

/-- A state whose memories hold bytes and stamps, and its next step. -/
theorem witness_MemoriesStayCanonical : (let s := { mk t0 with agenda := [.event .deviceTick] }
    s.memWf = true ∧ s.mem.bytes.isEmpty = false ∧ (match step s with | .next _ => true | _ => false) = true) := by decide +kernel

/-! ### Witnesses: stamps -/

/-- DATA stamps of age 2^29 - 1 and 0; one of age 2^29, which the rule leaves out. -/
theorem witness_CombineOrder : stampAge 0x20000000 1#32 < 2 ^ 29 ∧ stampAge 0x20000000 0x20000000#32 < 2 ^ 29 ∧ ¬ stampAge 0x20000000 0#32 < 2 ^ 29
    ∧ [1#32, 2#32].Perm [2#32, 1#32] := ⟨by decide +kernel, by decide +kernel, by decide +kernel, List.Perm.swap _ _ _⟩
/-! ### Witnesses: events that complete -/

/-- A task without staged effects whose journal is valid. -/
theorem witness_RetirementCompletes : ctxIs (mJournal [taskDone []]) (fun x => x.window == [taskDone []] && !x.faulted && x.unitRuns .window
      && x.owed.isEmpty && decide (x.journal.map (fun j => j.1) = some (taskDone []).uid)) = true
    ∧ (taskDone []).stat = .complete ∧ (taskDone []).fault = none ∧ (taskDone []).staged = [] := by decide +kernel

/-- A launch that took a freshness fault on a region that an earlier launch produced, with a replay left. -/
def mRefire : State :=
  mSeq (fun x => { x with
    window := [taskFailed 0x26 0#8], ctl := 0x100#64, map := [buf1], kept := [((region0 0).ver, { taskDone [] with uid := 76 })] })

/-- Whether the replay of the oldest task can be set up. -/
def replays (s : State) : Bool :=
  match (s.ctx 0).bind (fun x => x.window.head?.map (fun t => (x, t))) with
  | none => false
  | some (x, t) =>
    let undone := ((s.squashAll 0 (x.window.filter (fun y => y.uid != t.uid))).undoTask 0 t).freeBlocks 0 t.news
    match State.refire 0 t.before (x.producers t) t.beforeMap [] undone with
    | .ok (_, m, s1) =>
      !s1.movesQueue 0 (resolveIn m t.regions)
        && (match State.renameAll 0 (resolveIn m t.regions) { regions := [], map := m, news := [], olds := [] } s1 with
          | .ok _ => true
          | _ => false)
    | _ => false

/-- A fault, a freshness fault of a task that is not replayable, and one that is replayed. -/
theorem witness_TaskFaultsComplete :
    (∀ t ∈ [taskFailed 0x20 0#8, { taskSends true .issued with fault := some { code := 0x26, sub := 0, detail := 0 } }],
        ctxIs (mWin [t]) (fun x => x.window == [t] && !x.faulted && x.stop.isNone && x.unitRuns .window && x.owed.isEmpty) = true
          ∧ t.fault.map (fun f => f.code) = some (if t.launch.isSome then 0x26 else 0x20) ∧ (t.launch.isSome → t.replayable = false))
    ∧ ctxIs mRefire (fun x => !x.faulted && x.stop.isNone && x.unitRuns .window && x.owed.isEmpty && x.pendCtl.isEmpty
        && (taskFailed 0x26 0#8).replayable && !(x.producers (taskFailed 0x26 0#8)).isEmpty
        && decide ((taskFailed 0x26 0#8).replays < x.ctl.toNat / 2 ^ 8 % 2 ^ 4)) = true
    ∧ replays mRefire = true := by decide +kernel

/-- An IMM launch with a record for port 5, and that port: a host ring of 64 bytes. -/
def taskOut : Task := { taskSends true .issued with staged := [{ seq := 0, progress := 0, kind := .record 5 [1#8, 2#8] [0#32, 0#32] none }] }
/-- The port. -/
def portOut (kind : Nat) : Port :=
  { n := 5, kind := kind, bound := 0#64, desc := [0x80000#64, 6#64, 0x80800#64, 0x80808#64, 0x8001#64], prod := 0, cons := 0, remainder := [], back := [] }

/-- The machine with both. -/
def mOut : State := mSeq (fun x => { x with window := [taskOut], ports := [portOut 1] })

/-- Whether the record can be written, and then its position. -/
def sends (s : State) : Bool :=
  match s.portCell 0 0x80808 with
  | (.ok v, s1) =>
    decide (recordBytes 2 ≤ 2 ^ 6 - (2 ^ 64 - v) % 2 ^ 64) && ctxIs s1 (fun x => x.dropWrite.isNone)
      && (match ringSplit 0x80000 (2 ^ 6) 0 (recordOf s1.now [1#8, 2#8] [0#32, 0#32]) with
        | [(va, l)] =>
          decide (va / 65536 = (va + l.length - 1) / 65536)
            && (match s1.engMap 0 .store va l.length with
              | (.ok segs, s2) => ((State.segWrite segs (l.map (fun b => b.1)) (fun i => (granuleStamps (l.length / 32 + 2) va l).getD i sVacant) s2).engMap
                  0 .store 0x80800 8).1.toOption.isSome
              | _ => false)
        | _ => false)
  | _ => false

/-- The machine whose port 5 is an ingress ring that holds a record of 8 bytes. -/
def mIn : State :=
  let s := mSeq (fun x => { x with window := [taskTakes], ports := [portOut 3] })
  { s with mem := putWords (putWords s.mem 0x80000 [8, 0, 0x1122334455667788]) 0x80800 [32] }

/-- A record that goes out, a pool entry that is there, and a copy from its port's rest or its ring's next record. -/
theorem witness_RecordsAndPoolComplete :
    (ctxIs mOut (fun x => x.task 77 == some taskOut && x.unitRuns .window && !x.faulted && x.dropWrite.isNone && x.port 5 == some (portOut 1)) = true
      ∧ mOut.headRecords 0 taskOut = taskOut.staged ∧ taskOut.launch.map (fun k => k.imm) = some true ∧ sends mOut = true)
    ∧ ctxIs mPool (fun x => !x.saved && ringIs mPool x.poolAddr 16 (fun bs => ofBytes (bs.take 8) == (x.poolIdx + 1) % 2 ^ 64
        && (poolBlock (ofBytes (bs.drop 8))).any (fun v => decide (x.ownedOf v.cls < 2 ^ 20)))) = true
    ∧ ctxIs (mSeq (fun x => { x with window := [taskTakes], ports := [port5 false] })) (fun x => x.unitRuns .window && x.task 77 == some taskTakes
        && x.port taskTakes.cport == some (port5 false)) = true
    ∧ ctxIs mIn (fun x => x.unitRuns .window && x.task 77 == some taskTakes && x.port taskTakes.cport == some (portOut 3)) = true
    ∧ (match mIn.nextRecord 0 77 (portOut 3) with
        | (.ok (some _), s1) => decide (s1.task 0 77 = some taskTakes)
        | _ => false) = true
    ∧ (taskTakes.op = 0x04 ∧ taskTakes.srck = 2 ∧ taskTakes.stat = .issued ∧ taskTakes.fault = none ∧ taskTakes.wants ≠ 0) := by decide +kernel

/-- A launch at the head of the items of die 0; an admitted cohort that may start; a crew whose threads have exited; an island that holds a
cohort and is down; the last island, idle long enough and up. -/
theorem witness_AdmissionAndStartsComplete :
    (let s := mFive id
     s.admits = [] ∧ (s.part 0).dies.getLsbD 0 = true ∧ (match s.items with
      | (x, .cohort t l) :: _ => decide (x.part = 0) && (s.fitDie (s.load (fun _ => false)) (l.need t) 0).isSome
      | _ => false) = true)
    ∧ (let s := mStart true
       (match s.cohorts with
        | [k] => decide (s.cohort c0.cohort = some k ∧ k.saved = false ∧ k.started = none ∧ (s.island (k.cluster / 12)).on = true ∧ k.admitted + 1 ≤ s.cycle
            ∧ (s.island (k.cluster / 12)).lastStart = none) && ctxIs s (fun x => x.stop.isNone && !x.saved && !x.halted)
            && (s.task k.ctx k.task).any (fun t => t.launch.isSome && t.lastStart.isNone)
        | _ => false) = true)
    ∧ (let s := mOver [] .exited
       s.crew t0.crew = some c0 ∧ (s.cohort c0.cohort).all (fun k => !k.saved) = true ∧ s.threads.all (fun t => t.st == .exited) = true ∧ c0.mq = []
         ∧ s.engines = [])
    ∧ (let s := mStart false
       0 < s.islands.length ∧ (s.island 0).on = false ∧ s.cohorts.any (fun n => !n.saved && n.cluster / 12 == 0) = true)
    ∧ (let s := mFive (fun s => { s with now := 3, parts := s.parts.map (fun p => { p with sched := 0x1003#64 }), islands := s.islands.map (fun i =>
          { i with on := true, idleSince := 0 }) })
       let sched := (s.part (s.partOfDie (31 / 4))).sched.toNat
       31 < s.islands.length ∧ (s.island 31).on = true ∧ s.cohorts.all (fun n => n.cluster / 12 != 31) = true ∧ sched / 2 ^ 12 % 2 = 1
         ∧ (s.island 31).idleSince + sched % 2 ^ 12 ≤ s.now) := by decide +kernel

/-- A stop that waits for two units; a saved context alone; a rendezvous at its limit in a cycle that has issued. -/
theorem witness_StopsAndRestoresComplete :
    (∀ u ∈ [StopUnit.core 0, .window], let s := mStop [.core 0, .window] 0
      ctxIs s (fun x => x.stop.any (fun st => st.waiting.contains u && st.waiting.any (fun v => v != u)) && s.atBoundary 0 u) = true)
    ∧ (let s := { mSaved [] with cohorts := [], crews := [], threads := [] }
       s.ctxs.length = 1 ∧ s.admits = [] ∧ ctxIs s (fun x => x.saved && !x.faulted && !x.halted && x.stop.isNone && x.owed.isEmpty && x.sealBytes.isEmpty
         && (s.homeFor x.part).isSome) = true)
    ∧ (let s := { mkC { c0 with rdvs := [rdv0 4] } t0 with bundle := [], issuedNow := (List.range 4).map (fun p => (c0.core, p)) }
       s.cycleIssued = true ∧ s.settle.crew t0.crew = some { c0 with rdvs := [rdv0 4] } ∧ (rdv0 4).limit ≤ (rdv0 4).timer) := by decide +kernel

end Sys2Proof.Tests
end

section
/-!
Stamps combine by class and age, in any order (spec/02_birth_times.md R39 to R42). The idea: at a device time a stamp has a rank, by its
class first and its age second. A combine of live stamps takes the stamp of the greater rank, as hardware reads it, and two stamps of one
rank read the same. So a combine is a maximum of ranks, and commutative, associative and free of any order as a maximum is.
-/

namespace Sys2Proof.Machine

/-! ### Class and tick -/

/-- CLASS as its class is encoded (R39). -/
def StampClass.code : StampClass → Nat
  | .data => 0
  | .weight => 1
  | .timeless => 2
  | .vacant => 3

theorem Stamp.code_lt_four (s : Stamp) : Stamp.code s < 4 := by
  have := s.isLt
  unfold Stamp.code
  omega

theorem Stamp.cls_code (s : Stamp) : (Stamp.cls s).code = Stamp.code s := by
  have hlt := Stamp.code_lt_four s
  unfold Stamp.code at hlt ⊢
  unfold Stamp.cls
  generalize s.toNat / 2 ^ 30 = c at hlt
  match c with
  | 0 | 1 | 2 | 3 => rfl

theorem Stamp.eq_of_code_tick {a b : Stamp} (hc : Stamp.code a = Stamp.code b) (ht : Stamp.tick a = Stamp.tick b) : a = b := by
  unfold Stamp.code at hc
  unfold Stamp.tick at ht
  exact BitVec.eq_of_toNat_eq (by omega)

theorem stampAge_lt (now : Nat) (s : Stamp) : stampAge now s < 2 ^ 30 := Nat.mod_lt _ (Nat.two_pow_pos 30)

theorem Stamp.eq_of_code_age {now : Nat} {a b : Stamp} (hc : Stamp.code a = Stamp.code b) (h : stampAge now a = stampAge now b) : a = b := by
  refine Stamp.eq_of_code_tick hc ?_
  unfold stampAge Stamp.tick at *
  omega

/-! ### The stamp as hardware reads it (R40) -/

theorem Stamp.shown_eq (s : Stamp) : Stamp.shown s = if 2 ≤ Stamp.code s then BitVec.ofNat 32 (Stamp.code s * 2 ^ 30) else s := by
  rw [← Stamp.cls_code]
  unfold Stamp.shown
  cases Stamp.cls s <;> rfl

theorem Stamp.shown_of_code_lt {s : Stamp} (h : Stamp.code s < 2) : Stamp.shown s = s := by
  rw [Stamp.shown_eq, if_neg (by omega)]

/-- TIMELESS and VACANT stamps of one class read the same. -/
theorem Stamp.shown_congr {a b : Stamp} (hc : Stamp.code a = Stamp.code b) (h : 2 ≤ Stamp.code a) : Stamp.shown a = Stamp.shown b := by
  rw [Stamp.shown_eq, Stamp.shown_eq, if_pos h, if_pos (hc ▸ h), hc]

@[simp] theorem Stamp.code_shown (s : Stamp) : Stamp.code (Stamp.shown s) = Stamp.code s := by
  have hlt := Stamp.code_lt_four s
  rw [Stamp.shown_eq]
  split
  · generalize Stamp.code s = c at hlt
    simp only [Stamp.code, BitVec.toNat_ofNat]
    omega
  · rfl

@[simp] theorem Stamp.shown_shown (s : Stamp) : Stamp.shown (Stamp.shown s) = Stamp.shown s := by
  rcases Nat.lt_or_ge (Stamp.code s) 2 with h | h
  · rw [Stamp.shown_of_code_lt h, Stamp.shown_of_code_lt h]
  · exact Stamp.shown_congr (Stamp.code_shown s) (by rwa [Stamp.code_shown])

/-! ### Combine by class (R41) -/

theorem olderStamp_eq_or (a b : Stamp) : olderStamp a b = a ∨ olderStamp a b = b := by
  unfold olderStamp
  split
  · exact .inl rfl
  · exact .inr rfl

theorem code_olderStamp {a b : Stamp} (hc : Stamp.code a = Stamp.code b) : Stamp.code (olderStamp a b) = Stamp.code a := by
  rcases olderStamp_eq_or a b with h | h
  · rw [h]
  · rw [h, hc]

/-- Of two classes the lower code prevails: DATA over WEIGHT, WEIGHT over TIMELESS, TIMELESS over VACANT. -/
theorem combine_eq (a b : Stamp) :
    combine a b =
      Stamp.shown (if Stamp.code a < Stamp.code b then a else if Stamp.code b < Stamp.code a then b else olderStamp a b) := by
  have ho : Stamp.cls a = Stamp.cls b → Stamp.cls (olderStamp a b) = Stamp.cls a := fun h => by
    rcases olderStamp_eq_or a b with ho | ho <;> simp only [ho, h]
  rw [← Stamp.cls_code, ← Stamp.cls_code]
  unfold combine Stamp.shown
  cases ha : Stamp.cls a <;> cases hb : Stamp.cls b <;> simp [StampClass.code, ha, hb, ho]

theorem combine_of_code_lt {a b : Stamp} (h : Stamp.code a < Stamp.code b) : combine a b = Stamp.shown a := by
  rw [combine_eq, if_pos h]

theorem combine_of_code_gt {a b : Stamp} (h : Stamp.code b < Stamp.code a) : combine a b = Stamp.shown b := by
  rw [combine_eq, if_neg (by omega), if_pos h]

theorem combine_of_code_eq {a b : Stamp} (h : Stamp.code a = Stamp.code b) : combine a b = Stamp.shown (olderStamp a b) := by
  rw [combine_eq, if_neg (by omega), if_neg (by omega)]

/-- The stamp that R41's rules choose, by class, before R40 makes TICK zero. It is the one of the lower class code, and of
one class the older, or any where hardware ignores TICK. -/
theorem shown_combineChoice (a b : Stamp) :
    Stamp.shown (if Stamp.code a = 3 then b
      else if Stamp.code b = 3 then a
      else if Stamp.code a = 0 ∧ Stamp.code b = 0 then olderStamp a b
      else if Stamp.code a = 0 then a
      else if Stamp.code b = 0 then b
      else if Stamp.code a = 1 ∧ Stamp.code b = 1 then olderStamp a b
      else if Stamp.code a = 1 then a
      else if Stamp.code b = 1 then b
      else BitVec.ofNat 32 (2 * 2 ^ 30)) = combine a b := by
  have ha := Stamp.code_lt_four a
  have hb := Stamp.code_lt_four b
  rcases Nat.lt_trichotomy (Stamp.code a) (Stamp.code b) with hc | hc | hc
  · rw [combine_of_code_lt hc]
    congr 1
    grind
  · rw [combine_of_code_eq hc]
    rcases Nat.lt_or_ge (Stamp.code a) 2 with h2 | h2
    · congr 1
      grind
    · have htimeless : Stamp.code (BitVec.ofNat 32 (2 * 2 ^ 30)) = 2 := by decide
      refine (Stamp.shown_congr ?_ (by rwa [code_olderStamp hc])).symm
      rw [code_olderStamp hc]
      grind
  · rw [combine_of_code_gt hc]
    congr 1
    grind

/-- R41's pseudocode with R40's zero TICK, and the fold over a list. -/
theorem combineTable : Claims.CombineTable := by
  intro a b l cls tick zeroed older
  refine ⟨?_, rfl, rfl⟩
  rw [← shown_combineChoice, Stamp.shown_eq]
  rfl

/-! ### Combine by rank (R42) -/

/-- A DATA or WEIGHT stamp is younger than 2^29 ticks, as R62 keeps it. -/
def Stamp.Live (now : Nat) (s : Stamp) : Prop := Stamp.code s < 2 → stampAge now s < 2 ^ 29

/-- By class, DATA highest, and in DATA and WEIGHT by age. -/
def Stamp.rank (now : Nat) (s : Stamp) : Nat :=
  (3 - Stamp.code s) * 2 ^ 30 + if Stamp.code s < 2 then stampAge now s else 0

section
variable {now : Nat} {a b c : Stamp}

@[simp] theorem Stamp.rank_shown (now : Nat) (s : Stamp) : Stamp.rank now (Stamp.shown s) = Stamp.rank now s := by
  unfold Stamp.rank
  rw [Stamp.code_shown]
  split
  case isTrue h => rw [Stamp.shown_of_code_lt h]
  case isFalse => rfl

theorem Stamp.Live.shown (h : Stamp.Live now a) : Stamp.Live now (Stamp.shown a) := by
  intro hc
  rw [Stamp.code_shown] at hc
  rw [Stamp.shown_of_code_lt hc]
  exact h hc

theorem Stamp.rank_lt_of_code_lt (h : Stamp.code a < Stamp.code b) : Stamp.rank now b < Stamp.rank now a := by
  have hb := Stamp.code_lt_four b
  have := stampAge_lt now b
  unfold Stamp.rank
  split <;> split <;> omega

theorem Stamp.code_eq_of_rank_eq (h : Stamp.rank now a = Stamp.rank now b) : Stamp.code a = Stamp.code b := by
  rcases Nat.lt_trichotomy (Stamp.code a) (Stamp.code b) with hc | hc | hc
  · exact absurd h (Nat.ne_of_gt (Stamp.rank_lt_of_code_lt hc))
  · exact hc
  · exact absurd h (Nat.ne_of_lt (Stamp.rank_lt_of_code_lt hc))

theorem Stamp.rank_le_iff_age_le (hc : Stamp.code a = Stamp.code b) (h : Stamp.code a < 2) :
    Stamp.rank now b ≤ Stamp.rank now a ↔ stampAge now b ≤ stampAge now a := by
  unfold Stamp.rank
  rw [← hc, if_pos h, if_pos h, Nat.add_le_add_iff_left]

theorem Stamp.shown_eq_of_rank_eq (h : Stamp.rank now a = Stamp.rank now b) : Stamp.shown a = Stamp.shown b := by
  have hc := Stamp.code_eq_of_rank_eq h
  rcases Nat.lt_or_ge (Stamp.code a) 2 with h2 | h2
  · have hage : stampAge now a = stampAge now b :=
      Nat.le_antisymm ((Stamp.rank_le_iff_age_le hc.symm (hc ▸ h2)).1 (Nat.le_of_eq h)) ((Stamp.rank_le_iff_age_le hc h2).1 (Nat.le_of_eq h.symm))
    rw [Stamp.eq_of_code_age hc hage]
  · exact Stamp.shown_congr hc h2

/-- R42: whatever the time, `older` picks the stamp of greater age. -/
theorem olderStamp_eq_of_age (hc : Stamp.code a = Stamp.code b) (ha : stampAge now a < 2 ^ 29) (hb : stampAge now b < 2 ^ 29) :
    olderStamp a b = if stampAge now b ≤ stampAge now a then a else b := by
  have hdiff : 2 ^ 29 ≤ (Stamp.tick a + 2 ^ 30 - Stamp.tick b) % 2 ^ 30 ↔ stampAge now b < stampAge now a := by
    unfold stampAge Stamp.tick at *
    omega
  unfold olderStamp
  simp only [hdiff]
  rcases Nat.lt_trichotomy (stampAge now a) (stampAge now b) with h | h | h
  · rw [if_neg (by omega), if_neg (by omega)]
  · rw [Stamp.eq_of_code_age hc h, ite_self, ite_self]
  · rw [if_pos h, if_pos (Nat.le_of_lt h)]

theorem stampAge_olderStamp (hc : Stamp.code a = Stamp.code b) (ha : stampAge now a < 2 ^ 29) (hb : stampAge now b < 2 ^ 29) :
    stampAge now (olderStamp a b) = max (stampAge now a) (stampAge now b) := by
  rw [olderStamp_eq_of_age hc ha hb, apply_ite (stampAge now), Nat.max_comm, Nat.max_def]

theorem combine_eq_of_rank (ha : Stamp.Live now a) (hb : Stamp.Live now b) :
    combine a b = Stamp.shown (if Stamp.rank now b ≤ Stamp.rank now a then a else b) := by
  rcases Nat.lt_trichotomy (Stamp.code a) (Stamp.code b) with hc | hc | hc
  · rw [combine_of_code_lt hc, if_pos (Nat.le_of_lt (Stamp.rank_lt_of_code_lt hc))]
  · rw [combine_of_code_eq hc]
    rcases Nat.lt_or_ge (Stamp.code a) 2 with h2 | h2
    · simp only [olderStamp_eq_of_age hc (ha h2) (hb (hc ▸ h2)), Stamp.rank_le_iff_age_le hc h2]
    · refine Stamp.shown_congr ?_ (by rwa [code_olderStamp hc])
      rw [code_olderStamp hc]
      split
      · rfl
      · exact hc
  · rw [combine_of_code_gt hc, if_neg (Nat.not_le_of_gt (Stamp.rank_lt_of_code_lt hc))]

theorem rank_combine (ha : Stamp.Live now a) (hb : Stamp.Live now b) :
    Stamp.rank now (combine a b) = max (Stamp.rank now a) (Stamp.rank now b) := by
  rw [combine_eq_of_rank ha hb, Stamp.rank_shown, apply_ite (Stamp.rank now), Nat.max_comm, Nat.max_def]

theorem live_combine (ha : Stamp.Live now a) (hb : Stamp.Live now b) : Stamp.Live now (combine a b) := by
  rw [combine_eq_of_rank ha hb]
  split
  · exact ha.shown
  · exact hb.shown

theorem shown_combine (a b : Stamp) : Stamp.shown (combine a b) = combine a b := by
  rw [combine_eq, Stamp.shown_shown]

theorem combine_comm_of_live (ha : Stamp.Live now a) (hb : Stamp.Live now b) : combine a b = combine b a := by
  rw [← shown_combine a, ← shown_combine b]
  refine Stamp.shown_eq_of_rank_eq (now := now) ?_
  rw [rank_combine ha hb, rank_combine hb ha, Nat.max_comm]

theorem combine_assoc_of_live (ha : Stamp.Live now a) (hb : Stamp.Live now b) (hc : Stamp.Live now c) :
    combine (combine a b) c = combine a (combine b c) := by
  rw [← shown_combine _ c, ← shown_combine a (combine b c)]
  refine Stamp.shown_eq_of_rank_eq (now := now) ?_
  rw [rank_combine (live_combine ha hb) hc, rank_combine ha (live_combine hb hc), rank_combine ha hb, rank_combine hb hc, Nat.max_assoc]

end

/-! ### Combine over a list -/

section
variable {now : Nat}

theorem combineList_cons (x : Stamp) (l : List Stamp) : combineList (x :: l) = combine x (combineList l) := rfl

theorem code_sVacant : Stamp.code sVacant = 3 := by decide

theorem live_sVacant : Stamp.Live now sVacant := by
  simp [Stamp.Live, code_sVacant]

theorem rank_sVacant : Stamp.rank now sVacant = 0 := by
  simp [Stamp.rank, code_sVacant]

theorem live_combineList {l : List Stamp} (h : ∀ x ∈ l, Stamp.Live now x) : Stamp.Live now (combineList l) := by
  induction l with
  | nil => exact live_sVacant
  | cons x xs ih =>
    obtain ⟨hx, hxs⟩ := List.forall_mem_cons.1 h
    rw [combineList_cons]
    exact live_combine hx (ih hxs)

theorem rank_combineList {l : List Stamp} (h : ∀ x ∈ l, Stamp.Live now x) :
    Stamp.rank now (combineList l) = (l.map (Stamp.rank now)).foldr max 0 := by
  induction l with
  | nil => exact rank_sVacant
  | cons x xs ih =>
    obtain ⟨hx, hxs⟩ := List.forall_mem_cons.1 h
    rw [combineList_cons, rank_combine hx (live_combineList hxs), ih hxs, List.map_cons, List.foldr_cons]

theorem shown_combineList (l : List Stamp) : Stamp.shown (combineList l) = combineList l := by
  cases l with
  | nil => rfl
  | cons x xs => rw [combineList_cons, shown_combine]

theorem combineList_eq_of_perm {l m : List Stamp} (h : ∀ x ∈ l, Stamp.Live now x) (hp : l.Perm m) : combineList l = combineList m := by
  have hm : ∀ x ∈ m, Stamp.Live now x := fun x hx => h x (hp.mem_iff.2 hx)
  rw [← shown_combineList l, ← shown_combineList m]
  refine Stamp.shown_eq_of_rank_eq (now := now) ?_
  rw [rank_combineList h, rank_combineList hm]
  exact (hp.map _).foldr_eq' (fun x _ y _ z => Nat.max_left_comm y x z) 0

end

/-- R42: the laws of `combine` on live stamps, and a combine over a list in any order. -/
theorem combineOrder : Claims.CombineOrder := by
  intro now a b c l m live ha hb hc hl
  refine ⟨combine_comm_of_live ha hb, combine_assoc_of_live ha hb hc, fun hcls h2 => ?_, combineList_eq_of_perm hl⟩
  rw [combine_of_code_eq hcls, Stamp.shown_of_code_lt (by rwa [code_olderStamp hcls])]
  exact ⟨stampAge_olderStamp hcls (ha h2) (hb (hcls ▸ h2)), olderStamp_eq_or a b⟩

/-- Settles O57: the class table is `combine` by its class codes, and the laws of order are those of the maximum of the stamps' ranks. -/
theorem stampsCombine : Obligations.StampsCombine := ⟨combineTable, combineOrder⟩

end Sys2Proof.Machine
end

section
/-!
What the class-F integer instructions give (spec/06_scalar_vector_instructions.md R161, R165 to R172). The idea: the bodies `run1`, `run1K`,
`run2` and `run3` each answer for one thread as R45 and R161 say, so an instruction's result is read off the function that its body
applies to the elements, once the wrap of R161 has taken out a reduction that the body makes itself.
-/

namespace Sys2Proof.Machine

/-! ### The stamps of the operands (R45) -/

theorem combine_sTimeless_sVacant : combine sTimeless sVacant = sTimeless := by decide

/-- An immediate adds TIMELESS to the stamp of the one register operand. -/
theorem combineList_immediate (a : Stamp) : combineList [a, sTimeless] = combine a sTimeless := by
  rw [combineList_cons, combineList_cons]
  exact congrArg (combine a) combine_sTimeless_sVacant

/-! ### Instructions on whole registers -/

section
variable {s s' : State} {i : Instr} {t v : Thread} (h : Solo s i t v s')
include h

theorem Solo.run1 (d a : RegField) (f : Word → Word) : s.run1 i d a f = .next (s'.afterReg i t v d (f (v.val a)) (v.stampOf [a])) :=
  h.runD d _

theorem Solo.run1K (d a : RegField) (f : Word → Word) :
    s.run1K i d a f = .next (s'.afterReg i t v d (f (v.val a)) (combine (v.rd a).s sTimeless)) := by
  rw [← combineList_immediate]
  exact h.runD d _

theorem Solo.run2 (d a b : RegField) (f : Word → Word → Word) :
    s.run2 i d a b f = .next (s'.afterReg i t v d (f (v.val a) (v.val b)) (v.stampOf [a, b])) :=
  h.runD d _

theorem Solo.run3 (d a b c : RegField) (f : Word → Word → Word → Word) :
    s.run3 i d a b c f = .next (s'.afterReg i t v d (f (v.val a) (v.val b) (v.val c)) (v.stampOf [a, b, c])) :=
  h.runD d _

/-! ### Instructions on elements: g is the result before the wrap of R161 -/

variable {d a b c : RegField} {w : Nat} {g : Nat → Nat}

theorem Solo.gives_run1 {f : Nat → Nat} (hx : exec i s = s.run1 i d a (mapElems w f))
    (hf : ∀ j, f (elem w (v.val a).toNat j) % 2 ^ w = g j % 2 ^ w) : GivesElems s s' i t v d (v.stampOf [a]) w g :=
  ⟨_, hx.trans (h.run1 d a _), fun j hj => (elem_mapElems f _ hj).trans (hf j)⟩

theorem Solo.gives_run1K {f : Nat → Nat} (hx : exec i s = s.run1K i d a (mapElems w f))
    (hf : ∀ j, f (elem w (v.val a).toNat j) % 2 ^ w = g j % 2 ^ w) : GivesElems s s' i t v d (combine (v.rd a).s sTimeless) w g :=
  ⟨_, hx.trans (h.run1K d a _), fun j hj => (elem_mapElems f _ hj).trans (hf j)⟩

theorem Solo.gives_run2 {f : Nat → Nat → Nat} (hx : exec i s = s.run2 i d a b (mapElems2 w f))
    (hf : ∀ j, f (elem w (v.val a).toNat j) (elem w (v.val b).toNat j) % 2 ^ w = g j % 2 ^ w) :
    GivesElems s s' i t v d (v.stampOf [a, b]) w g :=
  ⟨_, hx.trans (h.run2 d a b _), fun j hj => (elem_mapElems2 f _ _ hj).trans (hf j)⟩

theorem Solo.gives_run3 {f : Nat → Nat → Nat → Nat} (hx : exec i s = s.run3 i d a b c (mapElems3 w f))
    (hf : ∀ j, f (elem w (v.val a).toNat j) (elem w (v.val b).toNat j) (elem w (v.val c).toNat j) % 2 ^ w = g j % 2 ^ w) :
    GivesElems s s' i t v d (v.stampOf [a, b, c]) w g :=
  ⟨_, hx.trans (h.run3 d a b c _), fun j hj => (elem_mapElems3 f _ _ _ hj).trans (hf j)⟩

end

/-! ### Integer arithmetic (R165) -/

theorem integerArithmetic : Claims.IntegerArithmetic := by
  intro s s' t v ty d a b c k w x z gives
  refine ⟨?add, ?addi, ?sub, ?mul, ?mulhs, ?mulhn, ?mad, ?mins, ?minn, ?maxs, ?maxn, ?abs, ?neg⟩
  case add => exact fun h => h.gives_run2 (exec_add s) fun _ => rfl
  case addi => exact fun h => h.gives_run1K (exec_addi s) fun _ => rfl
  case sub => exact fun h => h.gives_run2 (exec_sub s) fun _ => rfl
  case mul => exact fun h => h.gives_run2 (exec_mul s) fun _ => rfl
  case mulhs => exact fun h => h.gives_run2 (exec_mulhs s) fun _ => rfl
  case mulhn => exact fun h => h.gives_run2 (exec_mulhn s) fun _ => rfl
  case mad => exact fun h => h.gives_run3 (exec_mad s) fun _ => rfl
  case mins => exact fun h => h.gives_run2 (exec_mins s) fun _ => rfl
  case minn => exact fun h => h.gives_run2 (exec_minn s) fun _ => rfl
  case maxs => exact fun h => h.gives_run2 (exec_maxs s) fun _ => rfl
  case maxn => exact fun h => h.gives_run2 (exec_maxn s) fun _ => rfl
  case abs => exact fun h => h.gives_run1 (exec_abs s) fun _ => rfl
  case neg => exact fun h => h.gives_run1 (exec_neg s) fun _ => rfl

/-! ### Compares, selects, moves and literals (R169 to R172) -/

theorem maskElem_decide (w : Nat) (p : Prop) [Decidable p] : maskElem w (decide p) = if p then 2 ^ w - 1 else 0 := by
  simp [maskElem]

theorem maskElem_beq (w x y : Nat) : maskElem w (x == y) = if x = y then 2 ^ w - 1 else 0 := by
  simp [maskElem]

/-- R171: the literal in the upper half, the lower half of A below it. -/
theorem literalAbove_eq_append (lit : BitVec 32) (x : Word) :
    BitVec.ofNat 64 (lit.toNat * 2 ^ 32 + x.toNat % 2 ^ 32) = lit ++ x.setWidth 32 := by
  have hlow : x.toNat % 2 ^ 32 < 2 ^ 32 := Nat.mod_lt _ (by decide)
  have hlit := lit.isLt
  refine BitVec.eq_of_toNat_eq ?_
  rw [BitVec.toNat_append, BitVec.toNat_setWidth, ← Nat.shiftLeft_add_eq_or_of_lt hlow, Nat.shiftLeft_eq, BitVec.toNat_ofNat]
  exact Nat.mod_eq_of_lt (by omega)

theorem comparesSelectsAndMoves : Claims.ComparesSelectsAndMoves := by
  intro s s' t v ty d a b c lit w x z ones gives
  refine ⟨?cmpeq, ?cmplts, ?cmpltn, ?cmples, ?cmplen, ?sel, ?mov, ?li, ?lih, ?lea⟩
  case cmpeq => exact fun h => h.gives_run2 (exec_cmpeq s) fun _ => by rw [maskElem_beq]
  case cmplts => exact fun h => h.gives_run2 (exec_cmplts s) fun _ => by rw [maskElem_decide]
  case cmpltn => exact fun h => h.gives_run2 (exec_cmpltn s) fun _ => by rw [maskElem_decide]
  case cmples => exact fun h => h.gives_run2 (exec_cmples s) fun _ => by rw [maskElem_decide]
  case cmplen => exact fun h => h.gives_run2 (exec_cmplen s) fun _ => by rw [maskElem_decide]
  case sel => exact fun h => h.gives_run3 (exec_sel s) fun _ => by rw [ite_not]
  case mov => exact fun h => (exec_mov s).trans (h.run1 d a id)
  case li => exact fun h => (exec_li s).trans (h.runD d _)
  case lih =>
    intro h
    rw [← literalAbove_eq_append]
    exact (exec_lih s).trans (h.runD d _)
  case lea =>
    intro h
    rw [← h.now]
    exact (exec_lea s).trans (h.runF rfl)

/-- Settles O1: each instruction's body applies the function of the statement to the elements, with the stamp of R45. -/
theorem integerResults : Obligations.IntegerResults := ⟨integerArithmetic, comparesSelectsAndMoves⟩

/-! ### Logic, shifts and bit counts (R166 to R168) -/

theorem logicShiftsAndBits : Claims.LogicShiftsAndBits := by
  intro s s' t v ty d a b c k w x gives whole
  refine ⟨?and, ?or, ?xor, ?andn, ?not, ?shl, ?shr, ?sra, ?shli, ?shri, ?srai, ?rotl, ?popc, ?clz, ?brev, ?bfx, ?bfi⟩
  case and => exact fun h => (exec_and s).trans (h.run2 d a b _)
  case or => exact fun h => (exec_or s).trans (h.run2 d a b _)
  case xor => exact fun h => (exec_xor s).trans (h.run2 d a b _)
  case andn => exact fun h => (exec_andn s).trans (h.run2 d a b _)
  case not => exact fun h => (exec_not s).trans (h.run1 d a _)
  case shl => exact fun h => h.gives_run2 (exec_shl s) fun _ => Nat.mod_mod _ _
  case shr => exact fun h => h.gives_run2 (exec_shr s) fun _ => rfl
  case sra => exact fun h => h.gives_run2 (exec_sra s) fun _ => rfl
  case shli => exact fun h => h.gives_run1K (exec_shli s) fun _ => Nat.mod_mod _ _
  case shri => exact fun h => h.gives_run1K (exec_shri s) fun _ => rfl
  case srai => exact fun h => h.gives_run1K (exec_srai s) fun _ => rfl
  case rotl => exact fun h => h.gives_run2 (exec_rotl s) fun _ => Nat.mod_mod _ _
  case popc => exact fun h => h.gives_run1 (exec_popc s) fun _ => rfl
  case clz => exact fun h => h.gives_run1 (exec_clz s) fun _ => rfl
  case brev => exact fun h => h.gives_run1 (exec_brev s) fun _ => rfl
  case bfx => exact fun h => (exec_bfx s).trans (h.run2 d a b _)
  case bfi => exact fun h => (exec_bfi s).trans (h.run3 d a b c _)

end Sys2Proof.Machine
end

section
/-!
What BREV, POPC, BFX and BFI do to each bit (R167, R168). The idea: a field of l bits at bit p splits a number into what lies above the
field, the field, and the p bits below it; a bit of the whole is then a bit of one of the three.
-/

namespace Sys2Proof.Machine

/-! ### Bit reversal and bit count (R167) -/

theorem bitReverse_lt (w x : Nat) : bitReverse w x < 2 ^ w := by
  induction w generalizing x with
  | zero => exact Nat.one_pos
  | succ w ih =>
    have := ih (x / 2)
    rw [bitReverse, Nat.pow_succ]
    rcases Nat.mod_two_eq_zero_or_one x with h | h <;> rw [h] <;> omega

/-- The lowest bit goes to the top, the others are reversed below it. -/
theorem testBit_bitReverse {w n : Nat} (x : Nat) (h : n < w) : (bitReverse w x).testBit n = x.testBit (w - 1 - n) := by
  induction w generalizing x n with
  | zero => omega
  | succ w ih =>
    rw [bitReverse, Nat.mul_comm, Nat.testBit_two_pow_mul_add _ (bitReverse_lt w _)]
    rcases Nat.lt_succ_iff_lt_or_eq.1 h with hn | rfl
    · rw [if_pos hn, ih _ hn, ← Nat.testBit_succ]
      congr 1
      omega
    · simp

theorem popCount_eq_length_filter (w x : Nat) : popCount w x = ((List.range w).filter x.testBit).length := by
  induction w generalizing x with
  | zero => rfl
  | succ w ih =>
    have hs : x.testBit ∘ Nat.succ = (x / 2).testBit := funext fun n => Nat.testBit_succ x n
    rw [popCount, ih, List.range_succ_eq_map, List.filter_cons, List.filter_map, hs, Nat.testBit_zero]
    rcases Nat.mod_two_eq_zero_or_one x with h | h <;> simp [h, Nat.add_comm]

/-! ### Bit fields (R168) -/

/-- The number with the l bits at bit p replaced by those of y. -/
theorem insertField_eq (x y p l : Nat) :
    x - x / 2 ^ p % 2 ^ l * 2 ^ p + y % 2 ^ l * 2 ^ p = 2 ^ p * (2 ^ l * (x / 2 ^ p / 2 ^ l) + y % 2 ^ l) + x % 2 ^ p := by
  have hx : x = 2 ^ p * (2 ^ l * (x / 2 ^ p / 2 ^ l)) + x % 2 ^ p + x / 2 ^ p % 2 ^ l * 2 ^ p := by
    calc x = 2 ^ p * (x / 2 ^ p) + x % 2 ^ p := (Nat.div_add_mod x _).symm
      _ = 2 ^ p * (2 ^ l * (x / 2 ^ p / 2 ^ l) + x / 2 ^ p % 2 ^ l) + x % 2 ^ p := by rw [Nat.div_add_mod (x / 2 ^ p)]
      _ = _ := by rw [Nat.mul_add, Nat.mul_comm (2 ^ p) (x / 2 ^ p % 2 ^ l), Nat.add_right_comm]
  rw [Nat.sub_eq_of_eq_add hx, Nat.mul_add, Nat.mul_comm (2 ^ p) (y % 2 ^ l), Nat.add_right_comm]

theorem testBit_insertField (x y p l n : Nat) :
    (x - x / 2 ^ p % 2 ^ l * 2 ^ p + y % 2 ^ l * 2 ^ p).testBit n = if p ≤ n ∧ n < p + l then y.testBit (n - p) else x.testBit n := by
  have low : x % 2 ^ p < 2 ^ p := Nat.mod_lt _ (Nat.two_pow_pos p)
  have new : y % 2 ^ l < 2 ^ l := Nat.mod_lt _ (Nat.two_pow_pos l)
  rw [insertField_eq, Nat.testBit_two_pow_mul_add _ low, Nat.testBit_two_pow_mul_add _ new, Nat.testBit_mod_two_pow,
    Nat.testBit_mod_two_pow, Nat.testBit_div_two_pow, Nat.testBit_div_two_pow]
  by_cases below : n < p
  · simp [below, Nat.not_le_of_lt below]
  by_cases inside : n - p < l
  · have : p ≤ n ∧ n < p + l := by omega
    simp [below, inside, this]
  · have : ¬(p ≤ n ∧ n < p + l) := by omega
    rw [if_neg below, if_neg inside, if_neg this]
    congr 1
    omega

theorem getLsbD_bitInsert (x y c : Word) {n : Nat} (h : n < 64) :
    (bitInsert x y c).getLsbD n =
      if bits c.toNat 5 0 ≤ n ∧ n < bits c.toNat 5 0 + fieldLen c.toNat then y.getLsbD (n - bits c.toNat 5 0) else x.getLsbD n := by
  rw [bitInsert, BitVec.getLsbD_ofNat, testBit_insertField, decide_eq_true h, Bool.true_and, BitVec.testBit_toNat, BitVec.testBit_toNat]

/-- The l-bit number x read as two's complement is its bit vector's signed value. -/
theorem toSigned_eq_toInt (l x : Nat) : toSigned l x = (BitVec.ofNat l x).toInt := by
  rcases l with _ | l
  · simp [toSigned, Nat.mod_one, BitVec.toInt_zero_length]
  · rw [toSigned, BitVec.toInt_eq_toNat_cond, BitVec.toNat_ofNat, Nat.add_sub_cancel]
    simp only [Nat.pow_succ, Nat.mul_comm _ 2, Nat.mul_lt_mul_left (Nat.two_pos)]

/-- A bit of the l-bit field at bit p. -/
theorem testBit_field (x p l n : Nat) : (x / 2 ^ p % 2 ^ l).testBit n = (decide (n < l) && x.testBit (p + n)) := by
  rw [Nat.testBit_mod_two_pow, Nat.testBit_div_two_pow, Nat.add_comm]

theorem getLsbD_ofInt_toSigned {l x n : Nat} (h : n < 64) (hl : 0 < l) :
    (BitVec.ofInt 64 (toSigned l x)).getLsbD n = x.testBit (if n < l then n else l - 1) := by
  rw [toSigned_eq_toInt]
  change ((BitVec.ofNat l x).signExtend 64).getLsbD n = _
  rw [BitVec.getLsbD_signExtend, BitVec.msb_eq_getLsbD_last, BitVec.getLsbD_ofNat, BitVec.getLsbD_ofNat]
  by_cases inside : n < l
  · simp [inside, h]
  · have top : l - 1 < l := Nat.sub_lt hl Nat.one_pos
    simp [inside, h, top]

theorem getLsbD_bitExtract (x c : Word) {n : Nat} (h : n < 64) :
    (bitExtract x c).getLsbD n =
      if n < fieldLen c.toNat then x.getLsbD (bits c.toNat 5 0 + n)
      else decide (0 < fieldLen c.toNat) && c.getLsbD 14 && x.getLsbD (bits c.toNat 5 0 + fieldLen c.toNat - 1) := by
  unfold bitExtract
  generalize fieldLen c.toNat = l
  generalize bits c.toNat 5 0 = p
  by_cases empty : l = 0
  · simp [empty]
  have hl : 0 < l := Nat.pos_of_ne_zero empty
  cases signed : c.getLsbD 14
  · rw [if_neg empty, if_neg Bool.false_ne_true, BitVec.getLsbD_ofNat, testBit_field, BitVec.testBit_toNat]
    simp [h]
  · rw [if_neg empty, if_pos rfl, getLsbD_ofInt_toSigned h hl, testBit_field, BitVec.testBit_toNat]
    by_cases inside : n < l
    · simp [inside]
    · have top : l - 1 < l := Nat.sub_lt hl Nat.one_pos
      simp [inside, hl, top, Nat.add_sub_assoc hl]

theorem bitsOneByOne : Claims.BitsOneByOne :=
  ⟨fun _ x _ h => testBit_bitReverse x h, popCount_eq_length_filter,
    fun x y c _ h => ⟨getLsbD_bitExtract x c h, getLsbD_bitInsert x y c h⟩⟩

/-- Settles O2: the instructions' bodies apply these operations, and a bit of a result is a bit of one part of the operand. -/
theorem logicAndBitResults : Obligations.LogicAndBitResults := ⟨logicShiftsAndBits, bitsOneByOne⟩

end Sys2Proof.Machine
end
